-- ==== Sys2Proof/Word.lean ====
section
/-! DEFINITION. The words the spec treats as bits and the index types of the part's tables (00_scope.md section 0.8). -/

namespace Sys2Proof

/-- One byte of a telegram or of a table entry's byte sequence (R150, R166). -/
abbrev Byte := BitVec 8

/-- A time stamp: seconds since the last reset, 32-bit unsigned (section 0.7). -/
abbrev Stamp := BitVec 32

/-- A zone, 0..3. -/
abbrev ZoneIx := Fin 4

/-- An index of the point table, 0..127 (R1). -/
abbrev PointIx := Fin 128

/-- An index of the actuator table, 0..95 (R126). -/
abbrev ActIx := Fin 96

/-- An index of the group table, 0..15 (R105). -/
abbrev GroupIx := Fin 16

/-- A scene number, 0..31 (R106). -/
abbrev SceneIx := Fin 32

/-- An index of a cue within its scene, 0..15 (R107). -/
abbrev CueIx := Fin 16

/-- An index of the forwarding filter, 0..15 (R154). -/
abbrev FilterIx := Fin 16

/-- A watch index, 0..3 (R184). -/
abbrev WatchIx := Fin 4

/-- An accumulator index, 0..5 (R176). -/
abbrev AccIx := Fin 6

/-- A tag, 0..15 (R134). -/
abbrev Tag := Fin 16

end Sys2Proof
end

