-- ==== Sys2Proof/Syntax.lean ====
section
/-! DEFINITION. The commands: one constructor per row of spec/opcode_table.json, with the operands a row needs to say which
zone, point, actuator, tag, cue or line it is about, or what was heard there (log 1, log 19). -/

namespace Sys2Proof

/-- The two field lines (R1, R150). -/
inductive Line where
  | hall | trunk
  deriving DecidableEq, Repr

/-- One byte as a line interface hears it: its value, and whether it had its stop bit (R151, R156). -/
structure RxByte where
  value : Byte
  stop : Bool
  deriving DecidableEq, Repr

/-- The events and requests the part takes. A request row has no parameters of its own: they stand in the request telegram at
the head of the channel that R163 serves next. -/
inductive Instr where
  /-- POWER_ON (R189) -/
  | powerOn
  /-- RECEIVED_UNIT (R151): the bytes heard on a line since its last quiet stretch -/
  | receivedUnit (line : Line) (heard : List RxByte)
  /-- SERVICE_UNIT (R162) -/
  | serviceUnit (heard : List RxByte)
  /-- STALE_EXPIRY (R18) -/
  | staleExpiry (point : PointIx)
  /-- EVALUATION (R31) -/
  | evaluation (zone : ZoneIx)
  /-- DWELL_EXPIRY (R70) -/
  | dwellExpiry (zone : ZoneIx)
  /-- DETECT_TIMEOUT (R87) -/
  | detectTimeout (zone : ZoneIx)
  /-- PREP_TIMEOUT (R89) -/
  | prepTimeout (zone : ZoneIx)
  /-- MOTION_TIMEOUT (R92) -/
  | motionTimeout (zone : ZoneIx)
  /-- SETTLE_EXPIRY (R91) -/
  | settleExpiry (zone : ZoneIx)
  /-- PURGE_WAIT_EXPIRY (R99) -/
  | purgeWaitExpiry (zone : ZoneIx)
  /-- PURGE_RUN_EXPIRY (R101) -/
  | purgeRunExpiry (zone : ZoneIx)
  /-- CUE_DELAY_EXPIRY (R115) -/
  | cueDelayExpiry (zone : ZoneIx) (cue : CueIx)
  /-- FADE_STEP (R117) -/
  | fadeStep (zone : ZoneIx)
  /-- REFRESH_EXPIRY (R132) -/
  | refreshExpiry (actuator : ActIx)
  /-- RETRY_EXPIRY (R141) -/
  | retryExpiry (actuator : ActIx)
  /-- OVERRIDE_HOLD_EXPIRY (R145) -/
  | overrideHoldExpiry (actuator : ActIx)
  /-- ACK_TIMEOUT (R140) -/
  | ackTimeout (tag : Tag)
  /-- ARBITRATION (R134) -/
  | arbitration
  /-- HALL_TX_CHOOSE (R157), on a quiet line -/
  | hallTxChoose
  /-- TRUNK_TX_CHOOSE (R158), on a quiet line -/
  | trunkTxChoose
  /-- TX_ATTEMPT_END (R156): the bytes read back in this attempt -/
  | txAttemptEnd (line : Line) (readBack : List RxByte)
  /-- TX_RETRY_ATTEMPT (R156): how many byte times the line has been quiet -/
  | txRetryAttempt (line : Line) (quietByteTimes : Nat)
  /-- SERVICE_REPLY_SENT (R164) -/
  | serviceReplySent
  /-- COMMIT_COMPLETE (R188) -/
  | commitComplete
  /-- LOCAL_IDLE_EXPIRY (R172) -/
  | localIdleExpiry
  /-- RESTART_BEGIN (R190) -/
  | restartBegin
  /-- UNKNOWN_REQUEST (R165) -/
  | unknownRequest
  /-- IDENTIFY (R169) -/
  | identify
  /-- READ_ENTRY (R166) -/
  | readEntry
  /-- WRITE_ENTRY_SEGMENT (R167) -/
  | writeEntrySegment
  /-- WRITE_ENTRY_POINT (R3) -/
  | writeEntryPoint
  /-- WRITE_ENTRY_ACTUATOR (R127) -/
  | writeEntryActuator
  /-- WRITE_ENTRY_GROUP (R105) -/
  | writeEntryGroup
  /-- WRITE_ENTRY_SCENE_HEADER (R106) -/
  | writeEntrySceneHeader
  /-- WRITE_ENTRY_CUE (R108) -/
  | writeEntryCue
  /-- WRITE_ENTRY_ZONE (R27) -/
  | writeEntryZone
  /-- WRITE_ENTRY_SATURATION (R28) -/
  | writeEntrySaturation
  /-- WRITE_ENTRY_FILTER (R154) -/
  | writeEntryFilter
  /-- WRITE_ENTRY_PART (R168) -/
  | writeEntryPart
  /-- ZONE_ENABLE (R169) -/
  | zoneEnable
  /-- ZONE_DISABLE (R169) -/
  | zoneDisable
  /-- CLOSE_COVERS (R88) -/
  | closeCovers
  /-- OPEN_COVERS (R88) -/
  | openCovers
  /-- CLEAR_FAULT (R88) -/
  | clearFault
  /-- RESET_CONTROL (R32) -/
  | resetControl
  /-- RESUME (R186) -/
  | resume
  /-- SCENE_REQUEST (R111) -/
  | sceneRequest
  /-- ACTUATOR_DISABLE (R146) -/
  | actuatorDisable
  /-- ACTUATOR_ENABLE (R146) -/
  | actuatorEnable
  /-- READ_FLAGS (R174) -/
  | readFlags
  /-- LINE_STATUS (R169): whether each line is busy when the request is taken -/
  | lineStatus (hallBusy trunkBusy : Bool)
  /-- ACCUMULATOR_READ (R179) -/
  | accumulatorRead
  /-- ACCUMULATOR_PRELOAD (R179) -/
  | accumulatorPreload
  /-- ACCUMULATOR_SET_RUN (R179) -/
  | accumulatorSetRun
  /-- CAPTURE_TAKE (R182) -/
  | captureTake
  /-- CAPTURE_COUNT (R182) -/
  | captureCount
  /-- CAPTURE_READ (R182) -/
  | captureRead
  /-- RING_READ (R183) -/
  | ringRead
  /-- RING_UNFREEZE (R183) -/
  | ringUnfreeze
  /-- WATCH_READ (R184) -/
  | watchRead
  /-- WATCH_WRITE (R184) -/
  | watchWrite
  /-- WATCH_ARM (R184) -/
  | watchArm
  /-- WATCH_DISARM (R184) -/
  | watchDisarm
  /-- COMMIT_IMAGE (R188) -/
  | commitImage
  /-- RESTART (R190) -/
  | restart
  /-- TAKE_LOCAL (R171) -/
  | takeLocal
  /-- RELEASE_LOCAL (R172) -/
  | releaseLocal
  deriving DecidableEq, Repr

end Sys2Proof
end

