-- ==== Sys2Proof/Decode.lean ====
section
/-! DEFINITION. Commands spelled by the opcode table's bits: none, for no row of spec/opcode_table.json gives bits. A command
comes to the part as an event, not as a word (log 1). -/

namespace Sys2Proof

/-- The command that the word `w` of `nbits` bits spells by the table's bits. No row has bits, so no word spells one. -/
def decodeTableWord (_nbits _w : Nat) : Option Instr := none

end Sys2Proof
end

