-- ==== Sys2Proof/Machine/Types.lean ====
section
/-! DEFINITION. The records and named values of the spec's tables, each in the order in which its rule lists its fields and
values. -/

namespace Sys2Proof.Machine

/-- A timer (R85, R110): stopped, running or paused with what remains of it, in milliseconds (log 2). A running timer with
nothing remaining is due: its expiry has not been taken yet. -/
inductive Timer where
  | stopped
  | running (remaining : Nat)
  | paused (remaining : Nat)
  deriving DecidableEq, Repr

/-- The form of a timer, as a read names it (R166). -/
inductive TimerForm where
  | stopped | running | paused
  deriving DecidableEq, Repr

/-! ### Points (01) -/

/-- The quantity a point carries (R1). -/
inductive PointKind where
  | airTemp | airRh | waterTemp | glazingTemp | outdoorTemp | coverClosed | coverOpen | general
  deriving DecidableEq, Repr

/-- The zone a point serves: 0..3, or ALL (R1). An entry not in use stores any other byte as it was written: 4 to 254, counted
here from 4 (R4, log 13). -/
inductive PointZone where
  | zone (z : ZoneIx)
  | all
  | unlisted (past : Fin 251)
  deriving DecidableEq, Repr

/-- Configuration of a point entry (R1). A named value or a yes/no field beside in use is the byte that was written: a value of R1
in an entry in use, any byte in one not in use, whose fields stand as they were written (R4, log 13). -/
structure PointCfg where
  inUse : Bool
  lineField : Byte
  node : Nat
  channel : Nat
  kindField : Byte
  zone : PointZone
  min : Int
  max : Int
  staleTimeout : Nat
  persistence : Option Nat
  drive : Option Nat
  notifyField : Byte
  protectField : Byte
  deriving DecidableEq, Repr

/-- The four states of a point (R2). -/
inductive PointState where
  | never | fresh | stale | fault
  deriving DecidableEq, Repr

/-- Runtime of a point entry (R2); a contact is made when `true`. -/
structure PointRt where
  state : PointState
  value : Option Int
  contact : Option Bool
  candidate : Option Bool
  run : Nat
  lastArrival : Option Stamp
  staleTimer : Timer
  deriving DecidableEq, Repr

/-- What the cover sequencer is told of a contact (R15). -/
inductive ContactReport where
  | known (made : Bool)
  | changed (made : Bool)
  | unknown
  deriving DecidableEq, Repr

/-! ### Actuators and the dispatcher (07) -/

/-- The four jobs, in their cyclic order (R134). -/
inductive Job where
  | heat | air | cover | light
  deriving DecidableEq, Repr

/-- One value for each job. -/
structure PerJob (α : Type) where
  heat : α
  air : α
  cover : α
  light : α
  deriving DecidableEq, Repr

/-- The function of an actuator (R126). -/
inductive ActKind where
  | heatValve | ahuMode | supplyFan | oaDamper | coverDrive | purgeFan | dimmer | plain
  deriving DecidableEq, Repr

/-- Configuration of an actuator entry (R126). The kind, the zone and the protect mark are the bytes that were written: values of
R126 in an entry in use, any byte in one not in use (R127, log 13). -/
structure ActCfg where
  inUse : Bool
  node : Nat
  channel : Nat
  kindField : Byte
  zoneField : Byte
  min : Int
  max : Int
  deadband : Nat
  refresh : Nat
  overrideHold : Nat
  protectField : Byte
  deriving DecidableEq, Repr

/-- The zone of an actuator entry in use (R126). Of an entry not in use no block asks for it (section 7.2). -/
def ActCfg.zone (c : ActCfg) : ZoneIx := ⟨c.zoneField.toNat % 4, Nat.mod_lt _ (by decide)⟩

/-- Whether the part may send to an actuator (R128). -/
inductive Control where
  | enabled | disabling | disabled | overridden
  deriving DecidableEq, Repr

/-- Where an actuator stands with respect to the line (R128). -/
inductive DispatchState where
  | idle | queued | inFlight
  deriving DecidableEq, Repr

/-- The health of an actuator (R128). -/
inductive Health where
  | ok | unresponsive | hand
  deriving DecidableEq, Repr

/-- Runtime of an actuator entry (R128). -/
structure ActRt where
  control : Control
  dispatch : DispatchState
  requested : Option Int
  needsSend : Bool
  refreshOnly : Bool
  inFlightValue : Option Int
  inFlightTag : Option Tag
  confirmed : Option Int
  rangeRefused : Option Int
  health : Health
  timeouts : Nat
  refreshTimer : Timer
  retryTimer : Timer
  overrideTimer : Timer
  deriving DecidableEq, Repr

/-- The outcome of a command (R139). -/
inductive CommandOutcome where
  | applied | refusedHand | refusedRange | timeout
  deriving DecidableEq, Repr

/-- A telegram (R150): its header and payload; the length byte and the check follow from them. -/
structure Telegram where
  dest : Byte
  src : Byte
  kind : BitVec 4
  tag : BitVec 4
  payload : List Byte
  deriving DecidableEq, Repr

/-- The phase of a command in the outstanding table, with its acknowledgement timer (R135, R136). -/
inductive Phase where
  | sending
  | awaitingAck (timer : Timer)
  deriving DecidableEq, Repr

/-- An entry of the outstanding table (R135), and the COMMAND telegram handed to the hall transmitter with it (log 22). -/
structure Outstanding where
  tag : Tag
  act : ActIx
  node : Byte
  channel : Byte
  value : Int
  phase : Phase
  telegram : Telegram
  deriving DecidableEq, Repr

/-- The dispatcher's own state (R131, R134, R135). The outstanding table is listed in the order of dispatch. -/
structure Dispatcher where
  queues : PerJob (List ActIx)
  waitCounts : PerJob Nat
  lastWinner : Job
  lastTag : Tag
  outstanding : List Outstanding
  deriving DecidableEq, Repr

/-! ### Scenes (06) -/

/-- The target of a cue (R107). -/
inductive CueTarget where
  | actuator (a : ActIx)
  | group (g : GroupIx)
  deriving DecidableEq, Repr

/-- The climate a guard names (R107). -/
inductive Climate where
  | openHall | night
  deriving DecidableEq, Repr

/-- A cue's guard (R107). -/
inductive Guard where
  | climateIs (c : Climate)
  | pointAbove (p : PointIx) (threshold : Int)
  | pointBelow (p : PointIx) (threshold : Int)
  | pointFresh (p : PointIx)
  deriving DecidableEq, Repr

/-- A cue (R107); fade and delay in tenths of a second. -/
structure Cue where
  target : Option CueTarget
  level : Int
  fade : Nat
  delay : Nat
  guard : Option Guard
  skip : Nat
  deriving DecidableEq, Repr

/-- A scene header (R106). -/
structure SceneHeader where
  cueCount : Nat
  protect : Bool
  deriving DecidableEq, Repr

/-- The scene engine's state (R110). -/
inductive SceneState where
  | idle | running | settling | complete | completeDegraded
  deriving DecidableEq, Repr

/-- What caused a take (R110). -/
inductive TakeOrigin where
  | request | coverWork | openScene | nightScene
  deriving DecidableEq, Repr

/-- A cue of the take: withheld, pending with its remaining delay in milliseconds, or started (R110). -/
inductive CueStatus where
  | withheld
  | pending (remaining : Nat)
  | started
  deriving DecidableEq, Repr

/-- A cue of the take, with the channels its target expanded to (R114: fixed for the take). -/
structure CueRun where
  status : CueStatus
  channels : List ActIx
  deriving DecidableEq, Repr

/-- A fade in progress (R116): start level, end level, number of steps, steps taken. -/
structure Fade where
  ls : Int
  lt : Int
  n : Nat
  k : Nat
  deriving DecidableEq, Repr

/-- A touched channel (R110). -/
structure Touched where
  act : ActIx
  owner : Option Nat
  fade : Option Fade
  rangeRefused : Bool
  deriving DecidableEq, Repr

/-- The scene engine's record (R110). -/
structure SceneRt where
  state : SceneState
  scene : Option SceneIx
  origin : Option TakeOrigin
  takeTime : Option Stamp
  cues : List CueRun
  touched : List Touched
  stepTimer : Timer
  coverWork : Bool
  degraded : Option ActIx
  deriving DecidableEq, Repr

/-! ### Zones (02 to 05) -/

/-- Evaluation configuration (R25). -/
structure EvalCfg where
  period : Nat
  rhOpen : Int
  rhNight : Int
  krh : Int
  mthr : Int
  kc : Int
  mcrit : Int
  protect : Bool
  enabled : Bool
  deriving DecidableEq, Repr

/-- Heating configuration (R46). -/
structure HeatCfg where
  openOffset : Int
  nightOffset : Int
  spMin : Int
  spMax : Int
  kp : Int
  ki : Int
  deriving DecidableEq, Repr

/-- Arbiter configuration (R64). -/
structure ArbCfg where
  dwell : Nat
  don : Int
  doff : Int
  voff : Int
  hvent : Int
  fIdle : Int
  fNight : Int
  fHeat : Int
  fdMin : Int
  fdMax : Int
  fVent : Int
  fPurge : Int
  dMin : Int
  dPurge : Int
  deriving DecidableEq, Repr

/-- Cover and purge configuration (R83); wait A and run B in minutes. -/
structure CoverCfg where
  prep : Nat
  motion : Nat
  detect : Nat
  settle : Nat
  waitA : Nat
  runB : Nat
  fanLevel : Int
  openScene : Option SceneIx
  coverWorkScene : Option SceneIx
  nightScene : Option SceneIx
  deriving DecidableEq, Repr

/-- Configuration of a zone record. -/
structure ZoneCfg where
  eval : EvalCfg
  heat : HeatCfg
  arb : ArbCfg
  cover : CoverCfg
  deriving DecidableEq, Repr

/-- An aggregate as the zone record keeps it (R21): last formed value and held indicator. -/
structure Aggregate where
  last : Option Int
  held : Bool
  deriving DecidableEq, Repr

/-- Evaluation runtime (R26), and the period, in seconds, with which the evaluation timer was started (R176). -/
structure EvalRt where
  ta : Aggregate
  rh : Aggregate
  tw : Aggregate
  tg : Aggregate
  tout : Aggregate
  tc : Option Int
  psat : Option Int
  pv : Option Int
  td : Option Int
  margin : Option Int
  heldMargin : Bool
  dRh : Int
  dCond : Int
  d : Int
  crit : Bool
  noAirData : Bool
  tClamp : Bool
  dewLow : Bool
  timer : Timer
  lastTime : Option Stamp
  startedPeriod : Nat
  deriving DecidableEq, Repr

/-- Heating runtime (R48). -/
structure HeatRt where
  spa : Option Int
  heldSetpoint : Bool
  e : Option Int
  h : Int
  i : Int
  integLimit : Bool
  deriving DecidableEq, Repr

/-- The air handler modes (R63). -/
inductive Mode where
  | idle | heat | dry | vent | purge
  deriving DecidableEq, Repr

/-- The row of the choice (R68). -/
inductive ChoiceRow where
  | disabled | crit | purge | drying | heating | none
  deriving DecidableEq, Repr

/-- Why a chosen mode has not taken effect (R66). -/
inductive Pending where
  | dwell | hold
  deriving DecidableEq, Repr

/-- The cause of a change of mode (R73). -/
inductive ModeCause where
  | zoneDisabled | purgeEnd | crit | purge | dryDemand | heatDemand | noDemand
  deriving DecidableEq, Repr

/-- Arbiter runtime (R66); the dwell timer is satisfied when stopped. -/
structure ArbRt where
  granted : Mode
  grantTime : Option Stamp
  dwell : Timer
  chosen : Option Mode
  pending : Option Pending
  ventAvailable : Bool
  lastCause : Option ModeCause
  lastDecision : Option Stamp
  deriving DecidableEq, Repr

/-- The cover sequencer's states (R85). -/
inductive CoverState where
  | disabled | detect | openIdle | prepClose | deploying | settle | covered | prepOpen | retracting | fault
  deriving DecidableEq, Repr

/-- Fault reasons of the cover sequencer (R85). -/
inductive FaultReason where
  | unknownPosition | lighting | timeout | contactLost | drive | coverMoved
  deriving DecidableEq, Repr

/-- The cause of a cover change (R86). -/
inductive CoverCause where
  | zoneEnabled | cleared | positionFound | command | lightingReady | forced | endReached | settled
  | fault (reason : FaultReason)
  | zoneDisabled
  deriving DecidableEq, Repr

/-- Cover sequencer runtime (R85). -/
structure CoverRt where
  state : CoverState
  reason : Option FaultReason
  drives : List ActIx
  detectTimer : Timer
  prepTimer : Timer
  motionTimer : Timer
  settleTimer : Timer
  lightingReady : Bool
  workSceneTaken : Bool
  deriving DecidableEq, Repr

/-- The purge timer's states (R98). -/
inductive PurgeState where
  | inactive | wait | request | run | suspended
  deriving DecidableEq, Repr

/-- Purge timer runtime (R98); the three times in milliseconds (log 2, log 4). -/
structure PurgeRt where
  state : PurgeState
  remainingWait : Nat
  remainingRun : Nat
  runCounted : Nat
  runStart : Option Stamp
  deriving DecidableEq, Repr

/-- Runtime of a zone record. -/
structure ZoneRt where
  eval : EvalRt
  heat : HeatRt
  arb : ArbRt
  cover : CoverRt
  purge : PurgeRt
  scene : SceneRt
  arming : Option AccIx
  held : Bool
  holdCause : Option WatchIx
  deriving DecidableEq, Repr

/-! ### Lines (08) -/

/-- The direction of a telegram in transit (R154). -/
inductive Direction where
  | ht | th
  deriving DecidableEq, Repr

/-- The direction field of a filter entry (R154). -/
inductive FilterDir where
  | ht | th | both
  deriving DecidableEq, Repr

/-- The action of a filter entry, and the filter default (R154). -/
inductive FilterAction where
  | pass | block
  deriving DecidableEq, Repr

/-- A filter entry. The direction and the action are the bytes that were written: values of R154 in an entry in use, any byte in one
not in use (R154, log 13). -/
structure FilterEntry where
  inUse : Bool
  lo : Nat
  hi : Nat
  dirField : Byte
  actionField : Byte
  deriving DecidableEq, Repr

/-- A forwarding queue with its discard count (R155). -/
structure ForwardQueue where
  items : List Telegram
  discards : Nat
  deriving DecidableEq, Repr

/-- The source of a telegram in transmission (R156). -/
inductive TxSource where
  | command (tag : Tag)
  | forward
  | reply
  | notice
  | announce
  deriving DecidableEq, Repr

/-- A transmitter (R156): free, sending its telegram's attempt, or waiting between two attempts. -/
inductive Transmitter where
  | free
  | sending (source : TxSource) (telegram : Telegram) (attempt : Nat)
  | waiting (source : TxSource) (telegram : Telegram) (attempt : Nat)
  deriving DecidableEq, Repr

/-- The two sources of the hall transmitter (R157). -/
inductive HallSource where
  | command | forward
  deriving DecidableEq, Repr

/-- The line blocks (R151 to R161). -/
structure Lines where
  hallActive : Bool
  trunkActive : Bool
  hallErrors : Nat
  trunkErrors : Nat
  ht : ForwardQueue
  th : ForwardQueue
  hallTx : Transmitter
  trunkTx : Transmitter
  hallLast : HallSource
  forwardWait : Nat
  announcePending : Bool
  deriving DecidableEq, Repr

/-! ### Accounting (10) -/

/-- Options of one accumulator (R176). -/
structure AccOptions where
  enabled : Bool
  captureOnOverflow : Bool
  freezeOnOverflow : Bool
  deriving DecidableEq, Repr

/-- An accumulator: its value and its overflowed mark (R176). -/
structure Accumulator where
  value : BitVec 32
  overflowed : Bool
  deriving DecidableEq, Repr

/-- The capture modes (R176). -/
inductive CaptureMode where
  | wrap | stop
  deriving DecidableEq, Repr

/-- The reason of a capture (R180). -/
inductive CaptureReason where
  | accOverflow (acc : AccIx)
  | watch (w : WatchIx)
  | requested
  deriving DecidableEq, Repr

/-- A capture record (R180). -/
structure CaptureRecord where
  time : Stamp
  zone : ZoneIx
  reason : CaptureReason
  ta : Option Int
  rh : Option Int
  tw : Option Int
  tg : Option Int
  td : Option Int
  margin : Option Int
  h : Int
  d : Int
  i : Int
  mode : Mode
  cover : CoverState
  purge : PurgeState
  scene : Option SceneIx
  deriving DecidableEq, Repr

/-- What a decision-ring record says (R183): an arbiter, cover or scene change with its cause. -/
inductive RingEntry where
  | ahu (left granted : Mode) (cause : ModeCause)
  | cover (left entered : CoverState) (cause : CoverCause)
  | scene (left : Option SceneIx) (entered : SceneIx) (cause : TakeOrigin)
  deriving DecidableEq, Repr

/-- A decision-ring record (R183). -/
structure RingRecord where
  time : Stamp
  zone : ZoneIx
  entry : RingEntry
  deriving DecidableEq, Repr

/-- The accounting blocks (R176 to R183); capture buffer and ring list their oldest record first. -/
structure Accounting where
  accs : Vector (Vector Accumulator 6) 4
  captures : List CaptureRecord
  thresholdArmed : Bool
  trunkReadOut : List CaptureRecord
  serviceReadOut : List CaptureRecord
  ring : List RingRecord
  frozen : Bool
  deriving DecidableEq, Repr

/-- The target of a watch (R184). -/
inductive WatchTarget where
  | point (p : PointIx)
  | actuator (a : ActIx)
  deriving DecidableEq, Repr

/-- The kinds of event a watch takes (R184). -/
inductive WatchOn where
  | arrival | dispatch | either
  deriving DecidableEq, Repr

/-- The condition of a watch (R184). -/
inductive WatchCondition where
  | above (threshold : Int)
  | below (threshold : Int)
  deriving DecidableEq, Repr

/-- The action of a watch (R184). -/
inductive WatchAction where
  | notice | capture | holdZone
  deriving DecidableEq, Repr

/-- A watch (R184). -/
structure Watch where
  armed : Bool
  target : WatchTarget
  on : WatchOn
  condition : Option WatchCondition
  action : WatchAction
  deriving DecidableEq, Repr

/-! ### Management (09) -/

/-- The two request channels (R162). -/
inductive Channel where
  | trunk | service
  deriving DecidableEq, Repr

/-- Reply statuses (R150). -/
inductive Status where
  | done | unknownRequest | badIndex | badValue | protectedEntry | reserved | busy | inUse | interlocked | wrongState
  | unconfigured
  deriving DecidableEq, Repr

/-- A reply, its channel, and whether it is the DONE of an accepted RESTART (R190, log 23). -/
structure Reply where
  channel : Channel
  telegram : Telegram
  restart : Bool
  deriving DecidableEq, Repr

/-- Notice kinds (R150). -/
inductive NoticeKind where
  | pointStale | condensation | coverState | coverFault | actuatorUnresponsive | actuatorHand | actuatorRange
  | actuatorRecovered | accOverflow | captureThreshold | watchMatch | localReleased | commitDone
  deriving DecidableEq, Repr

/-- A notice (R173); zone 255 is part-wide. -/
structure Notice where
  kind : NoticeKind
  zone : Byte
  time : Stamp
  detail : List Byte
  deriving DecidableEq, Repr

/-- A staging record that holds a write (R167). -/
structure Staging where
  table : Nat
  index : Nat
  next : Nat
  bytes : List Byte
  deriving DecidableEq, Repr

/-- The sticky part flags (R174). -/
structure PartFlags where
  protectFault : Bool
  foreignBlocked : Bool
  noticeLost : Bool
  requestOverrun : Bool
  txLost : Bool
  captureFull : Bool
  deriving DecidableEq, Repr

/-- The PART record (R133, R154, R168, R176). -/
structure PartRecord where
  own : Nat
  supervisor : Nat
  ackTimeout : Nat
  priority : PerJob Nat
  maxWait : PerJob Nat
  filterDefault : FilterAction
  run : Bool
  accOptions : Vector (Vector AccOptions 6) 4
  captureMode : CaptureMode
  captureThreshold : Nat
  ringFreeze : Bool
  deriving DecidableEq, Repr

/-- Every configuration field of the part: what the image copies (R187). -/
structure ConfigData where
  points : Vector PointCfg 128
  acts : Vector ActCfg 96
  groups : Vector (List ActIx) 16
  headers : Vector SceneHeader 32
  cues : Vector (Vector Cue 16) 32
  zones : Vector ZoneCfg 4
  saturation : Vector Nat 17
  filter : Vector FilterEntry 16
  part : PartRecord
  watches : Vector Watch 4
  deriving DecidableEq, Repr

/-- A commit in flight (R188): its channel, where its reply goes, and the copy it took. -/
structure Commit where
  channel : Channel
  requester : Byte
  tag : BitVec 4
  copy : ConfigData
  deriving DecidableEq, Repr

/-- The management unit (R162 to R175). -/
structure Management where
  trunkRequests : List Telegram
  serviceRequests : List Telegram
  replies : List Reply
  notices : List Notice
  trunkStaging : Option Staging
  serviceStaging : Option Staging
  flags : PartFlags
  localMode : Bool
  idleTimer : Timer
  lastServed : Channel
  serviceErrors : Nat
  restartPending : Bool
  commit : Option Commit
  deriving DecidableEq, Repr

/-! ### The image store (11) -/

/-- The non-volatile image (R187, R188): never written, left part-way by a commit cut short, or stored contents with their
check. -/
inductive Image where
  | blank
  | torn
  | stored (contents : ConfigData) (check : BitVec 32)
  deriving DecidableEq, Repr

/-- The image state found at the last load (R187). -/
inductive ImageState where
  | passed | blank | failed
  deriving DecidableEq, Repr

end Sys2Proof.Machine
end

