-- ==== Sys2Proof/Machine/Defaults.lean ====
section
/-! DEFINITION. The unconfigured values of the tables and the reset values of the runtime records, rule by rule. -/

namespace Sys2Proof.Machine

/-! ### Unconfigured configuration -/

/-- A point entry of an unconfigured part: not in use, no protect mark (R23). The other fields: DESIGN CHOICE (log 6). -/
def PointCfg.unconfigured : PointCfg :=
  { inUse := false, lineField := 0, node := 0, channel := 0, kindField := 0, zone := .zone 0, min := 0, max := 0,
    staleTimeout := 0, persistence := none, drive := none, notifyField := 0, protectField := 0 }

/-- An actuator entry of an unconfigured part: not in use, no protect mark (R126). The other fields: DESIGN CHOICE (log 6). -/
def ActCfg.unconfigured : ActCfg :=
  { inUse := false, node := 0, channel := 0, kindField := 0, zoneField := 0, min := 0, max := 0, deadband := 0, refresh := 0,
    overrideHold := 0, protectField := 0 }

/-- R106. -/
def SceneHeader.unconfigured : SceneHeader := { cueCount := 0, protect := false }

/-- R107. -/
def Cue.unconfigured : Cue := { target := none, level := 0, fade := 0, delay := 0, guard := none, skip := 0 }

/-- R25. -/
def EvalCfg.unconfigured : EvalCfg :=
  { period := 10, rhOpen := 600, rhNight := 600, krh := 10, mthr := 30, kc := 25, mcrit := 20, protect := false,
    enabled := false }

/-- R46. -/
def HeatCfg.unconfigured : HeatCfg :=
  { openOffset := 20, nightOffset := 0, spMin := 260, spMax := 340, kp := 40, ki := 32 }

/-- R64. -/
def ArbCfg.unconfigured : ArbCfg :=
  { dwell := 300, don := 200, doff := 100, voff := 50, hvent := 300, fIdle := 300, fNight := 150, fHeat := 600, fdMin := 400,
    fdMax := 900, fVent := 700, fPurge := 500, dMin := 100, dPurge := 300 }

/-- R83. -/
def CoverCfg.unconfigured : CoverCfg :=
  { prep := 60, motion := 240, detect := 60, settle := 30, waitA := 30, runB := 20, fanLevel := 600, openScene := none,
    coverWorkScene := none, nightScene := none }

def ZoneCfg.unconfigured : ZoneCfg :=
  { eval := .unconfigured, heat := .unconfigured, arb := .unconfigured, cover := .unconfigured }

/-- The reference saturation values, −20 °C to +60 °C in steps of 5 K (R28). -/
def referenceSaturation : Vector Nat 17 :=
  #v[103, 165, 260, 401, 611, 872, 1228, 1705, 2339, 3169, 4246, 5628, 7384, 9593, 12352, 15763, 19946]

/-- A filter entry of an unconfigured part: not in use (R154). The other fields: DESIGN CHOICE (log 6). -/
def FilterEntry.unconfigured : FilterEntry := { inUse := false, lo := 0, hi := 0, dirField := 0, actionField := 0 }

/-- R176. -/
def AccOptions.unconfigured : AccOptions := { enabled := true, captureOnOverflow := false, freezeOnOverflow := false }

/-- R133, R154, R168, R176. -/
def PartRecord.unconfigured : PartRecord :=
  { own := 254, supervisor := 255, ackTimeout := 500, priority := { heat := 1, air := 2, cover := 0, light := 3 },
    maxWait := { heat := 4, air := 4, cover := 2, light := 8 }, filterDefault := .pass, run := true,
    accOptions := .replicate 4 (.replicate 6 .unconfigured), captureMode := .wrap, captureThreshold := 32,
    ringFreeze := false }

/-- R184. -/
def Watch.unconfigured : Watch :=
  { armed := false, target := .point 0, on := .either, condition := none, action := .notice }

/-- The configuration of a part whose image is blank or has failed its check (R189 step 1). -/
def ConfigData.unconfigured : ConfigData :=
  { points := .replicate 128 .unconfigured, acts := .replicate 96 .unconfigured, groups := .replicate 16 [],
    headers := .replicate 32 .unconfigured, cues := .replicate 32 (.replicate 16 .unconfigured),
    zones := .replicate 4 .unconfigured, saturation := referenceSaturation, filter := .replicate 16 .unconfigured,
    part := .unconfigured, watches := .replicate 4 .unconfigured }

/-! ### Runtime after a reset -/

/-- R2. -/
def PointRt.reset : PointRt :=
  { state := .never, value := none, contact := none, candidate := none, run := 0, lastArrival := none,
    staleTimer := .stopped }

/-- R128. -/
def ActRt.reset : ActRt :=
  { control := .enabled, dispatch := .idle, requested := none, needsSend := false, refreshOnly := false,
    inFlightValue := none, inFlightTag := none, confirmed := none, rangeRefused := none, health := .ok, timeouts := 0,
    refreshTimer := .stopped, retryTimer := .stopped, overrideTimer := .stopped }

def Aggregate.reset : Aggregate := { last := none, held := false }

/-- R26: the timer runs with the full period if the zone is enabled, and is stopped otherwise. -/
def EvalRt.reset (c : EvalCfg) : EvalRt :=
  { ta := .reset, rh := .reset, tw := .reset, tg := .reset, tout := .reset, tc := none, psat := none, pv := none, td := none,
    margin := none, heldMargin := false, dRh := 0, dCond := 0, d := 0, crit := false, noAirData := false, tClamp := false,
    dewLow := false, timer := if c.enabled then .running (c.period * 1000) else .stopped, lastTime := none,
    startedPeriod := c.period }

/-- R48. -/
def HeatRt.reset : HeatRt := { spa := none, heldSetpoint := false, e := none, h := 0, i := 0, integLimit := false }

/-- R66. -/
def ArbRt.reset : ArbRt :=
  { granted := .idle, grantTime := none, dwell := .stopped, chosen := none, pending := none, ventAvailable := false,
    lastCause := none, lastDecision := none }

/-- R85: DETECT with its timer running in an enabled zone, otherwise DISABLED. -/
def CoverRt.reset (c : ZoneCfg) : CoverRt :=
  { state := if c.eval.enabled then .detect else .disabled, reason := none, drives := [],
    detectTimer := if c.eval.enabled then .running (c.cover.detect * 1000) else .stopped,
    prepTimer := .stopped, motionTimer := .stopped, settleTimer := .stopped, lightingReady := false,
    workSceneTaken := false }

/-- R98. -/
def PurgeRt.reset : PurgeRt :=
  { state := .inactive, remainingWait := 0, remainingRun := 0, runCounted := 0, runStart := none }

/-- R110. -/
def SceneRt.reset : SceneRt :=
  { state := .idle, scene := none, origin := none, takeTime := none, cues := [], touched := [], stepTimer := .stopped,
    coverWork := false, degraded := none }

/-- A zone's runtime after power-on and RESTART (R26, R48, R66, R85, R98, R110, R178, R186). -/
def ZoneRt.reset (c : ZoneCfg) : ZoneRt :=
  { eval := .reset c.eval, heat := .reset, arb := .reset, cover := .reset c, purge := .reset, scene := .reset,
    arming := none, held := false, holdCause := none }

/-- R149. -/
def Dispatcher.reset : Dispatcher :=
  { queues := { heat := [], air := [], cover := [], light := [] },
    waitCounts := { heat := 0, air := 0, cover := 0, light := 0 }, lastWinner := .light, lastTag := 15, outstanding := [] }

/-- R161: at power-on the trunk line-active flag is clear; at RESTART it keeps its value. -/
def Lines.reset (trunkActive : Bool) : Lines :=
  { hallActive := false, trunkActive := trunkActive, hallErrors := 0, trunkErrors := 0, ht := { items := [], discards := 0 },
    th := { items := [], discards := 0 }, hallTx := .free, trunkTx := .free, hallLast := .forward, forwardWait := 0,
    announcePending := true }

def PartFlags.clear : PartFlags :=
  { protectFault := false, foreignBlocked := false, noticeLost := false, requestOverrun := false, txLost := false,
    captureFull := false }

/-- R175. -/
def Management.reset : Management :=
  { trunkRequests := [], serviceRequests := [], replies := [], notices := [], trunkStaging := none, serviceStaging := none,
    flags := .clear, localMode := false, idleTimer := .stopped, lastServed := .service, serviceErrors := 0,
    restartPending := false, commit := none }

/-- R176, R180, R181, R182, R183. -/
def Accounting.reset : Accounting :=
  { accs := .replicate 4 (.replicate 6 { value := 0, overflowed := false }), captures := [], thresholdArmed := true,
    trunkReadOut := [], serviceReadOut := [], ring := [], frozen := false }

end Sys2Proof.Machine
end

