-- ==== Sys2Proof/Machine/State.lean ====
section
/-! DEFINITION. The state of the part: its configuration, every block's runtime, the image store, the clock, and the queue of
commands that are waiting. -/

namespace Sys2Proof.Machine

/-- The state of the part as plain data. -/
structure State where
  /-- every configuration field (R187) -/
  cfg : ConfigData
  /-- runtime of the point table (R2) -/
  points : Vector PointRt 128
  /-- runtime of the actuator table (R128) -/
  acts : Vector ActRt 96
  /-- runtime of the zone records -/
  zones : Vector ZoneRt 4
  /-- the command dispatcher (07) -/
  disp : Dispatcher
  /-- the line blocks (08) -/
  lines : Lines
  /-- the management unit (09) -/
  mgmt : Management
  /-- the accounting blocks (10) -/
  acct : Accounting
  /-- the non-volatile image (R187) -/
  image : Image
  /-- the image state found at the last load (R187) -/
  imageState : ImageState
  /-- whether the part runs on a loaded image (R150, R189) -/
  configured : Bool
  /-- seconds since the last reset (section 0.7) -/
  now : Stamp
  /-- milliseconds of the present second (log 2) -/
  millis : Nat
  /-- the commands that are waiting, first in, first out (the model's own field, log 1) -/
  pending : List Instr
  deriving DecidableEq, Repr

/-- The part stops with no fault: the type has no constructor, so no meaning can answer with one. Cover FAULT, point FAULT and
refused requests are ordinary states and replies of the part (R94, R2, R165). -/
inductive Fault where
  deriving DecidableEq, Repr

/-- Reasons for which a command has no meaning. -/
inductive Refusal where
  /-- raised by exec's arm of a row of the opcode table that has no meaning yet; safe: the model stops where the part goes on -/
  | notModelled (mnemonic : String)
  deriving DecidableEq, Repr

/-- The part right after power-on with an image that was never written (R187 to R189; the image's own contents are no matter of
reset: DESIGN CHOICE, log 5). -/
def State.reset : State :=
  { cfg := .unconfigured, points := .replicate 128 .reset, acts := .replicate 96 .reset,
    zones := .replicate 4 (.reset .unconfigured), disp := .reset, lines := .reset false, mgmt := .reset, acct := .reset,
    image := .blank, imageState := .blank, configured := false, now := 0, millis := 0, pending := [] }

end Sys2Proof.Machine
end

