-- ==== Sys2Proof/Machine/Clock.lean ====
section
/-! DEFINITION. The clock: what one millisecond does to every timer of the part (log 2). -/

namespace Sys2Proof.Machine

/-- A running timer counts down to 0 and then waits for its expiry to be taken; stopped and paused timers stand. -/
def Timer.tick : Timer → Timer
  | .running ms => .running (ms - 1)
  | .stopped => .stopped
  | .paused ms => .paused ms

/-- The stale timer of a point (R17). -/
def PointRt.tick (p : PointRt) : PointRt := { p with staleTimer := p.staleTimer.tick }

/-- The refresh, retry and override hold timers of an actuator (R132, R141, R145). -/
def ActRt.tick (a : ActRt) : ActRt :=
  { a with refreshTimer := a.refreshTimer.tick, retryTimer := a.retryTimer.tick, overrideTimer := a.overrideTimer.tick }

/-- The acknowledgement timer of a command; it runs whatever its zone does (R136). -/
def Outstanding.tick (o : Outstanding) : Outstanding :=
  match o.phase with
  | .sending => o
  | .awaitingAck t => { o with phase := .awaitingAck t.tick }

/-- The cover sequencer's four timers (R85); a hold has paused those that it pauses (R95). -/
def CoverRt.tick (c : CoverRt) : CoverRt :=
  { c with
    detectTimer := c.detectTimer.tick, prepTimer := c.prepTimer.tick, motionTimer := c.motionTimer.tick
    settleTimer := c.settleTimer.tick }

/-- The purge timer: the wait timer in PURGE_WAIT, the run timer in PURGE_RUN with the time it counts (R98). -/
def PurgeRt.tick (p : PurgeRt) : PurgeRt :=
  match p.state with
  | .wait => { p with remainingWait := p.remainingWait - 1 }
  | .run => if p.remainingRun = 0 then p else { p with remainingRun := p.remainingRun - 1, runCounted := p.runCounted + 1 }
  | .inactive | .request | .suspended => p

/-- The delay of a pending cue (R115). -/
def CueRun.tick (c : CueRun) : CueRun :=
  match c.status with
  | .pending ms => { c with status := .pending (ms - 1) }
  | .withheld | .started => c

/-- The scene engine's delay timers and step timer in a zone that is not held (R115, R117). -/
def SceneRt.tick (e : SceneRt) : SceneRt := { e with cues := e.cues.map CueRun.tick, stepTimer := e.stepTimer.tick }

/-- A zone's timers. The purge timer and the scene engine pause while the zone is held (R103, R122); the evaluation and dwell
timers run on (R30, R70). -/
def ZoneRt.tick (z : ZoneRt) : ZoneRt :=
  { z with
    eval := { z.eval with timer := z.eval.timer.tick }
    arb := { z.arb with dwell := z.arb.dwell.tick }
    cover := z.cover.tick
    purge := if z.held then z.purge else z.purge.tick
    scene := if z.held then z.scene else z.scene.tick }

/-- One millisecond: every running timer counts down, and the time stamp advances with the second (section 0.7; log 2, log 24). -/
def clockTick (s : State) : State :=
  { s with
    points := s.points.map PointRt.tick
    acts := s.acts.map ActRt.tick
    zones := s.zones.map ZoneRt.tick
    disp := { s.disp with outstanding := s.disp.outstanding.map Outstanding.tick }
    mgmt := { s.mgmt with idleTimer := s.mgmt.idleTimer.tick }
    now := if s.millis = 999 then s.now + 1 else s.now
    millis := if s.millis = 999 then 0 else s.millis + 1 }

end Sys2Proof.Machine
end

