-- ==== Sys2Proof/Config.lean ====
section
/-! DEFINITION. What an implementation fixes and the spec does not: the free values of the model. -/

namespace Sys2Proof

/-- Whether an unfinished unit of a running timer counts in the remaining time that a read returns: of a timer whose unit is
`unit` milliseconds and which has `remaining` milliseconds left. The spec gives the unit in which the remaining time is
returned (R166) and timers that start between two whole seconds (the worked sequence of R141 shows 22.1 s left); it does not
say which whole number such a time is shown as. Free value (log 3). -/
opaque Config.partUnitShown : (unit remaining : Nat) → Bool

/-- The value of a command that is dispatched while its actuator has no requested value, before the actuator's limits are applied.
A REFUSED_HAND sets needs-send whatever is requested (R138), so that an actuator whose zone was disabled and enabled during its
flight joins its queue without a requested value (R130, R148); the spec does not state the value then sent. A cover drive is sent
STOP (R90); for every other kind it is a free value (log 33), applied to the actuator's index and the time, in seconds and milliseconds. -/
opaque Config.unrequestedValue : (actuator second millisecond : Nat) → Int

end Sys2Proof
end

