-- ==== Sys2Proof/Machine/Operands.lean ====
section
/-! DEFINITION. The operand forms: how fields are carried as bytes (R166, R170), the orders that number named values, the
telegram with its check (R150), and the reading of a received unit (R151). -/

namespace Sys2Proof.Machine

/-! ### Fields as bytes (R166, R170) -/

/-- A number: 2 bytes, high byte first; negative numbers in two's complement (R150, R166). -/
def numField (x : Int) : List Byte :=
  [(BitVec.ofInt 16 x).extractLsb' 8 8, (BitVec.ofInt 16 x).extractLsb' 0 8]

/-- A 32-bit value: 4 bytes, high byte first (R166). -/
def wordField (w : BitVec 32) : List Byte :=
  [w.extractLsb' 24 8, w.extractLsb' 16 8, w.extractLsb' 8 8, w.extractLsb' 0 8]

/-- A one-byte field: an index, a zone, a count, a segment number (R170). -/
def byteField (n : Nat) : List Byte := [BitVec.ofNat 8 n]

/-- A named value: its place, from 0, in the order the owning rule lists the values (R166). -/
def named {α : Type} [DecidableEq α] (order : List α) (x : α) : List Byte := byteField (order.idxOf x)

/-- Yes/no: 1 for yes, 0 for no (R166). -/
def yesNo (b : Bool) : List Byte := byteField b.toNat

/-- An indicator whose rule lists the values "set, clear": a named value (R166, log 8). -/
def setClear (b : Bool) : List Byte := named [true, false] b

/-- An optional field: a presence byte, then the value if present (R166). -/
def optField {α : Type} (f : α → List Byte) : Option α → List Byte
  | none => byteField 0
  | some x => byteField 1 ++ f x

/-- A list: a count byte, then the items (R166). -/
def listField {α : Type} (f : α → List Byte) (l : List α) : List Byte := byteField l.length ++ l.flatMap f

/-- A variant field: its selector, then the fields of the form (R166). -/
def variant (selector : Nat) (fields : List Byte) : List Byte := byteField selector ++ fields

/-- A set of flags: one byte, bit i for the i-th flag (R170). -/
def flagSet (flags : List Bool) : Byte := flags.foldr (fun b acc => (acc <<< 1) ||| BitVec.ofNat 8 b.toNat) 0

/-- Whether a mask byte names the flag of place `i` (R170). -/
def maskNames (mask : Byte) (i : Nat) : Bool := mask.getLsbD i

/-- Milliseconds in the units in which a timer's rule counts. -/
def perSecond : Nat := 1000

/-- The remaining time that a read returns, in units of `unit` milliseconds; an unfinished unit is a free value (log 3). -/
def shownUnits (unit remaining : Nat) : Nat :=
  remaining / unit + (if remaining % unit = 0 then 0 else (Config.partUnitShown unit remaining).toNat)

def Timer.form : Timer → TimerForm
  | .stopped => .stopped
  | .running _ => .running
  | .paused _ => .paused

/-- A timer: its state's place in the order the owning rule lists the states, then the remaining time of a state that has one
as a 32-bit value in the timer's own unit (R166). -/
def timerField (order : List TimerForm) (unit : Nat) (t : Timer) : List Byte :=
  match t with
  | .stopped => named order t.form
  | .running ms => named order t.form ++ wordField (BitVec.ofNat 32 (shownUnits unit ms))
  | .paused ms => named order t.form ++ wordField (BitVec.ofNat 32 (shownUnits unit ms))

/-- Timers listed "stopped, or running" (R2, R128). -/
def stoppedRunning : List TimerForm := [.stopped, .running]

/-- Timers listed "running, or stopped" (R26) and "running, or satisfied" (R66). -/
def runningStopped : List TimerForm := [.running, .stopped]

/-- Timers listed "stopped, running, or paused" (R85, R110). -/
def stoppedRunningPaused : List TimerForm := [.stopped, .running, .paused]

/-! ### Segments (R166, R170) -/

/-- The number of 25-byte segments of a sequence; an empty one has one segment. -/
def segmentCount (bytes : List Byte) : Nat := max 1 ((bytes.length + 24) / 25)

/-- Up to 25 bytes of a sequence, starting at 25 times the segment number (R166). -/
def segmentOf (bytes : List Byte) (segment : Nat) : List Byte := (bytes.drop (25 * segment)).take 25

/-- The results of a segmented reading: segment number, number of segments, the bytes (R166, R170, log 9); none where the
segment number is at or beyond the number of segments. -/
def segmented (bytes : List Byte) (segment : Nat) : Option (List Byte) :=
  if segment < segmentCount bytes then
    some (byteField segment ++ byteField (segmentCount bytes) ++ segmentOf bytes segment)
  else none

/-! ### Reading fields back -/

/-- A reader of fields: takes bytes from the front of a sequence, or fails. -/
abbrev Reader (α : Type) := StateT (List Byte) Option α

def readByte : Reader Byte := fun l =>
  match l with
  | [] => none
  | b :: rest => some (b, rest)

/-- A one-byte field as a number. -/
def readCode : Reader Nat := do
  let b ← readByte
  return b.toNat

/-- An unsigned number. -/
def readNat : Reader Nat := do
  let hi ← readByte
  let lo ← readByte
  return hi.toNat * 256 + lo.toNat

/-- A signed number. -/
def readInt : Reader Int := do
  let hi ← readByte
  let lo ← readByte
  return (hi ++ lo).toInt

/-- A 32-bit value. -/
def readWord : Reader (BitVec 32) := do
  let a ← readByte
  let b ← readByte
  let c ← readByte
  let d ← readByte
  return a ++ b ++ c ++ d

/-- An optional field; a presence byte other than 0 or 1 makes the sequence unreadable (log 14). -/
def readOpt {α : Type} (r : Reader α) : Reader (Option α) := do
  let present ← readCode
  if present = 0 then return none
  else if present = 1 then
    let x ← r
    return some x
  else failure

/-- `n` items one after another. -/
def readMany {α : Type} (r : Reader α) : Nat → Reader (List α)
  | 0 => return []
  | n + 1 => do
    let x ← r
    let rest ← readMany r n
    return x :: rest

/-- A list: a count byte, then that many items. -/
def readList {α : Type} (r : Reader α) : Reader (List α) := do
  let n ← readCode
  readMany r n

/-- Reads a whole sequence: neither too few nor too many bytes (R167). -/
def readAll {α : Type} (r : Reader α) (bytes : List Byte) : Option α :=
  match r bytes with
  | some (x, []) => some x
  | _ => none

/-- The value that a code names, none where the code is outside the rule's list. -/
def ofCode {α : Type} (order : List α) (code : Nat) : Option α := order[code]?

/-- An index within its table. -/
def asIndex (n code : Nat) : Option (Fin n) := if h : code < n then some ⟨code, h⟩ else none

/-! ### The orders that number named values -/

def yesNoOrder : List Bool := [false, true]
def lineOrder : List Line := [.hall, .trunk]
/-- R171: "held or released". -/
def localModeOrder : List Bool := [true, false]
/-- R1. -/
def pointKindOrder : List PointKind :=
  [.airTemp, .airRh, .waterTemp, .glazingTemp, .outdoorTemp, .coverClosed, .coverOpen, .general]
/-- R2. -/
def pointStateOrder : List PointState := [.never, .fresh, .stale, .fault]
/-- R126. -/
def actKindOrder : List ActKind :=
  [.heatValve, .ahuMode, .supplyFan, .oaDamper, .coverDrive, .purgeFan, .dimmer, .plain]
/-- R128. -/
def controlOrder : List Control := [.enabled, .disabling, .disabled, .overridden]
def dispatchOrder : List DispatchState := [.idle, .queued, .inFlight]
def healthOrder : List Health := [.ok, .unresponsive, .hand]
/-- R107. -/
def climateOrder : List Climate := [.openHall, .night]
/-- R63. -/
def modeOrder : List Mode := [.idle, .heat, .dry, .vent, .purge]
/-- R66. -/
def pendingOrder : List Pending := [.dwell, .hold]
/-- R73. -/
def modeCauseOrder : List ModeCause := [.zoneDisabled, .purgeEnd, .crit, .purge, .dryDemand, .heatDemand, .noDemand]
/-- R85. -/
def coverStateOrder : List CoverState :=
  [.disabled, .detect, .openIdle, .prepClose, .deploying, .settle, .covered, .prepOpen, .retracting, .fault]
def faultReasonOrder : List FaultReason := [.unknownPosition, .lighting, .timeout, .contactLost, .drive, .coverMoved]
/-- R86; "the fault reason" stands for the six reasons in the order of R85 (log 11). -/
def coverCauseOrder : List CoverCause :=
  [.zoneEnabled, .cleared, .positionFound, .command, .lightingReady, .forced, .endReached, .settled,
    .fault .unknownPosition, .fault .lighting, .fault .timeout, .fault .contactLost, .fault .drive, .fault .coverMoved,
    .zoneDisabled]
/-- R98. -/
def purgeStateOrder : List PurgeState := [.inactive, .wait, .request, .run, .suspended]
/-- R110. -/
def sceneStateOrder : List SceneState := [.idle, .running, .settling, .complete, .completeDegraded]
def takeOriginOrder : List TakeOrigin := [.request, .coverWork, .openScene, .nightScene]
/-- R154. -/
def filterDirOrder : List FilterDir := [.ht, .th, .both]
def filterActionOrder : List FilterAction := [.pass, .block]
/-- R176: "on, off" and "WRAP, STOP". -/
def runOrder : List Bool := [true, false]
def captureModeOrder : List CaptureMode := [.wrap, .stop]
/-- R184. -/
def watchOnOrder : List WatchOn := [.arrival, .dispatch, .either]
def watchActionOrder : List WatchAction := [.notice, .capture, .holdZone]
/-- R134. -/
def jobOrder : List Job := [.heat, .air, .cover, .light]
def channelOrder : List Channel := [.trunk, .service]

/-! ### Fields that an entry holds as the byte written (R4, R127, R154) -/

/-- The line of a point entry, none for a byte that names no line (R1). -/
def PointCfg.line (c : PointCfg) : Option Line := ofCode lineOrder c.lineField.toNat

/-- The kind of a point entry. A byte that names no kind, which an entry in use cannot hold, is read as the kind that belongs to no
aggregate (R1, R4). -/
def PointCfg.kind (c : PointCfg) : PointKind := (ofCode pointKindOrder c.kindField.toNat).getD .general

/-- Whether a POINT_STALE notice is asked for (R1). -/
def PointCfg.notifyStale (c : PointCfg) : Bool := c.notifyField == 1

/-- Whether a point entry carries the protect mark (R1). -/
def PointCfg.protect (c : PointCfg) : Bool := c.protectField == 1

/-- The kind of an actuator entry. A byte that names no kind, which an entry in use cannot hold, is read as the kind that no block
requests (R126, R127). -/
def ActCfg.kind (c : ActCfg) : ActKind := (ofCode actKindOrder c.kindField.toNat).getD .plain

/-- Whether an actuator entry carries the protect mark (R126). -/
def ActCfg.protect (c : ActCfg) : Bool := c.protectField == 1

/-- The direction of a filter entry, none for a byte that names none (R154). -/
def FilterEntry.dir (f : FilterEntry) : Option FilterDir := ofCode filterDirOrder f.dirField.toNat

/-- The action of a filter entry. A byte that names none, which an entry in use cannot hold, passes nothing (R154). -/
def FilterEntry.action (f : FilterEntry) : FilterAction := (ofCode filterActionOrder f.actionField.toNat).getD .block

/-- A mark's byte (R166). -/
def markByte (b : Bool) : Byte := BitVec.ofNat 8 b.toNat

/-- Reply statuses by code (R150). -/
def statusOrder : List Status :=
  [.done, .unknownRequest, .badIndex, .badValue, .protectedEntry, .reserved, .busy, .inUse, .interlocked, .wrongState,
    .unconfigured]

/-- Notice kinds by code, which count from 1 (R150). -/
def noticeOrder : List NoticeKind :=
  [.pointStale, .condensation, .coverState, .coverFault, .actuatorUnresponsive, .actuatorHand, .actuatorRange,
    .actuatorRecovered, .accOverflow, .captureThreshold, .watchMatch, .localReleased, .commitDone]

def NoticeKind.code (k : NoticeKind) : Nat := noticeOrder.idxOf k + 1

/-- A point's zone: 0..3, or 255 for ALL (R18, R170, log 7). -/
def PointZone.byte : PointZone → Byte
  | .zone z => BitVec.ofNat 8 z.val
  | .all => 255
  | .unlisted n => BitVec.ofNat 8 (4 + n.val)

/-- Every byte is read as it stands; which zones an entry in use may name is judged with the entry (R4). -/
def PointZone.ofCode (code : Nat) : PointZone :=
  match asIndex 4 code, asIndex 251 (code - 4) with
  | some z, _ => .zone z
  | none, some n => .unlisted n
  | none, none => .all

/-! ### The telegram (R150) -/

/-- One bit of the 16-bit check: generator x^16 + x^12 + x^5 + 1, most significant bit first (R150). -/
def crc16Bit (r : BitVec 16) : BitVec 16 := if r.msb then (r <<< 1) ^^^ 0x1021#16 else r <<< 1

/-- One byte of the 16-bit check. -/
def crc16Byte (r : BitVec 16) (b : Byte) : BitVec 16 :=
  Nat.repeat crc16Bit 8 (r ^^^ (b.setWidth 16 <<< 8))

/-- The 16-bit check: the register starts at all ones and is sent as it stands (R150). -/
def crc16 (bytes : List Byte) : BitVec 16 := bytes.foldl crc16Byte 0xFFFF#16

/-- The two check bytes, high byte first. -/
def checkBytes (bytes : List Byte) : List Byte := [(crc16 bytes).extractLsb' 8 8, (crc16 bytes).extractLsb' 0 8]

/-- Kind codes (R150). -/
def kindReading : BitVec 4 := 1
def kindCommand : BitVec 4 := 2
def kindAck : BitVec 4 := 3
def kindRequest : BitVec 4 := 4
def kindReply : BitVec 4 := 5
def kindNotice : BitVec 4 := 6
def kindAnnounce : BitVec 4 := 7

/-- Header and payload of a telegram: bytes 0 to 3+L (R150). -/
def Telegram.body (t : Telegram) : List Byte :=
  [t.dest, t.src, t.kind ++ t.tag, BitVec.ofNat 8 t.payload.length] ++ t.payload

/-- The whole telegram as it is sent (R150). -/
def Telegram.bytes (t : Telegram) : List Byte := t.body ++ checkBytes t.body

/-- The telegram that a sequence of bytes forms, by the length and check tests of R151. -/
def Telegram.ofBytes (bytes : List Byte) : Option Telegram :=
  match bytes with
  | dest :: src :: kindTag :: len :: rest =>
    if len.toNat ≤ 32 ∧ rest.length = len.toNat + 2 ∧
        rest.drop len.toNat = checkBytes (dest :: src :: kindTag :: len :: rest.take len.toNat) then
      some { dest := dest, src := src, kind := kindTag.extractLsb' 4 4, tag := kindTag.extractLsb' 0 4,
             payload := rest.take len.toNat }
    else none
  | _ => none

/-- The telegram of a received unit, none where the unit is discarded (R151). The service port does not judge the destination
address (R162). -/
def judgeUnit (judgeDest : Bool) (heard : List RxByte) : Option Telegram :=
  if heard.all RxByte.stop then
    match Telegram.ofBytes (heard.map RxByte.value) with
    | some t => if judgeDest ∧ t.dest = 0 then none else some t
    | none => none
  else none

/-- How an attempt stands after the bytes read back so far (R156). -/
inductive AttemptEnd where
  | ongoing | sent | disturbed
  deriving DecidableEq, Repr

/-- Compares each byte read back with the byte sent (R156). -/
def compareReadBack : (sent : List Byte) → (readBack : List RxByte) → AttemptEnd
  | [], _ => .sent
  | _ :: _, [] => .ongoing
  | b :: sent, r :: readBack => if r.value = b ∧ r.stop then compareReadBack sent readBack else .disturbed

/-- One item of a READING payload (R150). -/
structure ReadingItem where
  channel : Byte
  quality : Byte
  value : Int
  deriving DecidableEq, Repr

/-- The items of a READING payload of 4, 8, 12 or 16 bytes, in payload order; none of any other length (R8, R9). -/
def readingItems : List Byte → List ReadingItem
  | ch :: q :: hi :: lo :: rest => { channel := ch, quality := q, value := (hi ++ lo).toInt } :: readingItems rest
  | _ => []

/-- Whether a READING payload has one of the lengths that are inspected (R8). -/
def readingLength (payload : List Byte) : Bool :=
  payload.length == 4 || payload.length == 8 || payload.length == 12 || payload.length == 16

/-- A payload of channel, class or status, and value: COMMAND and ACK (R150). -/
structure ChannelPayload where
  channel : Byte
  code : Byte
  value : Int
  deriving DecidableEq, Repr

/-- A COMMAND or ACK payload of 4 bytes (R137, R143). -/
def channelPayload : List Byte → Option ChannelPayload
  | [ch, code, hi, lo] => some { channel := ch, code := code, value := (hi ++ lo).toInt }
  | _ => none

/-! ### The image's check (R187) -/

/-- One bit of the 32-bit check, reflected: the generator of R187 with its terms from x^31 down to 1 read from the least
significant bit. -/
def crc32Bit (r : BitVec 32) : BitVec 32 := if r.getLsbD 0 then (r >>> 1) ^^^ 0xEDB88320#32 else r >>> 1

/-- One byte, least significant bit first. -/
def crc32Byte (r : BitVec 32) (b : Byte) : BitVec 32 := Nat.repeat crc32Bit 8 (r ^^^ b.setWidth 32)

/-- The 32-bit check: the register starts at all ones and is inverted at the end (R187). -/
def crc32 (bytes : List Byte) : BitVec 32 := ~~~ (bytes.foldl crc32Byte 0xFFFFFFFF#32)

/-! ### Integers (section 0.7) -/

/-- Clamp x to [a, b]. -/
def clamp (x a b : Int) : Int := if x < a then a else if b < x then b else x

/-- Every index of a table of `n` entries, in ascending order. -/
def indices (n : Nat) : List (Fin n) := List.finRange n

end Sys2Proof.Machine
end

