-- ==== Sys2Proof/Machine/Flags.lean ====
section
/-! DEFINITION. The sticky flags and indicators: the part flags (R174), the zone flags and indicators (R43), how each is set,
read and cleared. -/

namespace Sys2Proof.Machine

def State.updMgmt (s : State) (f : Management → Management) : State := { s with mgmt := f s.mgmt }

/-! ### Part flags (R174) -/

def State.setProtectFault (s : State) : State :=
  s.updMgmt fun m => { m with flags := { m.flags with protectFault := true } }

def State.setForeignBlocked (s : State) : State :=
  s.updMgmt fun m => { m with flags := { m.flags with foreignBlocked := true } }

def State.setNoticeLost (s : State) : State :=
  s.updMgmt fun m => { m with flags := { m.flags with noticeLost := true } }

def State.setRequestOverrun (s : State) : State :=
  s.updMgmt fun m => { m with flags := { m.flags with requestOverrun := true } }

def State.setTxLost (s : State) : State :=
  s.updMgmt fun m => { m with flags := { m.flags with txLost := true } }

def State.setCaptureFull (s : State) : State :=
  s.updMgmt fun m => { m with flags := { m.flags with captureFull := true } }

/-- The six part flags as one byte, bit i for the i-th flag of R174 (R170). -/
def PartFlags.byte (f : PartFlags) : Byte :=
  flagSet [f.protectFault, f.foreignBlocked, f.noticeLost, f.requestOverrun, f.txLost, f.captureFull]

/-- Clears the flags that the mask names; the other mask bits are left unused (R174). -/
def PartFlags.clearMasked (f : PartFlags) (mask : Byte) : PartFlags :=
  { protectFault := f.protectFault && !maskNames mask 0
    foreignBlocked := f.foreignBlocked && !maskNames mask 1
    noticeLost := f.noticeLost && !maskNames mask 2
    requestOverrun := f.requestOverrun && !maskNames mask 3
    txLost := f.txLost && !maskNames mask 4
    captureFull := f.captureFull && !maskNames mask 5 }

/-! ### Zone flags and indicators (R43) -/

/-- The sticky flags T_CLAMP, DEW_LOW and INTEG_LIMIT as one byte (R170). -/
def ZoneRt.stickyByte (z : ZoneRt) : Byte := flagSet [z.eval.tClamp, z.eval.dewLow, z.heat.integLimit]

/-- The status indicators NO_AIR_DATA, HELD_MARGIN, HELD_SETPOINT and CRIT as one byte (R43, log 10). -/
def ZoneRt.indicatorByte (z : ZoneRt) : Byte :=
  flagSet [z.eval.noAirData, z.eval.heldMargin, z.heat.heldSetpoint, z.eval.crit]

/-- The held indicators of Ta, RH, Tw, Tg and To as one byte (R43, log 10). -/
def ZoneRt.heldByte (z : ZoneRt) : Byte :=
  flagSet [z.eval.ta.held, z.eval.rh.held, z.eval.tw.held, z.eval.tg.held, z.eval.tout.held]

/-- Clears the zone's sticky flags that the mask names; the indicators stand (R43). -/
def ZoneRt.clearMasked (z : ZoneRt) (mask : Byte) : ZoneRt :=
  { z with
    eval := { z.eval with tClamp := z.eval.tClamp && !maskNames mask 0, dewLow := z.eval.dewLow && !maskNames mask 1 }
    heat := { z.heat with integLimit := z.heat.integLimit && !maskNames mask 2 } }

end Sys2Proof.Machine
end

