-- ==== Sys2Proof/Machine/Ops.lean ====
section
/-! DEFINITION. The named operations over the state that every block shares: reading and updating records, timers, notices, the
decision ring, captures and accumulators. The part has no exceptions: what R165 refuses is answered by a reply. -/

namespace Sys2Proof.Machine

/-! ### Records -/

def State.updZone (s : State) (z : ZoneIx) (f : ZoneRt → ZoneRt) : State := { s with zones := s.zones.set z (f s.zones[z]) }
def State.updPoint (s : State) (p : PointIx) (f : PointRt → PointRt) : State :=
  { s with points := s.points.set p (f s.points[p]) }
def State.updAct (s : State) (a : ActIx) (f : ActRt → ActRt) : State := { s with acts := s.acts.set a (f s.acts[a]) }
def State.updLines (s : State) (f : Lines → Lines) : State := { s with lines := f s.lines }
def State.updDisp (s : State) (f : Dispatcher → Dispatcher) : State := { s with disp := f s.disp }
def State.updAcct (s : State) (f : Accounting → Accounting) : State := { s with acct := f s.acct }
def State.updCfg (s : State) (f : ConfigData → ConfigData) : State := { s with cfg := f s.cfg }
def State.updPart (s : State) (f : PartRecord → PartRecord) : State := s.updCfg fun c => { c with part := f c.part }

def State.updCover (s : State) (z : ZoneIx) (f : CoverRt → CoverRt) : State :=
  s.updZone z fun r => { r with cover := f r.cover }
def State.updPurge (s : State) (z : ZoneIx) (f : PurgeRt → PurgeRt) : State :=
  s.updZone z fun r => { r with purge := f r.purge }
def State.updScene (s : State) (z : ZoneIx) (f : SceneRt → SceneRt) : State :=
  s.updZone z fun r => { r with scene := f r.scene }
def State.updArb (s : State) (z : ZoneIx) (f : ArbRt → ArbRt) : State := s.updZone z fun r => { r with arb := f r.arb }
def State.updEval (s : State) (z : ZoneIx) (f : EvalRt → EvalRt) : State :=
  s.updZone z fun r => { r with eval := f r.eval }
def State.updHeat (s : State) (z : ZoneIx) (f : HeatRt → HeatRt) : State :=
  s.updZone z fun r => { r with heat := f r.heat }

/-- Whether a zone is enabled (R25). -/
def State.enabled (s : State) (z : ZoneIx) : Bool := (s.cfg.zones[z]).eval.enabled

/-- Whether any zone is enabled (R143, R165). -/
def State.anyEnabled (s : State) : Bool := (indices 4).any s.enabled

/-- The part's own address (R168). -/
def State.own (s : State) : Byte := BitVec.ofNat 8 s.cfg.part.own

def PerJob.get {α : Type} (p : PerJob α) : Job → α
  | .heat => p.heat
  | .air => p.air
  | .cover => p.cover
  | .light => p.light

def PerJob.set {α : Type} (p : PerJob α) (j : Job) (x : α) : PerJob α :=
  match j with
  | .heat => { p with heat := x }
  | .air => { p with air := x }
  | .cover => { p with cover := x }
  | .light => { p with light := x }

/-! ### Timers -/

/-- A timer has run out and its expiry may be taken. -/
def Timer.due : Timer → Bool
  | .running 0 => true
  | _ => false

def Timer.isRunning : Timer → Bool
  | .running _ => true
  | _ => false

/-- A timer that starts with so many seconds. -/
def Timer.seconds (n : Nat) : Timer := .running (n * perSecond)

/-- A timer that a hold pauses starts paused in a held zone (R95, R122). -/
def Timer.startHeld (held : Bool) (ms : Nat) : Timer := if held then .paused ms else .running ms

def Timer.pause : Timer → Timer
  | .running ms => .paused ms
  | .stopped => .stopped
  | .paused ms => .paused ms

def Timer.continue : Timer → Timer
  | .paused ms => .running ms
  | .stopped => .stopped
  | .running ms => .running ms

/-! ### Notices (R173) -/

/-- Appends a notice at the tail of the notice queue; with 8 waiting it is dropped and NOTICE_LOST is set (R173). -/
def State.raise (s : State) (kind : NoticeKind) (zone : Byte) (detail : List Byte) : State :=
  if s.mgmt.notices.length < 8 then
    s.updMgmt fun m => { m with notices := m.notices ++ [{ kind := kind, zone := zone, time := s.now, detail := detail }] }
  else s.setNoticeLost

/-- A zone's number as a notice carries it (R150). -/
def zoneByte (z : ZoneIx) : Byte := BitVec.ofNat 8 z.val

/-! ### The decision ring (R183) -/

/-- Appends a record unless the ring is frozen; a full ring loses its oldest record (R183). -/
def State.appendRing (s : State) (z : ZoneIx) (entry : RingEntry) : State :=
  if s.acct.frozen then s
  else s.updAcct fun a =>
    let kept := if a.ring.length < 16 then a.ring else a.ring.drop 1
    { a with ring := kept ++ [{ time := s.now, zone := z, entry := entry }] }

/-! ### Captures (R180, R181) -/

/-- The snapshot of a zone as it stands (R180). -/
def State.captureRecord (s : State) (z : ZoneIx) (reason : CaptureReason) : CaptureRecord :=
  let r := s.zones[z]
  { time := s.now, zone := z, reason := reason, ta := r.eval.ta.last, rh := r.eval.rh.last, tw := r.eval.tw.last,
    tg := r.eval.tg.last, td := r.eval.td, margin := r.eval.margin, h := r.heat.h, d := r.eval.d, i := r.heat.i,
    mode := r.arb.granted, cover := r.cover.state, purge := r.purge.state, scene := r.scene.scene }

/-- The notice of a record whose joining raised the count to the threshold (R181). -/
def State.captureThreshold (s : State) : State :=
  if s.acct.thresholdArmed && s.acct.captures.length == s.cfg.part.captureThreshold then
    (s.updAcct fun a => { a with thresholdArmed := false }).raise .captureThreshold 255
      (byteField s.acct.captures.length ++ named captureModeOrder s.cfg.part.captureMode)
  else s

/-- The record joins the buffer, overwrites the oldest in WRAP, or is dropped with CAPTURE_FULL in STOP (R180). -/
def State.storeCapture (s : State) (rec : CaptureRecord) : State :=
  if s.acct.captures.length < 32 then
    (s.updAcct fun a => { a with captures := a.captures ++ [rec] }).captureThreshold
  else
    match s.cfg.part.captureMode with
    | .wrap => s.updAcct fun a => { a with captures := a.captures.drop 1 ++ [rec] }
    | .stop => s.setCaptureFull

/-- One capture of a zone: the record, and the freezing of the ring whether it was stored or dropped (R180). -/
def State.capture (s : State) (z : ZoneIx) (reason : CaptureReason) : State :=
  let s := s.storeCapture (s.captureRecord z reason)
  if s.cfg.part.ringFreeze then s.updAcct fun a => { a with frozen := true } else s

/-! ### Accumulators (R177, R178) -/

/-- The accumulators by name (R176). -/
def accHeatSum : AccIx := 0
def accDrySum : AccIx := 1
def accMarginLow : AccIx := 2
def accPurgeRun : AccIx := 3
def accTimeouts : AccIx := 4
def accSceneChanges : AccIx := 5

def State.acc (s : State) (z : ZoneIx) (a : AccIx) : Accumulator := (s.acct.accs[z])[a]

def State.setAcc (s : State) (z : ZoneIx) (a : AccIx) (x : Accumulator) : State :=
  s.updAcct fun c => { c with accs := c.accs.set z ((c.accs[z]).set a x) }

/-- What a wrap brings about, in the order of R178. -/
def State.accOverflow (s : State) (z : ZoneIx) (a : AccIx) (value : BitVec 32) : State :=
  let options := (s.cfg.part.accOptions[z])[a]
  let s := s.raise .accOverflow (zoneByte z) (byteField a.val ++ wordField value)
  let s := if options.freezeOnOverflow then s.updPart fun p => { p with run := false } else s
  if options.captureOnOverflow then
    s.updZone z fun r => { r with arming := match r.arming with | some first => some first | none => some a }
  else s

/-- An amount offered to an accumulator is added modulo 2^32 when it is enabled and RUN is on, and lost otherwise (R177). -/
def State.offer (s : State) (z : ZoneIx) (a : AccIx) (amount : Nat) : State :=
  if ((s.cfg.part.accOptions[z])[a]).enabled && s.cfg.part.run then
    let sum := (s.acc z a).value.toNat + amount
    let value := BitVec.ofNat 32 sum
    if sum < 2 ^ 32 then s.setAcc z a { s.acc z a with value := value }
    else (s.setAcc z a { value := value, overflowed := true }).accOverflow z a value
  else s

end Sys2Proof.Machine
end

