-- ==== Sys2Proof/Machine/Actuators.lean ====
section
/-! DEFINITION. The command dispatcher (07): job requests, queues, the job arbiter, tags, the ends of commands, and what an
override, a disable and a zone's hold or disabling do to an actuator. The reports of R139 to the zone blocks are in
Watches.lean. -/

namespace Sys2Proof.Machine

/-- The owner job of a kind (R126). -/
def ActKind.job : ActKind → Option Job
  | .heatValve => some .heat
  | .ahuMode | .supplyFan | .oaDamper => some .air
  | .coverDrive | .purgeFan => some .cover
  | .dimmer => some .light
  | .plain => none

/-- A cover STOP: a cover drive whose requested value is 0 (R130). -/
def State.isCoverStop (s : State) (a : ActIx) : Bool :=
  (s.cfg.acts[a]).kind == .coverDrive && (s.acts[a]).requested == some 0

/-- Whether the actuator's zone lets its send pass: not held, or a cover STOP (R130, R131). -/
def State.dispatchable (s : State) (a : ActIx) : Bool := !(s.zones[(s.cfg.acts[a]).zone]).held || s.isCoverStop a

/-- Eligibility to join a queue (R130). -/
def State.eligible (s : State) (a : ActIx) : Bool :=
  let c := s.cfg.acts[a]
  let r := s.acts[a]
  c.inUse && c.kind.job.isSome && r.needsSend && r.dispatch == .idle && r.control == .enabled && s.enabled c.zone &&
    r.retryTimer == .stopped && s.dispatchable a

/-- An eligible actuator is appended at the tail of its owner job's queue, with dispatch QUEUED (R130). -/
def State.join (s : State) (a : ActIx) : State :=
  match (s.cfg.acts[a]).kind.job with
  | none => s
  | some j =>
    if s.eligible a then
      (s.updDisp fun d => { d with queues := d.queues.set j (d.queues.get j ++ [a]) }).updAct a
        fun r => { r with dispatch := .queued }
    else s

/-- A queued actuator leaves its queue and returns to IDLE (R131). -/
def State.unqueue (s : State) (a : ActIx) : State :=
  match (s.cfg.acts[a]).kind.job with
  | none => s
  | some j =>
    if (s.acts[a]).dispatch == .queued then
      (s.updDisp fun d => { d with queues := d.queues.set j ((d.queues.get j).erase a) }).updAct a
        fun r => { r with dispatch := .idle }
    else s

/-! ### Job requests (R129) -/

/-- The reference of the deadband test: the in-flight value while in flight, otherwise the confirmed value (R129). -/
def ActRt.reference (r : ActRt) : Option Int :=
  match r.dispatch with
  | .inFlight => r.inFlightValue
  | .idle | .queued => r.confirmed

/-- The deadband test: whether a request of `v` sets needs-send (R129). A request equal to the range-refused value, or to the
reference, sets nothing (log 16). -/
def deadbandTest (c : ActCfg) (r : ActRt) (v : Int) : Bool :=
  r.rangeRefused != some v &&
    match r.reference with
    | none => true
    | some x => v != x && decide ((c.deadband : Int) ≤ (v - x).natAbs)

/-- What a job request does to the actuator's record before the queue is examined (R129). -/
def ActRt.request (c : ActCfg) (r : ActRt) (v : Int) : ActRt :=
  let r := { r with requested := some v }
  match r.control with
  | .overridden => r
  | .enabled | .disabling | .disabled =>
    if deadbandTest c r v then { r with needsSend := true, refreshOnly := false } else r

/-- A job request of a zone block for an actuator of its kind and zone (R129). An entry that is no longer in use, of that kind
or of that zone receives no request (R126, section 7.2, log 25). -/
def State.jobRequest (s : State) (kind : ActKind) (z : ZoneIx) (a : ActIx) (v : Int) : State :=
  let c := s.cfg.acts[a]
  if c.inUse && c.kind == kind && c.zone == z then
    (s.updAct a fun r => r.request c (clamp v c.min c.max)).join a
  else s

/-- The same request made of every actuator of a kind and zone, in ascending index. -/
def State.requestAll (s : State) (kind : ActKind) (z : ZoneIx) (v : ActCfg → Int) : State :=
  (indices 96).foldl (fun s a => s.jobRequest kind z a (v s.cfg.acts[a])) s

/-! ### The job arbiter (R134, R135) -/

/-- The dispatchable entries of a job's queue, oldest first. -/
def State.candidates (s : State) (j : Job) : List ActIx := (s.disp.queues.get j).filter s.dispatchable

def State.tagHeld (s : State) (t : Tag) : Bool := s.disp.outstanding.any fun o => o.tag == t

/-- The first free tag after the last tag issued, counting upward and wrapping (R135). -/
def State.nextTag (s : State) : Option Tag :=
  ((indices 16).map fun i => s.disp.lastTag + 1 + i).find? fun t => !s.tagHeld t

/-- The effective priority of a competing job: 7 while every dispatchable entry is refresh-only (R134). -/
def State.effectivePriority (s : State) (j : Job) : Nat :=
  if (s.candidates j).all fun a => (s.acts[a]).refreshOnly then 7 else s.cfg.part.priority.get j

/-- The jobs in cyclic order, counted from the job after the given one (R134). -/
def Job.cycleAfter : Job → List Job
  | .heat => [.air, .cover, .light, .heat]
  | .air => [.cover, .light, .heat, .air]
  | .cover => [.light, .heat, .air, .cover]
  | .light => [.heat, .air, .cover, .light]

def State.competes (s : State) (j : Job) : Bool := !(s.candidates j).isEmpty

def State.atMaxWait (s : State) (j : Job) : Bool := decide (s.cfg.part.maxWait.get j ≤ s.disp.waitCounts.get j)

/-- The winner of an arbitration: among the competing jobs at their max-wait if there is one, otherwise among those of the
numerically lowest effective priority, the first in cyclic order (R134). -/
def State.winner (s : State) : Option Job :=
  let competing := s.disp.lastWinner.cycleAfter.filter s.competes
  match competing.find? s.atMaxWait with
  | some j => some j
  | none => competing.find? fun j => competing.all fun k => decide (s.effectivePriority j ≤ s.effectivePriority k)

/-- The wait counts after an arbitration (R134 step 5). -/
def State.waitCountAfter (s : State) (won j : Job) : Nat :=
  if j = won then 0 else if s.competes j then min 15 (s.disp.waitCounts.get j + 1) else 0

/-- The COMMAND telegram of a dispatch (R135 step 4). -/
def State.commandTelegram (s : State) (a : ActIx) (t : Tag) (v : Int) : Telegram :=
  let c := s.cfg.acts[a]
  { dest := BitVec.ofNat 8 c.node, src := s.own, kind := kindCommand, tag := BitVec.ofNat 4 t.val,
    payload := byteField c.channel ++ byteField 0 ++ numField v }

/-- The dispatch of a candidate with a tag (R135 steps 1 to 4). -/
def State.dispatchWith (s : State) (a : ActIx) (t : Tag) (v : Int) : State :=
  let c := s.cfg.acts[a]
  let entry : Outstanding :=
    { tag := t, act := a, node := BitVec.ofNat 8 c.node, channel := BitVec.ofNat 8 c.channel, value := v, phase := .sending,
      telegram := s.commandTelegram a t v }
  let s := s.unqueue a
  let s := s.updDisp fun d => { d with lastTag := t, outstanding := d.outstanding ++ [entry] }
  s.updAct a fun r =>
    { r with dispatch := .inFlight, inFlightValue := some v, inFlightTag := some t, needsSend := false }

/-! ### The end of a command (R138, R139, R140) -/

/-- The notice of an actuator: its index and the in-flight value (R138). -/
def State.raiseActuator (s : State) (kind : NoticeKind) (a : ActIx) (value : Int) : State :=
  s.raise kind (zoneByte (s.cfg.acts[a]).zone) (byteField a.val ++ numField value)

/-- APPLIED (R138). -/
def State.ackApplied (s : State) (a : ActIx) (value : Int) : State :=
  let recovered := (s.acts[a]).health != .ok
  let c := s.cfg.acts[a]
  let s := s.updAct a fun r =>
    { r with timeouts := 0, confirmed := some value, rangeRefused := none, health := .ok
             refreshTimer := if c.refresh = 0 then r.refreshTimer else .seconds c.refresh }
  if recovered then s.raiseActuator .actuatorRecovered a value else s

/-- REFUSED_HAND (R138): asked again after 60 s. -/
def State.ackRefusedHand (s : State) (a : ActIx) (value : Int) : State :=
  let wasHand := (s.acts[a]).health == .hand
  let s := s.updAct a fun r =>
    { r with timeouts := 0, health := .hand, needsSend := true, retryTimer := .seconds 60 }
  if wasHand then s else s.raiseActuator .actuatorHand a value

/-- REFUSED_RANGE (R138). -/
def State.ackRefusedRange (s : State) (a : ActIx) (value : Int) : State :=
  let recovered := (s.acts[a]).health == .unresponsive
  let s := s.updAct a fun r =>
    { r with timeouts := 0, rangeRefused := some value, refreshTimer := .stopped
             needsSend := if r.requested = some value then false else r.needsSend
             health := if r.health = .unresponsive then .ok else r.health }
  let s := s.raiseActuator .actuatorRange a value
  if recovered then s.raiseActuator .actuatorRecovered a value else s

/-- A command that ends as a timeout (R140 steps 1 to 4). -/
def State.commandTimeout (s : State) (a : ActIx) (value : Int) : State :=
  let wasUnresponsive := (s.acts[a]).health == .unresponsive
  let z := (s.cfg.acts[a]).zone
  let s := s.updAct a fun r => { r with timeouts := min 3 (r.timeouts + 1) }
  let s := s.offer z accTimeouts 1
  let s := s.updAct a fun r => { r with needsSend := r.needsSend || r.requested.isSome }
  if (s.acts[a]).timeouts = 3 then
    let s := s.updAct a fun r => { r with retryTimer := .seconds 30, health := .unresponsive }
    if wasUnresponsive then s else s.raiseActuator .actuatorUnresponsive a value
  else s

/-- The effect of an outcome on the actuator (R138, R140). -/
def State.applyOutcome (s : State) (a : ActIx) (value : Int) : CommandOutcome → State
  | .applied => s.ackApplied a value
  | .refusedHand => s.ackRefusedHand a value
  | .refusedRange => s.ackRefusedRange a value
  | .timeout => s.commandTimeout a value

/-- Steps 1 to 3 of a command's end (R139). -/
def State.freeCommand (s : State) (a : ActIx) (t : Tag) : State :=
  let s := s.updDisp fun d => { d with outstanding := d.outstanding.filter fun o => o.tag != t }
  let s := s.updAct a fun r =>
    { r with inFlightValue := none, inFlightTag := none, refreshOnly := false, dispatch := .idle
             control := if r.control = .disabling then .disabled else r.control }
  s.join a

/-- The entry of the outstanding table that holds a tag. -/
def State.outstandingOf (s : State) (t : Tag) : Option Outstanding := s.disp.outstanding.find? fun o => o.tag == t

/-- The matching of an acknowledgement (R137). -/
def Outstanding.isAckedBy (o : Outstanding) (tg : Telegram) (p : ChannelPayload) : Bool :=
  tg.tag == BitVec.ofNat 4 o.tag.val &&
    (match o.phase with | .awaitingAck _ => true | .sending => false) &&
    tg.src == o.node && p.channel == o.channel && p.value == o.value

/-- The outcome a status byte stands for (R137). -/
def ackOutcome (status : Byte) : Option CommandOutcome :=
  if status = 0 then some .applied
  else if status = 1 then some .refusedHand
  else if status = 2 then some .refusedRange
  else none

/-! ### Overrides and control (R144 to R146) -/

/-- The record of an actuator whose override ends: ENABLED, confirmed value absent, needs-send if a value is requested (R145).
In a disabled zone nothing is sent. -/
def ActRt.endOverride (r : ActRt) : ActRt :=
  { r with control := .enabled, confirmed := none, overrideTimer := .stopped, needsSend := r.needsSend || r.requested.isSome }

/-- An override takes effect (R144): whether it changed the control. -/
def State.overrideEffect (s : State) (a : ActIx) : State × Bool :=
  let start := Timer.seconds ((s.cfg.acts[a]).overrideHold * 60)
  match (s.acts[a]).control with
  | .enabled =>
    ((s.unqueue a).updAct a fun r => { r with control := .overridden, overrideTimer := start }, true)
  | .overridden => (s.updAct a fun r => { r with overrideTimer := start }, false)
  | .disabled | .disabling => (s, false)

/-- DISABLE of an actuator (R146): whether it changed the control. -/
def State.disableActuator (s : State) (a : ActIx) : State × Bool :=
  let stop := fun (r : ActRt) =>
    { r with control := if r.dispatch = .inFlight then .disabling else .disabled, refreshTimer := .stopped
             retryTimer := .stopped, overrideTimer := .stopped }
  match (s.acts[a]).control with
  | .enabled | .overridden => ((s.unqueue a).updAct a stop, true)
  | .disabled | .disabling => (s, false)

/-- ENABLE of an actuator (R146): whether it changed the control. -/
def State.enableActuator (s : State) (a : ActIx) : State × Bool :=
  match (s.acts[a]).control with
  | .enabled => (s, false)
  | .overridden => ((s.updAct a ActRt.endOverride).join a, true)
  | .disabling => (s.updAct a fun r => { r with control := .enabled }, true)
  | .disabled => ((s.updAct a fun r => { r with control := .enabled }).join a, true)

/-! ### A zone's hold, disabling and enabling (R147, R148) -/

/-- The in-use actuators of a zone, in ascending index. -/
def State.zoneActuators (s : State) (z : ZoneIx) : List ActIx :=
  (indices 96).filter fun a => (s.cfg.acts[a]).inUse && (s.cfg.acts[a]).zone == z

/-- The clearing of a hold: each eligible actuator of the zone joins its queue (R147). -/
def State.dispatcherClearHold (s : State) (z : ZoneIx) : State := (s.zoneActuators z).foldl State.join s

/-- DISABLE of the zone at one actuator (R148). -/
def State.zoneDisableActuator (s : State) (a : ActIx) : State :=
  (s.unqueue a).updAct a fun r =>
    let r := { r with refreshTimer := .stopped, retryTimer := .stopped }
    if r.control = .overridden then { r with control := .enabled, overrideTimer := .stopped, confirmed := none } else r

/-- The dispatcher's part in DISABLE of a zone (R148). -/
def State.dispatcherDisable (s : State) (z : ZoneIx) : State := (s.zoneActuators z).foldl State.zoneDisableActuator s

/-- The dispatcher's part in ENABLE of a disabled zone (R148). -/
def State.dispatcherEnable (s : State) (z : ZoneIx) : State :=
  (s.zoneActuators z).foldl
    (fun s a => s.updAct a fun r =>
      { r with requested := none, rangeRefused := none, needsSend := false, refreshOnly := false }) s

/-! ### Refresh and retry (R132, R141) -/

/-- A refresh expiry: an idle actuator with nothing to send and a requested value is sent again (R132). -/
def State.refreshExpire (s : State) (a : ActIx) : State :=
  let s := s.updAct a fun r => { r with refreshTimer := .stopped }
  let r := s.acts[a]
  if r.dispatch == .idle && !r.needsSend && r.requested.isSome then
    (s.updAct a fun r => { r with needsSend := true, refreshOnly := true }).join a
  else s

/-- A retry expiry (R141). -/
def State.retryExpire (s : State) (a : ActIx) : State := (s.updAct a fun r => { r with retryTimer := .stopped }).join a

end Sys2Proof.Machine
end

