-- ==== Sys2Proof/Machine/Arbiter.lean ====
section
/-! DEFINITION. The purge timer's own moves (R98 to R101) and the air handler arbiter (04): the choice, dwell, hold, taking effect
and outputs. The arbiter tells the purge timer (R74); the purge timer's releases are decisions of the arbiter (R75). -/

namespace Sys2Proof.Machine

/-! ### The purge timer (R98 to R101) -/

/-- Requests a level of every purge fan of the zone, under the COVER job (R98). -/
def State.requestFans (s : State) (z : ZoneIx) (level : Int) : State := s.requestAll .purgeFan z fun _ => level

/-- The purge wait A in milliseconds (R83, R99). -/
def State.purgeWaitA (s : State) (z : ZoneIx) : Nat := (s.cfg.zones[z]).cover.waitA * 60 * perSecond

/-- Entry into PURGE_WAIT with the full wait (R99). -/
def State.purgeEnterWait (s : State) (z : ZoneIx) : State :=
  s.updPurge z fun p => { p with state := .wait, remainingWait := s.purgeWaitA z, remainingRun := 0, runStart := none }

/-- "PURGE granted": entry into PURGE_RUN (R100). -/
def State.purgeGranted (s : State) (z : ZoneIx) : State :=
  let c := (s.cfg.zones[z]).cover
  let s := s.updPurge z fun p =>
    match p.state with
    | .request =>
      { p with state := .run, runCounted := 0, remainingRun := c.runB * 60 * perSecond, runStart := some s.now }
    | .inactive | .wait | .run | .suspended => { p with state := .run, runCounted := 0 }
  s.requestFans z c.fanLevel

/-- What each way out of PURGE_RUN does: 0 requested of every purge fan, the run counted offered in seconds (R101, log 4). -/
def State.purgeLeaveRun (s : State) (z : ZoneIx) : State :=
  let counted := (s.zones[z]).purge.runCounted / perSecond
  let s := s.requestFans z 0
  let s := s.offer z accPurgeRun counted
  s.updPurge z fun p => { p with runCounted := 0 }

/-- "grant withdrawn" in PURGE_RUN: suspended with the remainder, or PURGE_WAIT when none is left (R101). -/
def State.purgeWithdrawn (s : State) (z : ZoneIx) : State :=
  if (s.zones[z]).purge.state = .run then
    let remaining := (s.zones[z]).purge.remainingRun
    let s := s.purgeLeaveRun z
    if remaining = 0 then s.purgeEnterWait z else s.updPurge z fun p => { p with state := .suspended }
  else s

/-! ### The choice (R68, R69) -/

/-- Vent availability (R69). -/
def State.ventAvailable (s : State) (z : ZoneIx) : Bool :=
  let r := s.zones[z]
  let c := (s.cfg.zones[z]).arb
  match r.eval.tout.last, r.eval.td with
  | some tout, some td => decide (tout ≤ td - c.voff) && decide (r.heat.h < c.hvent)
  | _, _ => false

/-- The condition of row 3: a purge that is requested, running or suspended, under closed covers (R68). -/
def ZoneRt.purgeClaims (r : ZoneRt) : Bool :=
  (r.purge.state == .request || r.purge.state == .run || r.purge.state == .suspended) && r.cover.state == .covered

/-- The row that makes the choice (R68). -/
def State.choiceRow (s : State) (z : ZoneIx) : ChoiceRow :=
  let r := s.zones[z]
  let c := (s.cfg.zones[z]).arb
  if !s.enabled z then .disabled
  else if r.eval.crit then .crit
  else if r.purgeClaims then .purge
  else if c.don ≤ r.eval.d ∨ ((r.arb.granted = .dry ∨ r.arb.granted = .vent) ∧ c.doff ≤ r.eval.d) then .drying
  else if 0 < r.heat.h then .heating
  else .none

/-- The mode of a row (R68). -/
def ChoiceRow.mode (vent : Bool) : ChoiceRow → Mode
  | .disabled | .none => .idle
  | .crit | .drying => if vent then .vent else .dry
  | .purge => .purge
  | .heating => .heat

/-- "Leaving PURGE on release": the granted mode is PURGE, and the decision is taken at a release by the purge timer or at the
covers' leaving of COVERED (R71). -/
def leavesPurge (granted : Mode) (release : Bool) : Bool := granted == .purge && release

/-- The dwell test (R71). -/
def dwellPasses (row : ChoiceRow) (r : ArbRt) (release : Bool) : Bool :=
  r.dwell == .stopped || leavesPurge r.granted release || row == .disabled ||
    (row == .crit && (r.granted == .idle || r.granted == .heat || r.granted == .purge))

/-- The hold test (R72). -/
def holdPasses (held : Bool) (row : ChoiceRow) (r : ArbRt) (release : Bool) : Bool :=
  !held || row == .disabled || leavesPurge r.granted release

/-- The cause of an effective change: the first row of R73 that applies. -/
def changeCause (row : ChoiceRow) (granted : Mode) (release : Bool) : ModeCause :=
  match row with
  | .disabled => .zoneDisabled
  | .crit => if leavesPurge granted release then .purgeEnd else .crit
  | .purge => if leavesPurge granted release then .purgeEnd else .purge
  | .drying => if leavesPurge granted release then .purgeEnd else .dryDemand
  | .heating => if leavesPurge granted release then .purgeEnd else .heatDemand
  | .none => if leavesPurge granted release then .purgeEnd else .noDemand

/-! ### Taking effect (R73, R74) -/

/-- The purge timer is told of a change to or away from PURGE (R74). -/
def State.tellPurge (s : State) (z : ZoneIx) (left granted : Mode) : State :=
  let p := (s.zones[z]).purge.state
  if granted = .purge ∧ (p = .request ∨ p = .suspended) then s.purgeGranted z
  else if left = .purge ∧ p = .run then s.purgeWithdrawn z
  else s

/-- A change that passes its tests takes effect, in the order of R73. -/
def State.changeMode (s : State) (z : ZoneIx) (mode : Mode) (cause : ModeCause) : State :=
  let left := (s.zones[z]).arb.granted
  let s := s.updArb z fun r =>
    { r with granted := mode, grantTime := some s.now, dwell := .seconds (s.cfg.zones[z]).arb.dwell, pending := none
             lastCause := some cause }
  let s := s.appendRing z (.ahu left mode cause)
  s.tellPurge z left mode

/-! ### Outputs (R77) -/

/-- The supply fan level of a granted mode (R77). -/
def fanLevel (c : ArbCfg) (mode : Mode) (night : Bool) (d : Int) : Int :=
  match mode with
  | .idle => if night then c.fNight else c.fIdle
  | .heat => c.fHeat
  | .dry => c.fdMin + ((c.fdMax - c.fdMin) * d).tdiv 1000
  | .vent => c.fVent
  | .purge => c.fPurge

/-- The outdoor-air damper position of a granted mode (R77). -/
def damperPosition (c : ArbCfg) (mode : Mode) (d : Int) : Int :=
  match mode with
  | .idle | .heat | .dry => c.dMin
  | .vent => c.dMin + ((1000 - c.dMin) * d).tdiv 1000
  | .purge => c.dPurge

/-- The code that the AIR job requests of AHU_MODE actuators (R63). -/
def Mode.code (m : Mode) : Int := modeOrder.idxOf m

/-- The AIR job's request of one actuator entry (R77). -/
def State.airRequest (s : State) (z : ZoneIx) (mode : Mode) (night : Bool) (d : Int) (a : ActIx) : State :=
  let c := (s.cfg.zones[z]).arb
  match (s.cfg.acts[a]).kind with
  | .ahuMode => s.jobRequest .ahuMode z a mode.code
  | .supplyFan => s.jobRequest .supplyFan z a (fanLevel c mode night d)
  | .oaDamper => s.jobRequest .oaDamper z a (damperPosition c mode d)
  | .heatValve | .coverDrive | .purgeFan | .dimmer | .plain => s

/-- The outputs of the granted mode, as it stands after the decision (R77). -/
def State.airOutputs (s : State) (z : ZoneIx) : State :=
  let r := s.zones[z]
  (indices 96).foldl (fun s a => s.airRequest z r.arb.granted (r.cover.state == .covered) r.eval.d a) s

/-! ### The decision (R67) -/

/-- The first two steps of a decision: choose, then compare and test (R67, R71, R72). -/
def State.arbitrateMode (s : State) (z : ZoneIx) (release : Bool) : State :=
  let r := s.zones[z]
  let vent := s.ventAvailable z
  let row := s.choiceRow z
  let mode := row.mode vent
  let s := s.updArb z fun a =>
    { a with ventAvailable := vent, chosen := some mode, lastDecision := some s.now }
  if mode = r.arb.granted then s.updArb z fun a => { a with pending := none }
  else if !dwellPasses row r.arb release then s.updArb z fun a => { a with pending := some .dwell }
  else if !holdPasses r.held row r.arb release then s.updArb z fun a => { a with pending := some .hold }
  else s.changeMode z mode (changeCause row r.arb.granted release)

/-- A decision of the arbiter; a disabled zone requests no outputs (R67, R77, R79). `release` says that it is taken at a release
by the purge timer or at the covers' leaving of COVERED. -/
def State.takeDecision (s : State) (z : ZoneIx) (release : Bool) : State :=
  let s := s.arbitrateMode z release
  if s.enabled z then s.airOutputs z else s

/-- DISABLE of an enabled zone at the arbiter: a decision by row 1, and the dwell timer stops (R81). -/
def State.arbiterDisable (s : State) (z : ZoneIx) : State :=
  (s.takeDecision z false).updArb z fun a => { a with dwell := .stopped }

/-! ### The purge timer and the covers (R99, R101, R102) -/

/-- The run timer's expiry: PURGE_WAIT, then the release of the grant (R101, R75). -/
def State.purgeRunEnd (s : State) (z : ZoneIx) : State := ((s.purgeLeaveRun z).purgeEnterWait z).takeDecision z true

/-- The covers leave COVERED: the purge timer goes INACTIVE, from PURGE_RUN with fans, account and release (R102). R75 lets the
release and the cover change reach the arbiter in either order: the model takes the release's decision here, at step 3 of R86,
before the scene take and the decision for the cover change (DESIGN CHOICE, log 18). -/
def State.purgeInactive (s : State) (z : ZoneIx) : State :=
  let inactive := fun (p : PurgeRt) =>
    { p with state := .inactive, remainingWait := 0, remainingRun := 0, runCounted := 0, runStart := none }
  if (s.zones[z]).purge.state = .run then
    let s := (s.purgeLeaveRun z).updPurge z inactive
    if s.enabled z then s.takeDecision z true else s
  else s.updPurge z inactive

end Sys2Proof.Machine
end

