-- ==== Sys2Proof/Machine/Scenes.lean ====
section
/-! DEFINITION. The scene engine (06): takes, guards, expansion, cue starts, fades and completion. A function that may bring the
engine to COMPLETE or COMPLETE_DEGRADED also answers that outcome, for the zone's cover sequencer (R119). -/

namespace Sys2Proof.Machine

/-! ### Guards and expansion (R113, R114) -/

/-- The accepted value of a point that is in use and FRESH (R2, R113). -/
def State.freshValue (s : State) (p : PointIx) : Option Int :=
  if (s.cfg.points[p]).inUse && (s.points[p]).state == .fresh then (s.points[p]).value else none

/-- Whether a cue's guard is absent or true at the take (R113). -/
def State.guardHolds (s : State) (z : ZoneIx) : Option Guard → Bool
  | none => true
  | some (.climateIs .night) => (s.zones[z]).cover.state == .covered
  | some (.climateIs .openHall) => (s.zones[z]).cover.state != .covered
  | some (.pointAbove p x) => match s.freshValue p with | some v => decide (x < v) | none => false
  | some (.pointBelow p x) => match s.freshValue p with | some v => decide (v < x) | none => false
  | some (.pointFresh p) => (s.cfg.points[p]).inUse && (s.points[p]).state == .fresh

/-- Which cues apply: a false guard withholds its cue and the next skip-count cues, which are not judged (R113). -/
def appliedCues (holds : Option Guard → Bool) : (withheld : Nat) → List Cue → List Bool
  | _, [] => []
  | k + 1, _ :: cues => false :: appliedCues holds k cues
  | 0, c :: cues => if holds c.guard then true :: appliedCues holds 0 cues else false :: appliedCues holds c.skip cues

/-- The cues that a scene consists of: 0 to cue count − 1 (R106). -/
def State.sceneCues (s : State) (scene : SceneIx) : List Cue :=
  ((s.cfg.cues[scene]).toList).take (s.cfg.headers[scene]).cueCount

/-- Whether a channel is an in-use DIMMER of the zone (R114). -/
def State.isDimmerOf (s : State) (z : ZoneIx) (a : ActIx) : Bool :=
  let c := s.cfg.acts[a]
  c.inUse && c.kind == .dimmer && c.zone == z

/-- The channels a target expands to, less those that are no dimmer of the zone (R114). -/
def State.expand (s : State) (z : ZoneIx) (target : Option CueTarget) : List ActIx :=
  let named := match target with
    | none => []
    | some (.actuator a) => [a]
    | some (.group g) => s.cfg.groups[g]
  named.filter (s.isDimmerOf z)

/-- A cue of the take: withheld; started at once when it has no channel; otherwise pending with its delay (R112, R114). -/
def State.cueRun (s : State) (z : ZoneIx) (applied : Bool) (c : Cue) : CueRun :=
  if applied then
    let channels := s.expand z c.target
    { status := if channels.isEmpty then .started else .pending (c.delay * 100), channels := channels }
  else { status := .withheld, channels := [] }

/-- Every item once, in the order of first appearance. -/
def firstAppearances (l : List ActIx) : List ActIx := l.foldl (fun acc a => if a ∈ acc then acc else acc ++ [a]) []

/-- The cue list of a take (R113, R114). -/
def State.takeCues (s : State) (z : ZoneIx) (scene : SceneIx) : List CueRun :=
  let cues := s.sceneCues scene
  List.zipWith (s.cueRun z) (appliedCues (s.guardHolds z) 0 cues) cues

/-! ### Cue starts and fades (R115 to R117) -/

/-- The cue table's cue of an engine's current scene. -/
def State.cueOf (s : State) (z : ZoneIx) (i : Nat) : Option Cue :=
  match (s.zones[z]).scene.scene with
  | some scene => (s.cfg.cues[scene])[i]?
  | none => none

/-- The number of steps of a fade of so many tenths of a second (R116). -/
def fadeSteps (fade : Nat) : Nat := (2 * fade + 4) / 5

/-- The level at step k of a fade; the division truncates toward zero (R117). -/
def Fade.level (f : Fade) (k : Nat) : Int := f.ls + ((f.lt - f.ls) * k).tdiv f.n

def SceneRt.updTouched (e : SceneRt) (a : ActIx) (f : Touched → Touched) : SceneRt :=
  { e with touched := e.touched.map fun t => if t.act = a then f t else t }

def SceneRt.fading (e : SceneRt) : Bool := e.touched.any fun t => t.fade.isSome

/-- A cue begins its fade on a channel (R116). -/
def State.beginFade (s : State) (z : ZoneIx) (c : Cue) (a : ActIx) : State :=
  let r := s.acts[a]
  match (match r.requested with | some v => some v | none => r.confirmed) with
  | none => s.jobRequest .dimmer z a c.level
  | some ls =>
    if c.fade = 0 then s.jobRequest .dimmer z a c.level
    else s.updScene z fun e =>
      let fade : Fade := { ls := ls, lt := c.level, n := fadeSteps c.fade, k := 0 }
      { e.updTouched a (fun t => { t with fade := some fade }) with
        stepTimer := if e.stepTimer = .stopped then .running 250 else e.stepTimer }

/-- A starting cue claims a channel (R115). Where it ends the engine's only fade and begins one in its place, the step timer keeps
the time it has left: R117 states neither that it stops and restarts nor that it runs on (DESIGN CHOICE, log 34). -/
def State.claim (s : State) (z : ZoneIx) (i : Nat) (c : Cue) (a : ActIx) : State :=
  match (s.zones[z]).scene.touched.find? fun t => t.act == a with
  | none => s
  | some t =>
    let owned := match t.owner with | none => false | some j => decide (i < j)
    if owned then s
    else (s.updScene z fun e => e.updTouched a fun t => { t with owner := some i, fade := none }).beginFade z c a

/-- The step timer runs only while a fade is in progress (R117). -/
def State.restStepTimer (s : State) (z : ZoneIx) : State :=
  s.updScene z fun e => if e.fading then e else { e with stepTimer := .stopped }

/-- A pending cue starts: it claims its channels in expansion order (R115). -/
def State.startCue (s : State) (z : ZoneIx) (i : Nat) : State :=
  match (s.zones[z]).scene.cues[i]?, s.cueOf z i with
  | some run, some c =>
    let s := s.updScene z fun e => { e with cues := e.cues.modify i fun r => { r with status := .started } }
    (run.channels.foldl (fun s a => s.claim z i c a) s).restStepTimer z
  | _, _ => s

/-- A pending cue whose delay has run out. -/
def CueRun.isDue (c : CueRun) : Bool := c.status == .pending 0

/-- The cues with no delay remaining start, in ascending cue index (R112 step 6, R122). -/
def State.startDueCues (s : State) (z : ZoneIx) : State :=
  (List.range 16).foldl
    (fun (s : State) i => if ((s.zones[z]).scene.cues[i]?).any CueRun.isDue then s.startCue z i else s) s

/-- One step of the fade on a touched channel (R117). -/
def State.stepChannel (s : State) (z : ZoneIx) (a : ActIx) (f : Fade) : State :=
  let k := f.k + 1
  let s := s.jobRequest .dimmer z a (f.level k)
  s.updScene z fun e => e.updTouched a fun t => { t with fade := if k < f.n then some { f with k := k } else none }

/-- The step of a channel that cue `i` owns and fades. -/
def State.stepOwned (s : State) (z : ZoneIx) (i : Nat) (a : ActIx) : State :=
  match (s.zones[z]).scene.touched.find? fun t => t.act == a with
  | some { act := _, owner := some j, fade := some f, rangeRefused := _ } => if i = j then s.stepChannel z a f else s
  | _ => s

/-- The steps of one expiry: in ascending owner cue and, within one cue, in expansion order; then the timer restarts with
250 ms or stops (R117). -/
def State.stepFades (s : State) (z : ZoneIx) : State :=
  let cues := (s.zones[z]).scene.cues
  let s := (List.range 16).foldl
    (fun (s : State) i => match cues[i]? with
      | some run => run.channels.foldl (fun s a => s.stepOwned z i a) s
      | none => s) s
  s.updScene z fun e => { e with stepTimer := if e.fading then .running 250 else .stopped }

/-! ### Completion (R118, R119) -/

/-- A touched channel is settled; one that is OVERRIDDEN is not (R118). -/
def State.channelSettled (s : State) (t : Touched) : Bool :=
  let r := s.acts[t.act]
  r.control != .overridden && r.dispatch == .idle && !r.needsSend &&
    match r.confirmed, r.requested with
    | some c, some v => c == v || decide ((c - v).natAbs < (s.cfg.acts[t.act]).deadband)
    | _, _ => false

/-- A touched channel is degraded; one that is OVERRIDDEN is not (R118). -/
def State.channelDegraded (s : State) (t : Touched) : Bool :=
  let r := s.acts[t.act]
  r.control != .overridden && (r.health != .ok || r.control == .disabled || r.control == .disabling || t.rangeRefused)

/-- The lowest degraded actuator index of the touched channels (R119). -/
def State.lowestDegraded (s : State) (z : ZoneIx) : Option ActIx :=
  (indices 96).find? fun a => (s.zones[z]).scene.touched.any fun t => t.act == a && s.channelDegraded t

/-- A judgement of completion (R119), with the outcome to report if the engine completes. -/
def State.sceneJudge (s : State) (z : ZoneIx) : State × Option SceneState :=
  match s.lowestDegraded z with
  | some a =>
    (s.updScene z fun e => { e with state := .completeDegraded, degraded := some a }, some .completeDegraded)
  | none =>
    if (s.zones[z]).scene.touched.all s.channelSettled then
      (s.updScene z fun e => { e with state := .complete, degraded := none }, some .complete)
    else (s.updScene z fun e => { e with state := .settling, degraded := none }, none)

def CueRun.isPending (c : CueRun) : Bool :=
  match c.status with
  | .pending _ => true
  | .withheld | .started => false

/-- In RUNNING, completion is judged when the last pending cue has started and the last fade has ended (R119). -/
def State.judgeIfDone (s : State) (z : ZoneIx) : State × Option SceneState :=
  let e := (s.zones[z]).scene
  if e.state = .running ∧ !e.cues.any CueRun.isPending ∧ !e.fading then s.sceneJudge z else (s, none)

/-! ### The take (R112) -/

/-- Steps 1 to 6 of a take, before any cue has started (R112). Every range-refused mark is clear, also where a REFUSED_RANGE on the
channel was reported just before the take: R124 lets either of the two update the new take's mark, R114 clears it (log 37). -/
def State.takeRecord (s : State) (z : ZoneIx) (scene : SceneIx) (origin : TakeOrigin) : State :=
  let left := (s.zones[z]).scene.scene
  let runs := s.takeCues z scene
  let touched : List Touched := (firstAppearances (runs.flatMap CueRun.channels)).map fun a =>
    { act := a, owner := none, fade := none, rangeRefused := false }
  let s := s.updScene z fun e =>
    { e with scene := some scene, origin := some origin, takeTime := some s.now, cues := runs, touched := touched
             stepTimer := .stopped, state := .running }
  (s.appendRing z (.scene left scene origin)).offer z accSceneChanges 1

/-- A take is made whole (R112); in a held zone every cue pends (R122). -/
def State.takeScene (s : State) (z : ZoneIx) (scene : SceneIx) (origin : TakeOrigin) : State × Option SceneState :=
  let s := s.takeRecord z scene origin
  let s := if (s.zones[z]).held then s else s.startDueCues z
  s.judgeIfDone z

/-! ### Reports of the dispatcher (R120) -/

/-- The report of an outcome on a dimmer (R120). -/
def State.sceneOutcome (s : State) (z : ZoneIx) (a : ActIx) (o : CommandOutcome) : State × Option SceneState :=
  let e := (s.zones[z]).scene
  if e.touched.any fun t => t.act == a then
    let marked := s.updScene z fun e => e.updTouched a fun t =>
      { t with rangeRefused := match o with
        | .refusedRange => true
        | .applied => false
        | .refusedHand | .timeout => t.rangeRefused }
    match e.state with
    | .running => (marked, none)
    | .settling => marked.sceneJudge z
    | .idle | .complete | .completeDegraded => (s, none)
  else (s, none)

/-- The report of a change of a dimmer's control (R120). -/
def State.sceneControl (s : State) (z : ZoneIx) (a : ActIx) : State × Option SceneState :=
  let e := (s.zones[z]).scene
  if e.state = .settling ∧ (e.touched.any fun t => t.act == a) then s.sceneJudge z else (s, none)

/-! ### Hold and disabling (R122, R123) -/

def State.sceneHold (s : State) (z : ZoneIx) : State := s.updScene z fun e => { e with stepTimer := e.stepTimer.pause }

/-- The clearing of a hold: the timers continue, and cues with no delay remaining start (R122). -/
def State.sceneClearHold (s : State) (z : ZoneIx) : State × Option SceneState :=
  let s := s.updScene z fun e => { e with stepTimer := e.stepTimer.continue }
  (s.startDueCues z).judgeIfDone z

/-- DISABLE cancels the take with no record and no report (R123). -/
def State.sceneDisable (s : State) (z : ZoneIx) : State := s.updScene z fun _ => .reset

/-! ### What runs (R109) -/

/-- A scene engine in RUNNING or SETTLING. -/
def SceneRt.isRunning (e : SceneRt) : Bool := e.state == .running || e.state == .settling

/-- A scene is running in some zone (R109). -/
def State.sceneRunning (s : State) (scene : SceneIx) : Bool :=
  (indices 4).any fun z => (s.zones[z]).scene.isRunning && (s.zones[z]).scene.scene == some scene

/-- A group is the target of an applied cue of a running scene (R109). -/
def State.groupRunning (s : State) (g : GroupIx) : Bool :=
  (indices 4).any fun z =>
    let e := (s.zones[z]).scene
    e.isRunning && (List.range 16).any fun i =>
      match e.cues[i]?, s.cueOf z i with
      | some run, some c => run.status != .withheld && c.target == some (.group g)
      | _, _ => false

end Sys2Proof.Machine
end

