-- ==== Sys2Proof/Machine/Covers.lean ====
section
/-! DEFINITION. The cover sequencer (05): working drives and end positions, changes of state, detection, motion, rest, fault, and
what it does with contact, drive and scene reports. -/

namespace Sys2Proof.Machine

/-! ### Working drives and end positions (R16, R84) -/

/-- An actuator entry that is an in-use COVER_DRIVE of the zone. -/
def State.isDriveOf (s : State) (z : ZoneIx) (a : ActIx) : Bool :=
  let c := s.cfg.acts[a]
  c.inUse && c.kind == .coverDrive && c.zone == z

/-- Whether a point is an in-use contact of the zone, of a kind, that names the drive (R16). -/
def State.contactNames (s : State) (z : ZoneIx) (kind : PointKind) (a : ActIx) (p : PointIx) : Bool :=
  let c := s.cfg.points[p]
  c.inUse && c.kind == kind && c.zone == .zone z && c.drive == some a.val

/-- The contacts of a kind that name a drive. -/
def State.contactsOf (s : State) (z : ZoneIx) (kind : PointKind) (a : ActIx) : List PointIx :=
  (indices 128).filter (s.contactNames z kind a)

/-- The working drives that are formed now: the zone's cover drives, at most the two lowest (R84). -/
def State.formDrives (s : State) (z : ZoneIx) : List ActIx :=
  ((indices 96).filter fun a =>
    s.isDriveOf z a &&
      ((indices 128).any fun p => s.contactNames z .coverClosed a p || s.contactNames z .coverOpen a p)).take 2

/-- The known state of a contact, none where it is unknown (R15). -/
def PointRt.known (r : PointRt) : Option Bool :=
  match r.state with
  | .fresh => r.contact
  | .never | .stale | .fault => none

/-- A working drive stands at an end: it has a contact of that end's kind, every such contact is known made, and none of the
other kind is known made. A drive that is no in-use COVER_DRIVE of the zone any more has no contacts (R16, R84). -/
def State.atEnd (s : State) (z : ZoneIx) (own other : PointKind) (a : ActIx) : Bool :=
  s.isDriveOf z a && !(s.contactsOf z own a).isEmpty &&
    ((s.contactsOf z own a).all fun p => (s.points[p]).known == some true) &&
    !((s.contactsOf z other a).any fun p => (s.points[p]).known == some true)

def State.atClosedEnd (s : State) (z : ZoneIx) (a : ActIx) : Bool := s.atEnd z .coverClosed .coverOpen a
def State.atOpenEnd (s : State) (z : ZoneIx) (a : ActIx) : Bool := s.atEnd z .coverOpen .coverClosed a

/-- The working drives of the zone. -/
def State.drives (s : State) (z : ZoneIx) : List ActIx := (s.zones[z]).cover.drives

/-- Requests STOP (0), CLOSE (1) or OPEN (2) of every working drive, in ascending index (R84). -/
def State.requestDrives (s : State) (z : ZoneIx) (v : Int) : State :=
  (s.drives z).foldl (fun s a => s.jobRequest .coverDrive z a v) s

def driveStop : Int := 0
def driveClose : Int := 1
def driveOpen : Int := 2

/-! ### The change of state (R85, R86) -/

/-- Cover work is in progress (R89). -/
def CoverState.isWork : CoverState → Bool
  | .prepClose | .deploying | .prepOpen | .retracting => true
  | .disabled | .detect | .openIdle | .settle | .covered | .fault => false

def CoverState.isMotion : CoverState → Bool
  | .deploying | .retracting => true
  | .disabled | .detect | .openIdle | .prepClose | .settle | .covered | .prepOpen | .fault => false

def CoverState.isPrep : CoverState → Bool
  | .prepClose | .prepOpen => true
  | .disabled | .detect | .openIdle | .deploying | .settle | .covered | .retracting | .fault => false

/-- The fault reason that a cause sets (R85, R94). -/
def CoverCause.reason : CoverCause → Option FaultReason
  | .fault r => some r
  | .zoneEnabled | .cleared | .positionFound | .command | .lightingReady | .forced | .endReached | .settled
  | .zoneDisabled => none

/-- The sequencer's record after a change: the timer of the new state started, every other one stopped (R85). -/
def CoverRt.enter (c : CoverCfg) (held : Bool) (formed : List ActIx) (r : CoverRt) (next : CoverState) (cause : CoverCause) :
    CoverRt :=
  { state := next
    reason := cause.reason
    drives := if next = .detect ∨ next.isMotion then formed else r.drives
    detectTimer := if next = .detect then .seconds c.detect else .stopped
    prepTimer := if next.isPrep then .startHeld held (c.prep * perSecond) else .stopped
    motionTimer := if next.isMotion then .startHeld held (c.motion * perSecond) else .stopped
    settleTimer := if next = .settle then .startHeld held (c.settle * perSecond) else .stopped
    lightingReady := false
    workSceneTaken := if next.isPrep then true else if r.state.isPrep ∧ next.isMotion then r.workSceneTaken else false }

/-- The drive requests that a new state calls for (R86 step 2, R90). -/
def State.coverDriveStep (s : State) (z : ZoneIx) (next : CoverState) : State :=
  match next with
  | .deploying => s.requestDrives z driveClose
  | .retracting => s.requestDrives z driveOpen
  | .disabled | .detect | .openIdle | .prepClose | .settle | .covered | .prepOpen | .fault => s

/-- The purge timer is told of an entry into or a departure from COVERED (R86 step 3, R99, R102); the decision for its release is
taken here, ahead of the change's later steps (R75; DESIGN CHOICE, log 18). -/
def State.coverPurgeStep (s : State) (z : ZoneIx) (left next : CoverState) : State :=
  if next = .covered then s.purgeEnterWait z else if left = .covered then s.purgeInactive z else s

/-- The scene that a new state calls for (R83, R86 step 4). -/
def CoverCfg.sceneOf (c : CoverCfg) : CoverState → Option (SceneIx × TakeOrigin)
  | .openIdle => c.openScene.map fun n => (n, .openScene)
  | .prepClose | .prepOpen => c.coverWorkScene.map fun n => (n, .coverWork)
  | .covered => c.nightScene.map fun n => (n, .nightScene)
  | .disabled | .detect | .deploying | .settle | .retracting | .fault => none

/-- The take of a new state's scene; its completion, if it comes at once, is judged after the whole change (R86). -/
def State.coverSceneStep (s : State) (z : ZoneIx) (next : CoverState) : State :=
  match (s.cfg.zones[z]).cover.sceneOf next with
  | some (scene, origin) => (s.takeScene z scene origin).1
  | none => s

/-- The notice of a new state (R86 step 5); `index` is the actuator or point concerned, 255 where none is (log 12). -/
def State.coverNoticeStep (s : State) (z : ZoneIx) (left next : CoverState) (cause : CoverCause) (index : Nat) : State :=
  match next with
  | .covered | .openIdle =>
    s.raise .coverState (zoneByte z) (named coverStateOrder next ++ named coverCauseOrder cause)
  | .fault =>
    s.raise .coverFault (zoneByte z)
      ((match cause.reason with | some r => named faultReasonOrder r | none => []) ++ named coverStateOrder left ++
        byteField index)
  | .disabled | .detect | .prepClose | .deploying | .settle | .prepOpen | .retracting => s

/-- A change of the sequencer's state, whole, in the order of R86, with the arbiter's decision for it. -/
def State.coverChange (s : State) (z : ZoneIx) (next : CoverState) (cause : CoverCause) (index : Nat) : State :=
  let left := (s.zones[z]).cover.state
  let formed := s.formDrives z
  let s := s.updZone z fun r =>
    { r with
      cover := r.cover.enter (s.cfg.zones[z]).cover r.held formed next cause
      scene := { r.scene with coverWork := next.isWork } }
  let s := s.appendRing z (.cover left next cause)
  let s := s.coverDriveStep z next
  let s := s.coverPurgeStep z left next
  let s := s.coverSceneStep z next
  let s := s.coverNoticeStep z left next cause index
  if next = .disabled then s else s.takeDecision z (left == .covered)

/-- The index that stands for no actuator and no point (R86, R170). -/
def noIndex : Nat := 255

/-- Entry into FAULT; drives in motion are stopped first (R90, R92, R94). -/
def State.enterFault (s : State) (z : ZoneIx) (reason : FaultReason) (index : Nat) : State :=
  let s := if (s.zones[z]).cover.state.isMotion then s.requestDrives z driveStop else s
  s.coverChange z .fault (.fault reason) index

/-! ### Motion (R90, R91) -/

/-- The drive check of R90. -/
def State.driveReady (s : State) (a : ActIx) : Bool :=
  let c := s.cfg.acts[a]
  let r := s.acts[a]
  r.control == .enabled && r.health == .ok && c.min == 0 && c.max == 2 && c.deadband == 0

/-- Entry into DEPLOYING or RETRACTING, subject to the drive check (R90, log 31). -/
def State.enterMotion (s : State) (z : ZoneIx) (next : CoverState) (cause : CoverCause) : State :=
  let formed := s.formDrives z
  let s := s.updCover z fun c => { c with drives := formed }
  match formed.find? fun a => !s.driveReady a with
  | some a => s.enterFault z .drive a.val
  | none => if formed.isEmpty then s.enterFault z .drive noIndex else s.coverChange z next cause noIndex

/-- The motion that a prep state leads to (R89). -/
def CoverState.motionAfterPrep : CoverState → CoverState
  | .prepOpen => .retracting
  | _ => .deploying

/-- In motion, the drives are judged at each contact report (R91). -/
def State.judgeEnds (s : State) (z : ZoneIx) : State :=
  match (s.zones[z]).cover.state with
  | .deploying =>
    if (s.drives z).all (s.atClosedEnd z) then
      let s := s.requestDrives z driveStop
      if (s.cfg.zones[z]).cover.settle = 0 then s.coverChange z .covered .endReached noIndex
      else s.coverChange z .settle .endReached noIndex
    else s
  | .retracting =>
    if (s.drives z).all (s.atOpenEnd z) then
      (s.requestDrives z driveStop).coverChange z .openIdle .endReached noIndex
    else s
  | .disabled | .detect | .openIdle | .prepClose | .settle | .covered | .prepOpen | .fault => s

/-! ### Detection (R87) -/

/-- In DETECT, the position is judged (R87). -/
def State.judgePosition (s : State) (z : ZoneIx) : State :=
  if (s.zones[z]).cover.state = .detect then
    if (s.drives z).isEmpty then s.coverChange z .openIdle .positionFound noIndex
    else if (s.drives z).all (s.atClosedEnd z) then s.coverChange z .covered .positionFound noIndex
    else if (s.drives z).all (s.atOpenEnd z) then s.coverChange z .openIdle .positionFound noIndex
    else s
  else s

/-- Entry into DETECT, and the judgement at once (R87). -/
def State.enterDetect (s : State) (z : ZoneIx) (cause : CoverCause) : State :=
  (s.coverChange z .detect cause noIndex).judgePosition z

/-! ### Reports -/

/-- The scene engine's report for the cover-work take, used in a prep state alone (R89). -/
def State.coverScene (s : State) (z : ZoneIx) (outcome : SceneState) : State :=
  let r := s.zones[z]
  if r.cover.state.isPrep ∧ r.scene.origin = some .coverWork then
    match outcome with
    | .complete =>
      if r.held then s.updCover z fun c => { c with lightingReady := true }
      else s.enterMotion z r.cover.state.motionAfterPrep .lightingReady
    | .completeDegraded => s.enterFault z .lighting noIndex
    | .idle | .running | .settling => s
  else s

/-- The engine's outcome, if there is one, goes to the zone's cover sequencer (R119). -/
def State.reportScene (z : ZoneIx) (p : State × Option SceneState) : State :=
  match p.2 with
  | some outcome => p.1.coverScene z outcome
  | none => p.1

/-- Entry into a prep state, and the cover-work scene's report if the scene completed at its take (R86, R89). -/
def State.enterPrep (s : State) (z : ZoneIx) (next : CoverState) : State :=
  let s := s.coverChange z next .command noIndex
  s.coverScene z (s.zones[z]).scene.state

/-- Whether a report says that a contact is known not made. -/
def ContactReport.notMade : ContactReport → Bool
  | .known made => !made
  | .changed made => !made
  | .unknown => false

/-- A contact report of a working drive's contact, by the state of the sequencer (R87, R91, R92, R93). -/
def State.coverContactIn (s : State) (z : ZoneIx) (p : PointIx) (kind : PointKind) (report : ContactReport) : State :=
  match (s.zones[z]).cover.state with
  | .detect => s.judgePosition z
  | .deploying | .retracting =>
    match report with
    | .unknown => s.enterFault z .contactLost p.val
    | .known _ | .changed _ => s.judgeEnds z
  | .settle | .covered | .prepOpen =>
    if kind = .coverClosed ∧ report.notMade then s.enterFault z .coverMoved p.val else s
  | .openIdle | .prepClose => if kind = .coverOpen ∧ report.notMade then s.enterFault z .coverMoved p.val else s
  | .disabled | .fault => s

/-- The point table tells the cover sequencer of the point's zone of a contact (R15); `c` is the entry that names the drive. A
report that names no drive, or a drive that is no working drive, is left unused (R16, R84). -/
def State.coverContact (s : State) (p : PointIx) (c : PointCfg) (report : ContactReport) : State :=
  match c.zone, c.drive.bind (asIndex 96) with
  | .zone z, some a =>
    if s.isDriveOf z a ∧ a ∈ s.drives z then s.coverContactIn z p c.kind report else s
  | _, _ => s

/-- The dispatcher's report on a command to a cover drive of the zone (R84, R92). -/
def State.coverDrive (s : State) (z : ZoneIx) (a : ActIx) (outcome : CommandOutcome) : State :=
  let failed := (s.acts[a]).health != .ok || outcome == .refusedRange
  match (s.zones[z]).cover.state with
  | .deploying | .retracting | .settle =>
    if a ∈ s.drives z ∧ failed then s.enterFault z .drive a.val else s
  | .disabled | .detect | .openIdle | .prepClose | .covered | .prepOpen | .fault => s

/-! ### Hold (R95) and DISABLE (R96) -/

/-- A hold begins: drives in motion are stopped; the prep, motion and settle timers pause (R95). -/
def State.coverHold (s : State) (z : ZoneIx) : State :=
  let s := if (s.zones[z]).cover.state.isMotion then s.requestDrives z driveStop else s
  s.updCover z fun c =>
    { c with prepTimer := c.prepTimer.pause, motionTimer := c.motionTimer.pause, settleTimer := c.settleTimer.pause }

/-- A hold clears: the timers continue; motion is requested again, and a ready preparation goes on (R95). -/
def State.coverClearHold (s : State) (z : ZoneIx) : State :=
  let s := s.updCover z fun c =>
    { c with
      prepTimer := c.prepTimer.continue, motionTimer := c.motionTimer.continue, settleTimer := c.settleTimer.continue }
  let c := (s.zones[z]).cover
  match c.state with
  | .deploying => s.requestDrives z driveClose
  | .retracting => s.requestDrives z driveOpen
  | .prepClose | .prepOpen => if c.lightingReady then s.enterMotion z c.state.motionAfterPrep .lightingReady else s
  | .disabled | .detect | .openIdle | .settle | .covered | .fault => s

/-- DISABLE of the zone at the cover sequencer (R96). -/
def State.coverDisable (s : State) (z : ZoneIx) : State :=
  let s := if (s.zones[z]).cover.state.isMotion then s.requestDrives z driveStop else s
  s.coverChange z .disabled .zoneDisabled noIndex

end Sys2Proof.Machine
end

