-- ==== Sys2Proof/Machine/Watches.lean ====
section
/-! DEFINITION. Reports of the dispatcher to the zone blocks (R139, R144 to R146), a zone's hold and its clearing (R186), and the
watches (R185). -/

namespace Sys2Proof.Machine

/-! ### Reports of the dispatcher -/

/-- The report of a command's outcome, by the actuator's kind (R139 step 4). -/
def State.reportOutcome (s : State) (a : ActIx) (outcome : CommandOutcome) : State :=
  let c := s.cfg.acts[a]
  match c.kind with
  | .dimmer => State.reportScene c.zone (s.sceneOutcome c.zone a outcome)
  | .coverDrive => s.coverDrive c.zone a outcome
  | .heatValve | .ahuMode | .supplyFan | .oaDamper | .purgeFan | .plain => s

/-- The report of a change of a dimmer's control (R120, R139, R144 to R146). -/
def State.reportControl (s : State) (a : ActIx) (changed : Bool) : State :=
  let c := s.cfg.acts[a]
  if changed ∧ c.kind = .dimmer then State.reportScene c.zone (s.sceneControl c.zone a) else s

/-- A command ends: its outcome acts on the actuator, the tag is freed, and the outcome is reported (R138 to R140). -/
def State.endCommand (s : State) (o : Outstanding) (outcome : CommandOutcome) : State :=
  let disabling := (s.acts[o.act]).control == .disabling
  let s := (s.applyOutcome o.act o.value outcome).freeCommand o.act o.tag
  (s.reportOutcome o.act outcome).reportControl o.act disabling

/-! ### Hold (R186) -/

/-- A HOLD_ZONE match: the zone becomes held and its blocks act; a zone already held takes the new cause (R186). -/
def State.holdZone (s : State) (z : ZoneIx) (w : WatchIx) : State :=
  if (s.zones[z]).held then s.updZone z fun r => { r with holdCause := some w }
  else ((s.updZone z fun r => { r with held := true, holdCause := some w }).coverHold z).sceneHold z

/-- The clearing of a hold, at each block; the hold cause is kept (R147, R95, R103, R122, R186; log 18, log 27). -/
def State.clearHold (s : State) (z : ZoneIx) : State :=
  if (s.zones[z]).held then
    let s := s.updZone z fun r => { r with held := false }
    let s := s.dispatcherClearHold z
    let s := s.coverClearHold z
    State.reportScene z (s.sceneClearHold z)
  else s

/-! ### Watches (R184, R185) -/

/-- An event offered to the watch unit: an accepted reading or a dispatch (R185). -/
structure WatchEvent where
  on : WatchOn
  target : WatchTarget
  value : Int
  deriving DecidableEq, Repr

/-- Whether a watch's condition admits a value (R185). -/
def conditionHolds (value : Int) : Option WatchCondition → Bool
  | none => true
  | some (.above x) => decide (x < value)
  | some (.below x) => decide (value < x)

/-- A watch matches an event (R185). -/
def Watch.matchesEvent (w : Watch) (e : WatchEvent) : Bool :=
  w.armed && w.target == e.target && (w.on == e.on || w.on == .either) && conditionHolds e.value w.condition

/-- The zone of a watch's target as its entry stands (R185). -/
def State.targetZone (s : State) : WatchTarget → PointZone
  | .point p => (s.cfg.points[p]).zone
  | .actuator a => .zone (s.cfg.acts[a]).zone

/-- The zones that an action on a target's zone reaches: that zone, or each enabled zone for ALL, in ascending order (R185; for
HOLD_ZONE the order is the model's choice, log 18). An entry in use names no other zone (R4). -/
def State.actionZones (s : State) : PointZone → List ZoneIx
  | .zone z => [z]
  | .all => (indices 4).filter s.enabled
  | .unlisted _ => []

/-- The action of a matching watch (R185). For zone ALL the captures are taken in ascending zone, as R185 says; that the zones
become held in ascending zone too, which orders their STOPs in the COVER queue, is the model's choice (DESIGN CHOICE, log 18). -/
def State.watchAct (s : State) (w : WatchIx) (action : WatchAction) (zone : PointZone) : State :=
  match action with
  | .notice => s
  | .capture => (s.actionZones zone).foldl (fun s z => s.capture z (.watch w)) s
  | .holdZone => (s.actionZones zone).foldl (fun s z => s.holdZone z w) s

/-- A watch's target as a variant field (R166, R184). -/
def WatchTarget.field : WatchTarget → List Byte
  | .point p => variant 0 (byteField p.val)
  | .actuator a => variant 1 (byteField a.val)

/-- One watch is compared with the event; a match disarms it, performs its action and raises WATCH_MATCH (R185). -/
def State.offerWatch (e : WatchEvent) (s : State) (w : WatchIx) : State :=
  let watch := s.cfg.watches[w]
  if watch.matchesEvent e then
    let zone := s.targetZone watch.target
    let s := s.updCfg fun c => { c with watches := c.watches.set w { watch with armed := false } }
    let s := s.watchAct w watch.action zone
    s.raise .watchMatch zone.byte
      (byteField w.val ++ named watchOnOrder e.on ++ watch.target.field ++ numField e.value ++
        named watchActionOrder watch.action)
  else s

/-- The watches are compared in ascending index (R185). -/
def State.offerWatches (s : State) (e : WatchEvent) : State := (indices 4).foldl (State.offerWatch e) s

/-! ### Arbitration and dispatch (R134, R135) -/

/-- The value that a dispatch sends: the requested value (R135). The value sent where none is requested is not stated. To a cover
drive it is STOP, since CLOSE and OPEN are dispatched only in DEPLOYING and RETRACTING, whose entry requests them (R90); to any
other actuator it is a free value within the actuator's limits (R129, log 33). -/
def State.valueToSend (s : State) (a : ActIx) : Int :=
  let c := s.cfg.acts[a]
  match (s.acts[a]).requested with
  | some v => v
  | none =>
    if c.kind = .coverDrive then clamp driveStop c.min c.max
    else clamp (Config.unrequestedValue a.val s.now.toNat s.millis) c.min c.max

/-- One arbitration: the winner's candidate takes the next free tag and is offered to the watch unit (R134, R135). -/
def State.arbitrate (s : State) : State :=
  match s.nextTag, s.winner with
  | some t, some j =>
    match (s.candidates j).head? with
    | some a =>
      let v := s.valueToSend a
      let counts : PerJob Nat :=
        { heat := s.waitCountAfter j .heat, air := s.waitCountAfter j .air, cover := s.waitCountAfter j .cover
          light := s.waitCountAfter j .light }
      let s := s.updDisp fun d => { d with waitCounts := counts, lastWinner := j }
      (s.dispatchWith a t v).offerWatches { on := .dispatch, target := .actuator a, value := v }
    | none => s
  | _, _ => s

end Sys2Proof.Machine
end

