-- ==== Sys2Proof/Machine/Points.lean ====
section
/-! DEFINITION. The point table (01): the arrival of readings, the persistence filter, contact reports and staleness. -/

namespace Sys2Proof.Machine

/-- The contact kinds (R1). -/
def PointKind.isContact : PointKind → Bool
  | .coverClosed | .coverOpen => true
  | .airTemp | .airRh | .waterTemp | .glazingTemp | .outdoorTemp | .general => false

/-! ### The record of one point (R10 to R14) -/

/-- The persistence filter takes an accepted contact value (R14). -/
def PointRt.filter (r : PointRt) (persistence : Nat) (v : Bool) : PointRt :=
  match r.contact with
  | none => { r with contact := some v, candidate := none, run := 0 }
  | some accepted =>
    if v = accepted then { r with candidate := none, run := 0 }
    else
      let run := if r.candidate = some v then r.run + 1 else 1
      if persistence ≤ run then { r with contact := some v, candidate := none, run := 0 }
      else { r with candidate := some v, run := run }

/-- An accepted reading at a point (R12, R14). -/
def PointRt.accept (r : PointRt) (c : PointCfg) (now : Stamp) (v : Int) : PointRt :=
  let r := { r with value := some v, state := .fresh, lastArrival := some now, staleTimer := .seconds c.staleTimeout }
  if c.kind.isContact then r.filter (c.persistence.getD 1) (v == 1) else r

/-- A reading judged faulty (R10, R11). -/
def PointRt.fail (r : PointRt) : PointRt :=
  { r with state := .fault, staleTimer := .stopped, candidate := none, run := 0 }

/-- The stale timer has expired (R18). -/
def PointRt.expire (r : PointRt) : PointRt :=
  { r with state := .stale, staleTimer := .stopped, candidate := none, run := 0 }

/-! ### Reports of contacts (R15) -/

/-- What the cover sequencer is told when a contact's known state passes from one value to another (R15). -/
def contactReport (before after : Option Bool) : Option ContactReport :=
  match before, after with
  | none, some made => some (.known made)
  | some was, some made => if was = made then none else some (.changed made)
  | some _, none => some .unknown
  | none, none => none

/-- Changes a point's record and tells the cover sequencer of what became of its contact (R13, R15); `c` is the entry whose
contact it is. -/
def State.changePoint (s : State) (p : PointIx) (c : PointCfg) (f : PointRt → PointRt) : State :=
  let before := (s.points[p]).known
  let s := s.updPoint p f
  match contactReport before (s.points[p]).known with
  | some report => if c.kind.isContact then s.coverContact p c report else s
  | none => s

/-! ### Arrival (R8, R9) -/

/-- The in-use entry with the key of an item (R9). -/
def State.matchPoint (s : State) (line : Line) (node channel : Nat) : Option PointIx :=
  (indices 128).find? fun p =>
    let c := s.cfg.points[p]
    c.inUse && c.line == some line && c.node == node && c.channel == channel

/-- Whether a reading item is accepted: quality GOOD and a value within the plausible limits (R9, R11, R12). -/
def PointCfg.admits (c : PointCfg) (item : ReadingItem) : Bool :=
  item.quality == 0 && decide (c.min ≤ item.value) && decide (item.value ≤ c.max)

/-- A matched item (R10 to R13): the entry, then the cover sequencer, then the watch unit. -/
def State.arrive (s : State) (p : PointIx) (item : ReadingItem) : State :=
  let c := s.cfg.points[p]
  if c.admits item then
    (s.changePoint p c fun r => r.accept c s.now item.value).offerWatches
      { on := .arrival, target := .point p, value := item.value }
  else s.changePoint p c PointRt.fail

/-- One item of an inspected READING; an item that matches no entry is passed over (R9). -/
def State.takeItem (line : Line) (node : Nat) (s : State) (item : ReadingItem) : State :=
  match s.matchPoint line node item.channel.toNat with
  | some p => s.arrive p item
  | none => s

/-- The inspection of a READING heard on a line (R8). -/
def State.inspectReading (s : State) (line : Line) (t : Telegram) : State :=
  if readingLength t.payload then (readingItems t.payload).foldl (State.takeItem line t.src.toNat) s else s

/-! ### Staleness (R18) and writing (R6) -/

/-- The expiry of a point's stale timer (R18). -/
def State.pointStale (s : State) (p : PointIx) : State :=
  let c := s.cfg.points[p]
  let s := s.changePoint p c PointRt.expire
  if c.notifyStale then
    s.raise .pointStale c.zone.byte
      (byteField p.val ++ (match (s.points[p]).value with | some v => numField v | none => []))
  else s

/-- A write that passed its checks replaces the entry; a known contact of the old entry becomes unknown (R6). -/
def State.storePoint (s : State) (p : PointIx) (c : PointCfg) : State :=
  let old := s.cfg.points[p]
  (s.updCfg fun k => { k with points := k.points.set p c }).changePoint p old fun _ => .reset

end Sys2Proof.Machine
end

