-- ==== Sys2Proof/Machine/Lines.lean ====
section
/-! DEFINITION. The two lines (08): reception and handing, the forwarding filter and queues, foreign commands and acknowledgements
as they arrive, request arrival (R162), the transmitters and the announce telegram. -/

namespace Sys2Proof.Machine

/-! ### Counts and flags of the lines -/

/-- A 16-bit count that saturates (R151, R155, R162). -/
def saturate16 (n : Nat) : Nat := min 65535 n

/-- A reception error (R151). -/
def State.countError (s : State) : Line → State
  | .hall => s.updLines fun l => { l with hallErrors := saturate16 (l.hallErrors + 1) }
  | .trunk => s.updLines fun l => { l with trunkErrors := saturate16 (l.trunkErrors + 1) }

/-- A valid telegram makes its line active (R152). -/
def State.setLineActive (s : State) : Line → State
  | .hall => s.updLines fun l => { l with hallActive := true }
  | .trunk => s.updLines fun l => { l with trunkActive := true }

/-! ### The forwarding queues (R155) -/

def Lines.queue (l : Lines) : Direction → ForwardQueue
  | .ht => l.ht
  | .th => l.th

def State.updQueue (s : State) (d : Direction) (f : ForwardQueue → ForwardQueue) : State :=
  match d with
  | .ht => s.updLines fun l => { l with ht := f l.ht }
  | .th => s.updLines fun l => { l with th := f l.th }

/-- One more telegram discarded (R155). -/
def ForwardQueue.discard (q : ForwardQueue) : ForwardQueue := { q with discards := saturate16 (q.discards + 1) }

/-- A telegram is offered to a forwarding queue: the queue afterwards (R155). -/
def ForwardQueue.offer (q : ForwardQueue) (t : Telegram) : ForwardQueue :=
  if q.items.length < 16 then { q with items := q.items ++ [t] } else q.discard

/-- Whether a queue has room for a telegram (R155). -/
def State.queueRoom (s : State) (d : Direction) : Bool := decide ((s.lines.queue d).items.length < 16)

/-! ### The forwarding filter (R154) -/

/-- A filter entry matches a destination in a direction (R154). -/
def FilterEntry.matchesDest (f : FilterEntry) (d : Direction) (dest : Nat) : Bool :=
  f.inUse && decide (f.lo ≤ dest) && decide (dest ≤ f.hi) &&
    match f.dir, d with
    | some .both, _ => true
    | some .ht, .ht => true
    | some .th, .th => true
    | some .ht, .th => false
    | some .th, .ht => false
    | none, _ => false

/-- The action of the first matching entry in index order, or the filter default (R154). -/
def State.filterAction (s : State) (d : Direction) (dest : Nat) : FilterAction :=
  match s.cfg.filter.toList.find? fun f => f.matchesDest d dest with
  | some f => f.action
  | none => s.cfg.part.filterDefault

/-- Whether the filter passes a telegram (R154). -/
def State.passes (s : State) (d : Direction) (t : Telegram) : Bool := s.filterAction d t.dest.toNat == .pass

/-- A telegram is offered to the filter, and to its direction's queue if it passes (R154, R155). -/
def State.offerFilter (s : State) (d : Direction) (t : Telegram) : State :=
  if s.passes d t then s.updQueue d fun q => q.offer t else s

/-! ### Foreign commands (R143, R144) -/

/-- The entry that a foreign command names (R143). -/
def State.matchActuator (s : State) (node channel : Nat) : Option ActIx :=
  (indices 96).find? fun a =>
    let c := s.cfg.acts[a]
    c.inUse && c.node == node && c.channel == channel

/-- An OVERRIDE that is forwarded takes effect; one that is blocked or finds the queue full does not (R144). -/
def State.forwardOverride (s : State) (a : ActIx) (t : Telegram) : State :=
  let forwarded := s.passes .th t && s.queueRoom .th
  let s := s.offerFilter .th t
  if forwarded then
    let (s, changed) := s.overrideEffect a
    s.reportControl a changed
  else s

/-- The judgement of a trunk COMMAND that is not for the part itself (R143; log 17). -/
def State.judgeForeign (s : State) (t : Telegram) : State :=
  match channelPayload t.payload with
  | none => s.offerFilter .th t
  | some p =>
    if t.dest = 255 then if s.anyEnabled then s.setForeignBlocked else s.offerFilter .th t
    else
      match s.matchActuator t.dest.toNat p.channel.toNat with
      | none => s.offerFilter .th t
      | some a =>
        let c := s.cfg.acts[a]
        if c.kind == .plain || !s.enabled c.zone then s.offerFilter .th t
        else if p.code = 1 then s.forwardOverride a t
        else s.setForeignBlocked

/-! ### Acknowledgements (R137) -/

/-- An ACK addressed to the part on the hall line; one that matches no entry is discarded (R137). -/
def State.acknowledge (s : State) (t : Telegram) : State :=
  match channelPayload t.payload with
  | none => s
  | some p =>
    match ackOutcome p.code, s.disp.outstanding.find? fun o => o.isAckedBy t p with
    | some outcome, some o => s.endCommand o outcome
    | _, _ => s

/-! ### Request arrival (R162) -/

def Management.requests (m : Management) : Channel → List Telegram
  | .trunk => m.trunkRequests
  | .service => m.serviceRequests

def State.updRequests (s : State) (c : Channel) (f : List Telegram → List Telegram) : State :=
  match c with
  | .trunk => s.updMgmt fun m => { m with trunkRequests := f m.trunkRequests }
  | .service => s.updMgmt fun m => { m with serviceRequests := f m.serviceRequests }

/-- A request arrives at its channel's queue (R162). -/
def State.requestArrives (s : State) (c : Channel) (t : Telegram) : State :=
  if t.payload.isEmpty then s
  else if (s.mgmt.requests c).length < 4 then s.updRequests c fun q => q ++ [t]
  else s.setRequestOverrun

/-- The idle timer of local mode (R171). -/
def idleStart : Timer := .seconds (15 * 60)

/-- A valid MGMT_REQ on the service port restarts the idle timer while local mode is held (R172). -/
def State.restartIdle (s : State) : State :=
  if s.mgmt.localMode then s.updMgmt fun m => { m with idleTimer := idleStart } else s

/-- A received unit of the service port (R162). -/
def State.receiveService (s : State) (heard : List RxByte) : State :=
  if heard.isEmpty then s
  else
    match judgeUnit false heard with
    | none => s.updMgmt fun m => { m with serviceErrors := saturate16 (m.serviceErrors + 1) }
    | some t => if t.kind = kindRequest then s.restartIdle.requestArrives .service t else s

/-! ### Reception and handing (R151 to R153) -/

/-- A telegram addressed to the part itself is consumed (R153). -/
def State.handOwn (s : State) (line : Line) (t : Telegram) : State :=
  if t.kind = kindReading then s.inspectReading line t
  else
    match line with
    | .hall => if t.kind = kindAck then s.acknowledge t else s
    | .trunk => if t.kind = kindRequest then s.requestArrives .trunk t else s

/-- A telegram in transit (R153). -/
def State.handTransit (s : State) (line : Line) (t : Telegram) : State :=
  let s := if t.kind = kindReading then s.inspectReading line t else s
  match line with
  | .hall => s.offerFilter .ht t
  | .trunk => if t.kind = kindCommand then s.judgeForeign t else s.offerFilter .th t

/-- A valid telegram is handed on by its destination and its line (R153). -/
def State.hand (s : State) (line : Line) (t : Telegram) : State :=
  if t.dest = s.own then s.handOwn line t else s.handTransit line t

/-- A received unit of a line (R151, R152); no bytes make no unit (log 32). -/
def State.receive (s : State) (line : Line) (heard : List RxByte) : State :=
  if heard.isEmpty then s
  else
    match judgeUnit true heard with
    | none => s.countError line
    | some t => (s.setLineActive line).hand line t

/-! ### The transmitters (R156 to R159) -/

def Lines.tx (l : Lines) : Line → Transmitter
  | .hall => l.hallTx
  | .trunk => l.trunkTx

def State.setTx (s : State) (line : Line) (t : Transmitter) : State :=
  match line with
  | .hall => s.updLines fun l => { l with hallTx := t }
  | .trunk => s.updLines fun l => { l with trunkTx := t }

/-- The oldest command in phase SENDING (R157). -/
def State.waitingCommand (s : State) : Option Outstanding := s.disp.outstanding.find? fun o => o.phase == .sending

/-- A choice of the hall transmitter: the telegram and its source, with the last-served field it leaves (R157). -/
def State.hallChoice (s : State) : Option (TxSource × Telegram × HallSource) :=
  match s.waitingCommand, s.lines.th.items.head? with
  | some o, none => some (.command o.tag, o.telegram, .command)
  | none, some t => some (.forward, t, .forward)
  | some o, some t =>
    match s.lines.hallLast with
    | .forward => some (.command o.tag, o.telegram, .command)
    | .command => some (.forward, t, .forward)
  | none, none => none

/-- The hall transmitter, when free, takes a telegram and begins its first attempt (R156, R157). -/
def State.hallChoose (s : State) : State :=
  match s.lines.hallTx, s.hallChoice with
  | .free, some (source, t, served) => (s.setTx .hall (.sending source t 1)).updLines fun l => { l with hallLast := served }
  | _, _ => s

/-- The image state's code (R150, R187). -/
def ImageState.code : ImageState → Nat
  | .passed => 0
  | .blank => 1
  | .failed => 2

/-- The payload of ANNOUNCE as it would be formed now (R150). -/
def State.announcePayload (s : State) : List Byte :=
  [0x31, 0xC6, 0x4C, 0x04, 1, s.own] ++ byteField s.configured.toNat ++ byteField s.imageState.code

/-- The ANNOUNCE telegram (R150, R159). -/
def State.announceTelegram (s : State) : Telegram :=
  { dest := 255, src := s.own, kind := kindAnnounce, tag := 0, payload := s.announcePayload }

/-- A notice's payload (R150). -/
def Notice.payload (n : Notice) : List Byte := byteField n.kind.code ++ [n.zone] ++ wordField n.time ++ n.detail

/-- A notice's telegram, to the supervisor address as it stands now (R150, R173). -/
def State.noticeTelegram (s : State) (n : Notice) : Telegram :=
  { dest := BitVec.ofNat 8 s.cfg.part.supervisor, src := s.own, kind := kindNotice, tag := 0, payload := n.payload }

/-- The four sources of the trunk transmitter in their order, each where it has a telegram waiting (R158, R159). -/
def State.trunkSources (s : State) : List (TxSource × Telegram) :=
  ((s.mgmt.replies.find? fun r => r.channel == .trunk).map fun r => (TxSource.reply, r.telegram)).toList ++
  (if s.lines.trunkActive then s.mgmt.notices.head?.map fun n => (TxSource.notice, s.noticeTelegram n) else none).toList ++
  (s.lines.ht.items.head?.map fun t => (TxSource.forward, t)).toList ++
  (if s.lines.trunkActive && s.lines.announcePending then [(TxSource.announce, s.announceTelegram)] else [])

/-- A choice of the trunk transmitter (R158). -/
def State.trunkChoice (s : State) : Option (TxSource × Telegram) :=
  match s.lines.ht.items.head? with
  | some t => if s.lines.forwardWait = 4 then some (.forward, t) else s.trunkSources.head?
  | none => s.trunkSources.head?

/-- The trunk transmitter, when free, takes a telegram and begins its first attempt (R156, R158). -/
def State.trunkChoose (s : State) : State :=
  match s.lines.trunkTx, s.trunkChoice with
  | .free, some (source, t) => s.setTx .trunk (.sending source t 1)
  | _, _ => s

/-- The forward-wait count when the attempts of a telegram end (R158, log 20). -/
def forwardWaitAfter (source : TxSource) (queueEmpty : Bool) (count : Nat) : Nat :=
  if source = .forward ∨ queueEmpty then 0 else min 4 (count + 1)

/-- The queue from which a line's transmitter forwards (R157, R158). -/
def forwardDirection : Line → Direction
  | .hall => .th
  | .trunk => .ht

/-- A forwarded telegram leaves its queue; a dropped one is counted (R155, R156). -/
def ForwardQueue.leave (q : ForwardQueue) (sent : Bool) : ForwardQueue :=
  let q := { q with items := q.items.drop 1 }
  if sent then q else q.discard

/-- The oldest reply of a channel leaves the reply queue (R164). -/
def removeReply (c : Channel) : List Reply → List Reply
  | [] => []
  | r :: rest => if r.channel = c then rest else r :: removeReply c rest

/-- The report of a command's transmission to the dispatcher (R136, R140). -/
def State.commandTransmitted (s : State) (tag : Tag) (sent : Bool) : State :=
  match s.outstandingOf tag with
  | none => s
  | some o =>
    if sent then
      s.updDisp fun d => { d with outstanding := d.outstanding.map fun o =>
        if o.tag = tag then { o with phase := .awaitingAck (.running s.cfg.part.ackTimeout) } else o }
    else s.endCommand o .timeout

/-- The fate of a telegram belongs to its source (R156). -/
def State.telegramFate (s : State) (line : Line) (source : TxSource) (sent : Bool) : State :=
  let lost := fun (s : State) => if sent then s else s.setTxLost
  match source with
  | .command tag => s.commandTransmitted tag sent
  | .forward => s.updQueue (forwardDirection line) fun q => q.leave sent
  | .reply => lost (s.updMgmt fun m => { m with replies := removeReply .trunk m.replies })
  | .notice => lost (s.updMgmt fun m => { m with notices := m.notices.drop 1 })
  | .announce => lost (s.updLines fun l => { l with announcePending := false })

/-- The attempts of a telegram have ended, sent or dropped (R156, R158). -/
def State.endTransmission (s : State) (line : Line) (source : TxSource) (sent : Bool) : State :=
  let s := (s.setTx line .free).telegramFate line source sent
  match line with
  | .hall => s
  | .trunk => s.updLines fun l => { l with forwardWait := forwardWaitAfter source l.ht.items.isEmpty l.forwardWait }

/-- The end of an attempt, as the bytes read back so far show it (R156). -/
def State.attemptEnd (s : State) (line : Line) (readBack : List RxByte) : State :=
  match s.lines.tx line with
  | .sending source t attempt =>
    match compareReadBack t.bytes readBack with
    | .ongoing => s
    | .sent => s.endTransmission line source true
    | .disturbed =>
      if attempt < 3 then s.setTx line (.waiting source t attempt) else s.endTransmission line source false
  | .free | .waiting _ _ _ => s

/-- The byte times of quiet before a further attempt (R156). -/
def State.retryWait (s : State) : Nat := 4 + s.cfg.part.own % 8

/-- The next attempt of a disturbed telegram, after the line has been quiet long enough (R156, log 19). -/
def State.retryAttempt (s : State) (line : Line) (quietByteTimes : Nat) : State :=
  match s.lines.tx line with
  | .waiting source t attempt =>
    if s.retryWait ≤ quietByteTimes then s.setTx line (.sending source t (attempt + 1)) else s
  | .free | .sending _ _ _ => s

end Sys2Proof.Machine
end

