-- ==== Sys2Proof/Machine/Encode.lean ====
section
/-! DEFINITION. The byte sequences that reads return (R166, R170): each table's entry with its runtime, the accounting records, the
line status, and the stored contents of the image with their check (R187). Widths and numbers that the rules leave open: logs 7
to 11. -/

namespace Sys2Proof.Machine

/-! ### Short forms -/

def natField (n : Nat) : List Byte := numField n

/-- An optional index, with its presence byte (R166, log 7). -/
def optIndex {n : Nat} : Option (Fin n) → List Byte := optField fun i => byteField i.val

def optNum : Option Int → List Byte := optField numField

def optStamp : Option Stamp → List Byte := optField wordField

/-- A contact state, "0 not made, 1 made" (R2). -/
def optContact : Option Bool → List Byte := optField yesNo

/-- A timer that is always running or paused, with its remaining time in seconds (R98, log 8). -/
def runningPausedField (running : Bool) (remaining : Nat) : List Byte :=
  named [TimerForm.running, TimerForm.paused] (if running then .running else .paused) ++
    wordField (BitVec.ofNat 32 (shownUnits perSecond remaining))

/-! ### POINT (R1, R2) and ACTUATOR (R126, R128) -/

def PointCfg.bytes (c : PointCfg) : List Byte :=
  yesNo c.inUse ++ [c.lineField] ++ natField c.node ++ natField c.channel ++ [c.kindField] ++
    [c.zone.byte] ++ numField c.min ++ numField c.max ++ natField c.staleTimeout ++ optField natField c.persistence ++
    optField byteField c.drive ++ [c.notifyField] ++ [c.protectField]

def PointRt.bytes (r : PointRt) : List Byte :=
  named pointStateOrder r.state ++ optNum r.value ++ optContact r.contact ++ optContact r.candidate ++ natField r.run ++
    optStamp r.lastArrival ++ timerField stoppedRunning perSecond r.staleTimer

def ActCfg.bytes (c : ActCfg) : List Byte :=
  yesNo c.inUse ++ natField c.node ++ natField c.channel ++ [c.kindField] ++ [c.zoneField] ++
    numField c.min ++ numField c.max ++ natField c.deadband ++ natField c.refresh ++ natField c.overrideHold ++
    [c.protectField]

def ActRt.bytes (r : ActRt) : List Byte :=
  named controlOrder r.control ++ named dispatchOrder r.dispatch ++ optNum r.requested ++ yesNo r.needsSend ++
    yesNo r.refreshOnly ++ optNum r.inFlightValue ++ optField (fun (t : Tag) => natField t.val) r.inFlightTag ++
    optNum r.confirmed ++ optNum r.rangeRefused ++ named healthOrder r.health ++ natField r.timeouts ++
    timerField stoppedRunning perSecond r.refreshTimer ++ timerField stoppedRunning perSecond r.retryTimer ++
    timerField stoppedRunning perSecond r.overrideTimer

/-! ### GROUP, SCENE_HEADER, CUE (R105 to R107) -/

def groupBytes (g : List ActIx) : List Byte := listField (fun (a : ActIx) => byteField a.val) g

def SceneHeader.bytes (h : SceneHeader) : List Byte := natField h.cueCount ++ yesNo h.protect

def CueTarget.field : CueTarget → List Byte
  | .actuator a => variant 0 (byteField a.val)
  | .group g => variant 1 (byteField g.val)

def Guard.field : Guard → List Byte
  | .climateIs c => variant 0 (named climateOrder c)
  | .pointAbove p x => variant 1 (byteField p.val ++ numField x)
  | .pointBelow p x => variant 2 (byteField p.val ++ numField x)
  | .pointFresh p => variant 3 (byteField p.val)

def Cue.bytes (c : Cue) : List Byte :=
  optField CueTarget.field c.target ++ numField c.level ++ natField c.fade ++ natField c.delay ++
    optField Guard.field c.guard ++ natField c.skip

/-! ### ZONE (R25, R46, R64, R83 and the runtime) -/

/-- The evaluation fields but for enabled (R25). -/
def EvalCfg.bytes (c : EvalCfg) : List Byte :=
  natField c.period ++ numField c.rhOpen ++ numField c.rhNight ++ numField c.krh ++ numField c.mthr ++ numField c.kc ++
    numField c.mcrit ++ yesNo c.protect

def HeatCfg.bytes (c : HeatCfg) : List Byte :=
  numField c.openOffset ++ numField c.nightOffset ++ numField c.spMin ++ numField c.spMax ++ numField c.kp ++ numField c.ki

def ArbCfg.bytes (c : ArbCfg) : List Byte :=
  natField c.dwell ++ numField c.don ++ numField c.doff ++ numField c.voff ++ numField c.hvent ++ numField c.fIdle ++
    numField c.fNight ++ numField c.fHeat ++ numField c.fdMin ++ numField c.fdMax ++ numField c.fVent ++
    numField c.fPurge ++ numField c.dMin ++ numField c.dPurge

def CoverCfg.bytes (c : CoverCfg) : List Byte :=
  natField c.prep ++ natField c.motion ++ natField c.detect ++ natField c.settle ++ natField c.waitA ++ natField c.runB ++
    numField c.fanLevel ++ optIndex c.openScene ++ optIndex c.coverWorkScene ++ optIndex c.nightScene

/-- The configuration as a read carries it, with enabled in its place (R166). -/
def ZoneCfg.readBytes (c : ZoneCfg) : List Byte :=
  c.eval.bytes ++ yesNo c.eval.enabled ++ c.heat.bytes ++ c.arb.bytes ++ c.cover.bytes

/-- The configuration as the image holds it, with enabled after the other fields (R187). -/
def ZoneCfg.imageBytes (c : ZoneCfg) : List Byte :=
  c.eval.bytes ++ c.heat.bytes ++ c.arb.bytes ++ c.cover.bytes ++ yesNo c.eval.enabled

/-- An aggregate (R21). The rules list no values for its held indicator: it is carried as set 0, clear 1 (DESIGN CHOICE, log 35). -/
def Aggregate.bytes (a : Aggregate) : List Byte := optNum a.last ++ setClear a.held

/-- The evaluation runtime (R26). T_CLAMP and DEW_LOW are carried as two indicators of one byte each, not as one set of flags
(DESIGN CHOICE, log 35). -/
def EvalRt.bytes (e : EvalRt) : List Byte :=
  e.ta.bytes ++ e.rh.bytes ++ e.tw.bytes ++ e.tg.bytes ++ e.tout.bytes ++ optNum e.tc ++ optNum e.psat ++ optNum e.pv ++
    optNum e.td ++ optNum e.margin ++ setClear e.heldMargin ++ numField e.dRh ++ numField e.dCond ++ numField e.d ++
    setClear e.crit ++ setClear e.noAirData ++ setClear e.tClamp ++ setClear e.dewLow ++
    timerField runningStopped perSecond e.timer ++ optStamp e.lastTime

/-- The heating runtime (R48), INTEG_LIMIT as an indicator of one byte (DESIGN CHOICE, log 35). -/
def HeatRt.bytes (h : HeatRt) : List Byte :=
  optNum h.spa ++ setClear h.heldSetpoint ++ optNum h.e ++ numField h.h ++ numField h.i ++ setClear h.integLimit

def ArbRt.bytes (a : ArbRt) : List Byte :=
  named modeOrder a.granted ++ optStamp a.grantTime ++ timerField runningStopped perSecond a.dwell ++
    optField (named modeOrder) a.chosen ++ optField (named pendingOrder) a.pending ++ yesNo a.ventAvailable ++
    optField (named modeCauseOrder) a.lastCause ++ optStamp a.lastDecision

def CoverRt.bytes (c : CoverRt) : List Byte :=
  named coverStateOrder c.state ++ optField (named faultReasonOrder) c.reason ++
    listField (fun (a : ActIx) => byteField a.val) c.drives ++
    timerField stoppedRunningPaused perSecond c.detectTimer ++ timerField stoppedRunningPaused perSecond c.prepTimer ++
    timerField stoppedRunningPaused perSecond c.motionTimer ++ timerField stoppedRunningPaused perSecond c.settleTimer ++
    yesNo c.lightingReady ++ yesNo c.workSceneTaken

/-- The wait timer runs in PURGE_WAIT while the zone is not held (R98, R103). -/
def PurgeRt.bytes (p : PurgeRt) (held : Bool) : List Byte :=
  named purgeStateOrder p.state ++ runningPausedField (p.state == .wait && !held) p.remainingWait ++
    natField (shownUnits perSecond p.remainingRun) ++ natField (p.runCounted / perSecond) ++ optStamp p.runStart

/-- A cue of the take: "applied or withheld; for an applied cue, pending with its remaining delay, or started" (R110). -/
def CueStatus.bytes : CueStatus → List Byte
  | .withheld => byteField 1
  | .pending ms => byteField 0 ++ variant 0 (wordField (BitVec.ofNat 32 (shownUnits 100 ms)))
  | .started => byteField 0 ++ variant 1 []

def Fade.bytes (f : Fade) : List Byte := numField f.ls ++ numField f.lt ++ natField f.n ++ natField f.k

/-- A touched channel (R110). The rules list no values for its range-refused mark: it is carried as yes/no, 1 for set (DESIGN
CHOICE, log 35). -/
def Touched.bytes (t : Touched) : List Byte :=
  byteField t.act.val ++ optField natField t.owner ++ optField Fade.bytes t.fade ++ yesNo t.rangeRefused

def SceneRt.bytes (e : SceneRt) : List Byte :=
  named sceneStateOrder e.state ++ optIndex e.scene ++ optField (named takeOriginOrder) e.origin ++ optStamp e.takeTime ++
    listField (fun (c : CueRun) => c.status.bytes) e.cues ++ listField Touched.bytes e.touched ++
    timerField stoppedRunningPaused 1 e.stepTimer ++ yesNo e.coverWork ++ optIndex e.degraded

/-- A capture reason: ACC_OVERFLOW, WATCH or REQUESTED with its index (R180). -/
def CaptureReason.field : CaptureReason → List Byte
  | .accOverflow a => variant 0 (byteField a.val)
  | .watch w => variant 1 (byteField w.val)
  | .requested => variant 2 []

/-- The capture arming: the reason that armed it (R178, log 8). -/
def armingField : Option AccIx → List Byte := optField fun a => (CaptureReason.accOverflow a).field

/-- The runtime of a zone entry, in the order of R166. -/
def ZoneRt.bytes (r : ZoneRt) : List Byte :=
  r.eval.bytes ++ r.heat.bytes ++ r.arb.bytes ++ r.cover.bytes ++ r.purge.bytes r.held ++ r.scene.bytes ++
    armingField r.arming ++ yesNo r.held ++ optIndex r.holdCause

/-! ### SATURATION, FILTER, PART (R28, R154, R168) and the watches (R184) -/

def saturationBytes (sat : Vector Nat 17) : List Byte := sat.toList.flatMap natField

def FilterEntry.bytes (f : FilterEntry) : List Byte :=
  yesNo f.inUse ++ natField f.lo ++ natField f.hi ++ [f.dirField] ++ [f.actionField]

def AccOptions.bytes (o : AccOptions) : List Byte :=
  yesNo o.enabled ++ yesNo o.captureOnOverflow ++ yesNo o.freezeOnOverflow

/-- One value for each job, in the order HEAT, AIR, COVER, LIGHT. -/
def perJobBytes (p : PerJob Nat) : List Byte := jobOrder.flatMap fun j => natField (p.get j)

def PartRecord.bytes (p : PartRecord) : List Byte :=
  natField p.own ++ natField p.supervisor ++ natField p.ackTimeout ++ perJobBytes p.priority ++ perJobBytes p.maxWait ++
    named filterActionOrder p.filterDefault ++ named runOrder p.run ++
    (p.accOptions.toList.flatMap fun z => z.toList.flatMap AccOptions.bytes) ++ named captureModeOrder p.captureMode ++
    natField p.captureThreshold ++ yesNo p.ringFreeze

def WatchCondition.field : WatchCondition → List Byte
  | .above x => variant 0 (numField x)
  | .below x => variant 1 (numField x)

def Watch.bytes (w : Watch) : List Byte :=
  yesNo w.armed ++ w.target.field ++ named watchOnOrder w.on ++ optField WatchCondition.field w.condition ++
    named watchActionOrder w.action

/-! ### READ_ENTRY (R166) -/

/-- The tables by their codes (R166). -/
inductive TableId where
  | point | actuator | group | sceneHeader | cue | zone | saturation | filter | part
  deriving DecidableEq, Repr

def tableOrder : List TableId := [.point, .actuator, .group, .sceneHeader, .cue, .zone, .saturation, .filter, .part]

/-- The byte sequence of the entry of a table at a table index; none where the index is outside the table (R166). -/
def State.entryBytes (s : State) (table : TableId) (index : Nat) : Option (List Byte) :=
  match table with
  | .point => (asIndex 128 index).map fun p => (s.cfg.points[p]).bytes ++ (s.points[p]).bytes
  | .actuator => (asIndex 96 index).map fun a => (s.cfg.acts[a]).bytes ++ (s.acts[a]).bytes
  | .group => (asIndex 16 index).map fun g => groupBytes s.cfg.groups[g]
  | .sceneHeader => (asIndex 32 index).map fun n => (s.cfg.headers[n]).bytes
  | .cue =>
    match asIndex 32 (index / 256), asIndex 16 (index % 256) with
    | some n, some i => some ((s.cfg.cues[n])[i]).bytes
    | _, _ => none
  | .zone => (asIndex 4 index).map fun z => (s.cfg.zones[z]).readBytes ++ (s.zones[z]).bytes
  | .saturation => if index = 0 then some (saturationBytes s.cfg.saturation) else none
  | .filter => (asIndex 16 index).map fun i => (s.cfg.filter[i]).bytes
  | .part => if index = 0 then some s.cfg.part.bytes else none

/-! ### The image (R187) -/

/-- The stored contents as one sequence of bytes (R187). -/
def ConfigData.imageBytes (c : ConfigData) : List Byte :=
  c.points.toList.flatMap PointCfg.bytes ++ c.acts.toList.flatMap ActCfg.bytes ++ c.groups.toList.flatMap groupBytes ++
    c.headers.toList.flatMap SceneHeader.bytes ++ (c.cues.toList.flatMap fun n => n.toList.flatMap Cue.bytes) ++
    c.zones.toList.flatMap ZoneCfg.imageBytes ++ saturationBytes c.saturation ++ c.filter.toList.flatMap FilterEntry.bytes ++
    c.part.bytes ++ c.watches.toList.flatMap Watch.bytes

/-- The check of stored contents (R187). -/
def imageCheck (c : ConfigData) : BitVec 32 := crc32 c.imageBytes

/-! ### Accounting results (R179, R180, R182, R183) -/

/-- ACCUMULATOR READ of a zone (R179). The rules list no values for the overflowed mark: the six marks are carried as a yes/no byte
each, 1 for set (DESIGN CHOICE, log 35). -/
def State.accumulatorBytes (s : State) (z : ZoneIx) : List Byte :=
  ((s.acct.accs[z]).toList.flatMap fun a => wordField a.value) ++
    ((s.acct.accs[z]).toList.flatMap fun a => yesNo a.overflowed) ++
    (s.cfg.part.accOptions[z]).toList.flatMap AccOptions.bytes ++ named runOrder s.cfg.part.run ++
    armingField (s.zones[z]).arming

/-- A capture record (R180). -/
def CaptureRecord.bytes (r : CaptureRecord) : List Byte :=
  wordField r.time ++ byteField r.zone.val ++ r.reason.field ++ optNum r.ta ++ optNum r.rh ++ optNum r.tw ++ optNum r.tg ++
    optNum r.td ++ optNum r.margin ++ numField r.h ++ numField r.d ++ numField r.i ++ named modeOrder r.mode ++
    named coverStateOrder r.cover ++ named purgeStateOrder r.purge ++ optIndex r.scene

/-- The count of records removed and their encoding (R182, log 9). -/
def captureListBytes (l : List CaptureRecord) : List Byte := listField CaptureRecord.bytes l

/-- A ring record's kind, from and to values and cause (R183); no previous scene is 255 (R170). -/
def RingEntry.bytes : RingEntry → List Byte
  | .ahu left granted cause =>
    byteField 0 ++ named modeOrder left ++ named modeOrder granted ++ named modeCauseOrder cause
  | .cover left entered cause =>
    byteField 1 ++ named coverStateOrder left ++ named coverStateOrder entered ++ named coverCauseOrder cause
  | .scene left entered cause =>
    byteField 2 ++ byteField (match left with | some n => n.val | none => 255) ++ byteField entered.val ++
      named takeOriginOrder cause

def RingRecord.bytes (r : RingRecord) : List Byte := wordField r.time ++ byteField r.zone.val ++ r.entry.bytes

/-- RING READ: up to 4 records from the start index, 0 the newest, toward older ones (R183, log 9). -/
def State.ringBytes (s : State) (start : Nat) : List Byte :=
  listField RingRecord.bytes ((s.acct.ring.reverse.drop start).take 4)

/-! ### LINE_STATUS (R169) -/

/-- The states of a transmitter, as R156 lists them. -/
inductive TxState where
  | free | deferring | sending
  deriving DecidableEq, Repr

def txStateOrder : List TxState := [.free, .deferring, .sending]

/-- Whether a transmitter's sources have a telegram waiting (R157, R158). -/
def State.txWaits (s : State) : Line → Bool
  | .hall => s.hallChoice.isSome
  | .trunk => s.trunkChoice.isSome

/-- A transmitter's state: it defers between attempts, and while a telegram waits for a busy line (R156, log 19). -/
def State.txState (s : State) (line : Line) (busy : Bool) : TxState :=
  match s.lines.tx line with
  | .free => if busy && s.txWaits line then .deferring else .free
  | .sending _ _ _ => .sending
  | .waiting _ _ _ => .deferring

/-- The attempt number of the telegram a transmitter holds (R156). Where it holds none the spec gives no number: the model returns
0 (DESIGN CHOICE, log 35). -/
def Transmitter.attempt : Transmitter → Nat
  | .free => 0
  | .sending _ _ n => n
  | .waiting _ _ n => n

/-- The tags held, bit i for tag i (R169). -/
def State.heldTags (s : State) : Nat :=
  ((indices 16).map fun t => if s.tagHeld t then 2 ^ t.val else 0).sum

/-- The results of LINE_STATUS in the order of R169 (log 10). -/
def State.lineStatusBytes (s : State) (hallBusy trunkBusy : Bool) : List Byte :=
  natField s.lines.hallErrors ++ natField s.lines.trunkErrors ++ natField s.mgmt.serviceErrors ++
    yesNo s.lines.hallActive ++ yesNo s.lines.trunkActive ++
    natField s.lines.ht.items.length ++ natField s.lines.th.items.length ++
    natField s.lines.ht.discards ++ natField s.lines.th.discards ++
    named txStateOrder (s.txState .hall hallBusy) ++ natField s.lines.hallTx.attempt ++
    named txStateOrder (s.txState .trunk trunkBusy) ++ natField s.lines.trunkTx.attempt ++
    (jobOrder.flatMap fun j => natField (s.disp.queues.get j).length) ++
    perJobBytes s.disp.waitCounts ++ named jobOrder s.disp.lastWinner ++ natField s.heldTags ++
    natField s.mgmt.trunkRequests.length ++ natField s.mgmt.serviceRequests.length ++ natField s.mgmt.replies.length ++
    natField s.mgmt.notices.length ++ named localModeOrder s.mgmt.localMode ++
    optField (fun (c : Commit) => named channelOrder c.channel) s.mgmt.commit

end Sys2Proof.Machine
end

