-- ==== Sys2Proof/Machine/Tables.lean ====
section
/-! DEFINITION. WRITE_ENTRY on each table: reading the gathered bytes as an entry, the checks of the table's owning rule in their
order, and the write (R3 to R6, R27, R28, R47, R65, R83, R105, R106, R108, R127, R154, R168). -/

namespace Sys2Proof.Machine

/-- What a request's own rule answers: the state after it and its status. -/
abbrev Verdict := State × Status

def State.refuseWith (s : State) (status : Status) : Verdict := (s, status)

/-- A PROTECTED refusal sets PROTECT_FAULT (R3, R174). -/
def State.refuseProtected (s : State) : Verdict := (s.setProtectFault, .protectedEntry)

/-- A number lies within a range. -/
def within (x a b : Int) : Bool := decide (a ≤ x) && decide (x ≤ b)

/-- The protect check of a table entry, on the marks as they are carried: a trunk write of an entry that is marked, or whose written
mark differs (R3). -/
def protectRefuses (c : Channel) (stored : Byte) (written : Nat) : Bool :=
  c == .trunk && (stored == 1 || written != stored.toNat)

/-- A yes/no code (R166). -/
def yesNoCode (code : Nat) : Option Bool := ofCode yesNoOrder code

/-! ### POINT (R3 to R6) -/

/-- A point entry as its bytes carry it, its codes not judged yet. -/
structure RawPoint where
  inUse : Nat
  line : Nat
  node : Nat
  channel : Nat
  kind : Nat
  zone : Nat
  min : Int
  max : Int
  staleTimeout : Nat
  persistence : Option Nat
  drive : Option Nat
  notifyStale : Nat
  protect : Nat
  deriving DecidableEq, Repr

def readPoint : Reader RawPoint := do
  return { inUse := ← readCode, line := ← readCode, node := ← readNat, channel := ← readNat, kind := ← readCode
           zone := ← readCode, min := ← readInt, max := ← readInt, staleTimeout := ← readNat
           persistence := ← readOpt readNat, drive := ← readOpt readCode, notifyStale := ← readCode
           protect := ← readCode }

/-- The entry, where the in-use byte is yes or no; the other fields are stored as written, and those of an entry in use judged
afterwards (R4, log 13). -/
def RawPoint.entry (r : RawPoint) : Option PointCfg := do
  return { inUse := ← yesNoCode r.inUse, lineField := BitVec.ofNat 8 r.line, node := r.node, channel := r.channel
           kindField := BitVec.ofNat 8 r.kind, zone := PointZone.ofCode r.zone, min := r.min, max := r.max
           staleTimeout := r.staleTimeout, persistence := r.persistence, drive := r.drive
           notifyField := BitVec.ofNat 8 r.notifyStale, protectField := BitVec.ofNat 8 r.protect }

/-- Every named value and yes/no byte is one that R1 lists (R4, R170). -/
def PointCfg.listed (c : PointCfg) : Bool :=
  within c.lineField.toNat 0 1 && within c.kindField.toNat 0 7 && within c.notifyField.toNat 0 1 &&
    within c.protectField.toNat 0 1

/-- The limits that a kind allows (R4). -/
def PointCfg.limitsOk (c : PointCfg) : Bool :=
  decide (c.min ≤ c.max) &&
    match c.kind with
    | .airRh => within c.min 0 1000 && within c.max 0 1000
    | .airTemp | .waterTemp | .glazingTemp | .outdoorTemp => within c.min (-400) 800 && within c.max (-400) 800
    | .coverClosed | .coverOpen => c.min == 0 && c.max == 1
    | .general => true

/-- The zone that a kind allows (R4); a byte that names neither a zone nor ALL is refused in every kind (log 13). -/
def PointCfg.zoneOk (c : PointCfg) : Bool :=
  match c.zone, c.kind with
  | .zone _, .outdoorTemp => false
  | .zone _, _ => true
  | .all, .outdoorTemp | .all, .general => true
  | .all, _ => false
  | .unlisted _, _ => false

/-- The persistence count and the cover drive of a contact, and their absence elsewhere (R4). -/
def State.contactFieldsOk (s : State) (c : PointCfg) : Bool :=
  if c.kind.isContact then
    match c.persistence, c.drive.bind (asIndex 96), c.zone with
    | some n, some a, .zone z => within n 1 15 && s.isDriveOf z a
    | _, _, _ => false
  else c.persistence.isNone && c.drive.isNone

/-- Another in-use entry has the same key (R5). -/
def State.pointKeyTaken (s : State) (p : PointIx) (c : PointCfg) : Bool :=
  (indices 128).any fun q =>
    let d := s.cfg.points[q]
    q != p && d.inUse && d.line == c.line && d.node == c.node && d.channel == c.channel

/-- The checks of R4 and R5 on an entry with in use = yes. -/
def State.pointValid (s : State) (p : PointIx) (c : PointCfg) : Bool :=
  !c.inUse ||
    (c.listed && within c.node 1 254 && within c.channel 0 3 && within c.staleTimeout 5 3600 && c.limitsOk && c.zoneOk &&
      s.contactFieldsOk c && !s.pointKeyTaken p c)

/-- WRITE_ENTRY on the POINT table (R3). -/
def State.writePoint (s : State) (c : Channel) (index : Nat) (r : RawPoint) : Verdict :=
  match asIndex 128 index with
  | none => s.refuseWith .badIndex
  | some p =>
    if protectRefuses c (s.cfg.points[p]).protectField r.protect then s.refuseProtected
    else
      match r.entry with
      | some entry => if s.pointValid p entry then (s.storePoint p entry, .done) else s.refuseWith .badValue
      | none => s.refuseWith .badValue

/-! ### ACTUATOR (R127) -/

structure RawActuator where
  inUse : Nat
  node : Nat
  channel : Nat
  kind : Nat
  zone : Nat
  min : Int
  max : Int
  deadband : Nat
  refresh : Nat
  overrideHold : Nat
  protect : Nat
  deriving DecidableEq, Repr

def readActuator : Reader RawActuator := do
  return { inUse := ← readCode, node := ← readNat, channel := ← readNat, kind := ← readCode, zone := ← readCode
           min := ← readInt, max := ← readInt, deadband := ← readNat, refresh := ← readNat, overrideHold := ← readNat
           protect := ← readCode }

/-- The entry, where the in-use byte is yes or no; the other fields are stored as written, and those of an entry in use judged
afterwards (R127, log 13). -/
def RawActuator.entry (r : RawActuator) : Option ActCfg := do
  return { inUse := ← yesNoCode r.inUse, node := r.node, channel := r.channel, kindField := BitVec.ofNat 8 r.kind
           zoneField := BitVec.ofNat 8 r.zone, min := r.min, max := r.max, deadband := r.deadband, refresh := r.refresh
           overrideHold := r.overrideHold, protectField := BitVec.ofNat 8 r.protect }

/-- The limits that a kind allows (R127). -/
def ActCfg.limitsOk (c : ActCfg) : Bool :=
  decide (c.min ≤ c.max) &&
    match c.kind with
    | .heatValve | .supplyFan | .oaDamper | .purgeFan | .dimmer => within c.min 0 1000 && within c.max 0 1000
    | .coverDrive => within c.min 0 2 && within c.max 0 2
    | .ahuMode | .plain => true

def State.actKeyTaken (s : State) (a : ActIx) (c : ActCfg) : Bool :=
  (indices 96).any fun b =>
    let d := s.cfg.acts[b]
    b != a && d.inUse && d.node == c.node && d.channel == c.channel

/-- Step 4 of R127 on an entry with in use = yes; a byte that names no kind, no zone or no mark is refused as well (R126, R170,
log 13). -/
def State.actValid (s : State) (a : ActIx) (c : ActCfg) : Bool :=
  !c.inUse ||
    (within c.kindField.toNat 0 7 && within c.protectField.toNat 0 1 && within c.node 1 254 && within c.channel 0 3 &&
      c.limitsOk && within c.zoneField.toNat 0 3 && within c.deadband 0 100 &&
      (c.refresh == 0 || within c.refresh 10 3600) && within c.overrideHold 1 240 && !s.actKeyTaken a c)

/-- A write that passed replaces the entry and resets its runtime (R127). -/
def State.storeActuator (s : State) (a : ActIx) (c : ActCfg) : State :=
  (s.updCfg fun k => { k with acts := k.acts.set a c }).updAct a fun _ => .reset

/-- WRITE_ENTRY on the ACTUATOR table (R127). -/
def State.writeActuator (s : State) (c : Channel) (index : Nat) (r : RawActuator) : Verdict :=
  match asIndex 96 index with
  | none => s.refuseWith .badIndex
  | some a =>
    if protectRefuses c (s.cfg.acts[a]).protectField r.protect then s.refuseProtected
    else if (s.cfg.acts[a]).inUse && (s.acts[a]).control != .disabled then s.refuseWith .inUse
    else
      match r.entry with
      | some entry => if s.actValid a entry then (s.storeActuator a entry, .done) else s.refuseWith .badValue
      | none => s.refuseWith .badValue

/-! ### GROUP, SCENE_HEADER, CUE (R105, R106, R108) -/

def readGroup : Reader (List Nat) := readList readCode

/-- The listed actuators, where every one is an in-use DIMMER and none is named twice (R105). -/
def State.groupList (s : State) (codes : List Nat) : Option (List ActIx) :=
  if codes.length ≤ 16 ∧ codes.Nodup then
    codes.mapM fun code => (asIndex 96 code).filter fun a => (s.cfg.acts[a]).inUse && (s.cfg.acts[a]).kind == .dimmer
  else none

/-- WRITE_ENTRY on the GROUP table (R105). -/
def State.writeGroup (s : State) (index : Nat) (codes : List Nat) : Verdict :=
  match asIndex 16 index with
  | none => s.refuseWith .badIndex
  | some g =>
    if s.groupRunning g then s.refuseWith .inUse
    else
      match s.groupList codes with
      | some list => (s.updCfg fun k => { k with groups := k.groups.set g list }, .done)
      | none => s.refuseWith .badValue

/-- A scene header's cue count and its mark's code. -/
structure RawHeader where
  cueCount : Nat
  protect : Nat
  deriving DecidableEq, Repr

def readHeader : Reader RawHeader := do
  return { cueCount := ← readNat, protect := ← readCode }

/-- WRITE_ENTRY on the SCENE_HEADER table (R106). -/
def State.writeHeader (s : State) (c : Channel) (index : Nat) (r : RawHeader) : Verdict :=
  match asIndex 32 index with
  | none => s.refuseWith .badIndex
  | some n =>
    if protectRefuses c (markByte (s.cfg.headers[n]).protect) r.protect then s.refuseProtected
    else if s.sceneRunning n then s.refuseWith .inUse
    else
      match yesNoCode r.protect with
      | some mark =>
        if r.cueCount ≤ 16 then
          (s.updCfg fun k => { k with headers := k.headers.set n { cueCount := r.cueCount, protect := mark } }, .done)
        else s.refuseWith .badValue
      | none => s.refuseWith .badValue

/-- A target or guard as its selector and fields, not judged yet. -/
inductive RawGuard where
  | climate (code : Nat)
  | above (p : Nat) (x : Int)
  | below (p : Nat) (x : Int)
  | fresh (p : Nat)
  deriving DecidableEq, Repr

structure RawCue where
  target : Option (Nat × Nat)
  level : Int
  fade : Nat
  delay : Nat
  guard : Option RawGuard
  skip : Nat
  deriving DecidableEq, Repr

/-- A target's selector and index; another selector makes the entry unreadable (log 14). -/
def readTarget : Reader (Nat × Nat) := do
  let selector ← readCode
  let index ← readCode
  if selector < 2 then return (selector, index) else failure

/-- A guard by its selector; another selector makes the entry unreadable (log 14). -/
def readGuard : Reader RawGuard := do
  let selector ← readCode
  match selector with
  | 0 => return .climate (← readCode)
  | 1 => return .above (← readCode) (← readInt)
  | 2 => return .below (← readCode) (← readInt)
  | 3 => return .fresh (← readCode)
  | _ => failure

def readCue : Reader RawCue := do
  return { target := ← readOpt readTarget, level := ← readInt, fade := ← readNat, delay := ← readNat
           guard := ← readOpt readGuard, skip := ← readNat }

/-- The target a cue may name: an in-use DIMMER or a group (R108). -/
def State.cueTarget (s : State) (t : Nat × Nat) : Option CueTarget :=
  if t.1 = 0 then
    ((asIndex 96 t.2).filter fun a => (s.cfg.acts[a]).inUse && (s.cfg.acts[a]).kind == .dimmer).map .actuator
  else (asIndex 16 t.2).map .group

def RawGuard.guard : RawGuard → Option Guard
  | .climate code => (ofCode climateOrder code).map .climateIs
  | .above p x => (asIndex 128 p).map fun p => .pointAbove p x
  | .below p x => (asIndex 128 p).map fun p => .pointBelow p x
  | .fresh p => (asIndex 128 p).map .pointFresh

/-- An optional field judged by what its value must be. -/
def judgeOpt {α β : Type} (f : α → Option β) : Option α → Option (Option β)
  | none => some none
  | some x => (f x).map some

/-- The cue, where every field lies in its range (R107, R108). -/
def State.cueEntry (s : State) (r : RawCue) : Option Cue :=
  match judgeOpt s.cueTarget r.target, judgeOpt RawGuard.guard r.guard with
  | some target, some guard =>
    if within r.level 0 1000 && within r.fade 0 6000 && within r.delay 0 6000 && within r.skip 0 15 then
      some { target := target, level := r.level, fade := r.fade, delay := r.delay, guard := guard, skip := r.skip }
    else none
  | _, _ => none

/-- WRITE_ENTRY on the CUE table; the high byte of the index is the scene (R108, R166). -/
def State.writeCue (s : State) (c : Channel) (index : Nat) (r : RawCue) : Verdict :=
  match asIndex 32 (index / 256), asIndex 16 (index % 256) with
  | some n, some i =>
    if c = .trunk ∧ (s.cfg.headers[n]).protect then s.refuseProtected
    else if s.sceneRunning n then s.refuseWith .inUse
    else
      match s.cueEntry r with
      | some cue => (s.updCfg fun k => { k with cues := k.cues.set n ((k.cues[n]).set i cue) }, .done)
      | none => s.refuseWith .badValue
  | _, _ => s.refuseWith .badIndex

/-! ### ZONE (R27, R47, R65, R83) -/

/-- A zone entry as its bytes carry it: the evaluation fields but for enabled, then the other chapters' fields. -/
structure RawZone where
  eval : EvalCfg
  protect : Nat
  heat : HeatCfg
  arb : ArbCfg
  cover : CoverCfg
  scenes : List (Option Nat)
  deriving DecidableEq, Repr

/-- The evaluation fields up to the mark, which is read beside them; enabled is no part of a write (R27). -/
def readEval : Reader EvalCfg := do
  return { period := ← readNat, rhOpen := ← readInt, rhNight := ← readInt, krh := ← readInt, mthr := ← readInt
           kc := ← readInt, mcrit := ← readInt, protect := false, enabled := false }

def readHeat : Reader HeatCfg := do
  return { openOffset := ← readInt, nightOffset := ← readInt, spMin := ← readInt, spMax := ← readInt, kp := ← readInt
           ki := ← readInt }

def readArb : Reader ArbCfg := do
  return { dwell := ← readNat, don := ← readInt, doff := ← readInt, voff := ← readInt, hvent := ← readInt
           fIdle := ← readInt, fNight := ← readInt, fHeat := ← readInt, fdMin := ← readInt, fdMax := ← readInt
           fVent := ← readInt, fPurge := ← readInt, dMin := ← readInt, dPurge := ← readInt }

/-- The cover and purge fields up to the three scenes. -/
def readCover : Reader CoverCfg := do
  return { prep := ← readNat, motion := ← readNat, detect := ← readNat, settle := ← readNat, waitA := ← readNat
           runB := ← readNat, fanLevel := ← readInt, openScene := none, coverWorkScene := none, nightScene := none }

def readZone : Reader RawZone := do
  return { eval := ← readEval, protect := ← readCode, heat := ← readHeat, arb := ← readArb, cover := ← readCover
           scenes := ← readMany (readOpt readCode) 3 }

/-- The ranges of R25. -/
def EvalCfg.ok (c : EvalCfg) : Bool :=
  within c.period 2 60 && within c.rhOpen 0 1000 && within c.rhNight 0 1000 && within c.krh 0 100 &&
    within c.mthr 0 300 && within c.kc 0 100 && within c.mcrit 0 c.mthr

/-- The ranges of R46 and the order of R47. -/
def HeatCfg.ok (c : HeatCfg) : Bool :=
  within c.openOffset (-50) 50 && within c.nightOffset (-50) 50 && within c.spMin (-400) 800 && within c.spMax (-400) 800 &&
    within c.kp 0 100 && within c.ki 0 255 && decide (c.spMin ≤ c.spMax)

/-- The ranges of R64 and the orders of R65. -/
def ArbCfg.ok (c : ArbCfg) : Bool :=
  within c.dwell 30 1800 && within c.don 1 1000 && within c.doff 0 c.don && within c.voff 0 300 && within c.hvent 0 1000 &&
    within c.fIdle 0 1000 && within c.fNight 0 1000 && within c.fHeat 0 1000 && within c.fdMin 0 1000 &&
    within c.fdMax c.fdMin 1000 && within c.fVent 0 1000 && within c.fPurge 0 1000 && within c.dMin 0 1000 &&
    within c.dPurge 0 1000

/-- The ranges of R83, but for the scenes. -/
def CoverCfg.ok (c : CoverCfg) : Bool :=
  within c.prep 10 300 && within c.motion 10 900 && within c.detect 10 300 && within c.settle 0 600 &&
    within c.waitA 5 480 && within c.runB 1 120 && within c.fanLevel 0 1000

/-- The zone's configuration as written, where every field lies in its range; `enabled` is the stored field (R27). -/
def RawZone.entry (r : RawZone) (enabled : Bool) : Option ZoneCfg :=
  match yesNoCode r.protect, r.scenes.map (judgeOpt (asIndex 32)) with
  | some mark, [some o, some w, some n] =>
    if r.eval.ok && r.heat.ok && r.arb.ok && r.cover.ok then
      some { eval := { r.eval with protect := mark, enabled := enabled }, heat := r.heat, arb := r.arb
             cover := { r.cover with openScene := o, coverWorkScene := w, nightScene := n } }
    else none
  | _, _ => none

/-- WRITE_ENTRY on the ZONE table (R27). -/
def State.writeZone (s : State) (c : Channel) (index : Nat) (r : RawZone) : Verdict :=
  match asIndex 4 index with
  | none => s.refuseWith .badIndex
  | some z =>
    if protectRefuses c (markByte (s.cfg.zones[z]).eval.protect) r.protect then s.refuseProtected
    else
      match r.entry (s.enabled z) with
      | some entry => (s.updCfg fun k => { k with zones := k.zones.set z entry }, .done)
      | none => s.refuseWith .badValue

/-! ### SATURATION (R28) and FILTER (R154) -/

def readSaturation : Reader (List Nat) := readMany readNat 17

/-- Strictly increasing (R28). -/
def increasing : List Nat → Bool
  | a :: b :: rest => decide (a < b) && increasing (b :: rest)
  | _ => true

/-- WRITE_ENTRY on the SATURATION table (R28). -/
def State.writeSaturation (s : State) (index : Nat) (values : List Nat) : Verdict :=
  if index = 0 then
    if h : values.length = 17 then
      if increasing values && values.all fun v => within v 1 65535 then
        (s.updCfg fun k => { k with saturation := ⟨values.toArray, by simp [h]⟩ }, .done)
      else s.refuseWith .badValue
    else s.refuseWith .badValue
  else s.refuseWith .badIndex

structure RawFilter where
  inUse : Nat
  lo : Nat
  hi : Nat
  dir : Nat
  action : Nat
  deriving DecidableEq, Repr

def readFilter : Reader RawFilter := do
  return { inUse := ← readCode, lo := ← readNat, hi := ← readNat, dir := ← readCode, action := ← readCode }

/-- The entry, where the in-use byte is yes or no; the other fields are stored as written, and those of an entry in use judged
afterwards (R154, log 13). -/
def RawFilter.entry (r : RawFilter) : Option FilterEntry := do
  return { inUse := ← yesNoCode r.inUse, lo := r.lo, hi := r.hi, dirField := BitVec.ofNat 8 r.dir
           actionField := BitVec.ofNat 8 r.action }

def FilterEntry.valid (f : FilterEntry) : Bool :=
  !f.inUse || (within f.lo 1 255 && within f.hi 1 255 && decide (f.lo ≤ f.hi) && within f.dirField.toNat 0 2 &&
    within f.actionField.toNat 0 1)

/-- WRITE_ENTRY on the FILTER table (R154). -/
def State.writeFilter (s : State) (index : Nat) (r : RawFilter) : Verdict :=
  match asIndex 16 index with
  | none => s.refuseWith .badIndex
  | some i =>
    match r.entry with
    | some entry =>
      if entry.valid then (s.updCfg fun k => { k with filter := k.filter.set i entry }, .done) else s.refuseWith .badValue
    | none => s.refuseWith .badValue

/-! ### PART (R133, R155, R168, R176, R181) -/

structure RawPart where
  own : Nat
  supervisor : Nat
  ackTimeout : Nat
  priority : PerJob Nat
  maxWait : PerJob Nat
  filterDefault : Nat
  run : Nat
  options : List (List (List Nat))
  captureMode : Nat
  captureThreshold : Nat
  ringFreeze : Nat
  deriving DecidableEq, Repr

/-- One number for each job, in the order HEAT, AIR, COVER, LIGHT. -/
def readPerJob : Reader (PerJob Nat) := do
  return { heat := ← readNat, air := ← readNat, cover := ← readNat, light := ← readNat }

def readPart : Reader RawPart := do
  return { own := ← readNat, supervisor := ← readNat, ackTimeout := ← readNat, priority := ← readPerJob
           maxWait := ← readPerJob, filterDefault := ← readCode, run := ← readCode
           options := ← readMany (readMany (readMany readCode 3) 6) 4, captureMode := ← readCode
           captureThreshold := ← readNat, ringFreeze := ← readCode }

/-- The options of one accumulator from their three codes. -/
def accOptionsOf (codes : List Nat) : Option AccOptions :=
  match codes.map yesNoCode with
  | [some e, some c, some f] => some { enabled := e, captureOnOverflow := c, freezeOnOverflow := f }
  | _ => none

/-- A list of exactly `n` items as a vector. -/
def vectorOf {α : Type} (n : Nat) (l : List α) : Option (Vector α n) :=
  if h : l.length = n then some ⟨l.toArray, by simp [h]⟩ else none

/-- The options of every zone and accumulator. -/
def allOptions (codes : List (List (List Nat))) : Option (Vector (Vector AccOptions 6) 4) := do
  let zones ← codes.mapM fun zone => do
    let options ← zone.mapM accOptionsOf
    vectorOf 6 options
  vectorOf 4 zones

def PerJob.all (p : PerJob Nat) (f : Nat → Bool) : Bool := f p.heat && f p.air && f p.cover && f p.light

/-- The record, where every code names a value. -/
def RawPart.record (r : RawPart) : Option PartRecord := do
  return { own := r.own, supervisor := r.supervisor, ackTimeout := r.ackTimeout, priority := r.priority
           maxWait := r.maxWait, filterDefault := ← ofCode filterActionOrder r.filterDefault
           run := ← ofCode runOrder r.run, accOptions := ← allOptions r.options
           captureMode := ← ofCode captureModeOrder r.captureMode, captureThreshold := r.captureThreshold
           ringFreeze := ← yesNoCode r.ringFreeze }

/-- The ranges of R133, R168 and R176. -/
def PartRecord.valid (p : PartRecord) : Bool :=
  within p.own 1 254 && within p.supervisor 1 255 && within p.ackTimeout 100 5000 &&
    (p.priority.all fun n => decide (n ≤ 6)) && (p.maxWait.all fun n => within n 1 15) && within p.captureThreshold 1 32

/-- Whether a transmitter has a forwarded telegram in transmission (R155, R156). -/
def Transmitter.forwards : Transmitter → Bool
  | .sending .forward _ _ => true
  | .waiting .forward _ _ => true
  | .free | .sending _ _ _ | .waiting _ _ _ => false

/-- Queued telegrams to a new own address are removed and counted; one in transmission is let run to its end (R155, log 21). -/
def ForwardQueue.removeTo (q : ForwardQueue) (own : Byte) (headInTransmission : Bool) : ForwardQueue :=
  let kept := if headInTransmission then q.items.take 1 else []
  let judged := if headInTransmission then q.items.drop 1 else q.items
  let left := judged.filter fun t => t.dest != own
  { items := kept ++ left, discards := saturate16 (q.discards + (judged.length - left.length)) }

/-- A change of own address removes the queued forwards to the new address (R155). -/
def Lines.ownChanged (l : Lines) (own : Byte) : Lines :=
  { l with ht := l.ht.removeTo own l.trunkTx.forwards, th := l.th.removeTo own l.hallTx.forwards }

/-- A write that passed replaces the PART record whole (R155, R168, R181). -/
def State.storePart (s : State) (p : PartRecord) : State :=
  let old := s.cfg.part
  let s := s.updPart fun _ => p
  let s := if p.own = old.own then s else s.updLines fun l => l.ownChanged s.own
  if p.captureThreshold = old.captureThreshold then s
  else s.updAcct fun a => { a with thresholdArmed := decide (a.captures.length < p.captureThreshold) }

/-- WRITE_ENTRY on the PART table (R168). -/
def State.writePart (s : State) (index : Nat) (r : RawPart) : Verdict :=
  if index = 0 then
    match r.record with
    | some p => if p.valid then (s.storePart p, .done) else s.refuseWith .badValue
    | none => s.refuseWith .badValue
  else s.refuseWith .badIndex

/-! ### The gathered bytes (R167) -/

/-- Decodes with the table's reader, then writes; too few or too many bytes are BAD_VALUE before any other check (R167). -/
def State.decodeThen {α : Type} (s : State) (r : Reader α) (bytes : List Byte) (write : α → Verdict) : Verdict :=
  match readAll r bytes with
  | some x => write x
  | none => s.refuseWith .badValue

/-- The gathered bytes are decoded as the table's entry and taken as its owning rule states (R167). -/
def State.writeEntry (s : State) (c : Channel) (table : TableId) (index : Nat) (bytes : List Byte) : Verdict :=
  match table with
  | .point => s.decodeThen readPoint bytes (s.writePoint c index)
  | .actuator => s.decodeThen readActuator bytes (s.writeActuator c index)
  | .group => s.decodeThen readGroup bytes (s.writeGroup index)
  | .sceneHeader => s.decodeThen readHeader bytes (s.writeHeader c index)
  | .cue => s.decodeThen readCue bytes (s.writeCue c index)
  | .zone => s.decodeThen readZone bytes (s.writeZone c index)
  | .saturation => s.decodeThen readSaturation bytes (s.writeSaturation index)
  | .filter => s.decodeThen readFilter bytes (s.writeFilter index)
  | .part => s.decodeThen readPart bytes (s.writePart index)

end Sys2Proof.Machine
end

