-- ==== Sys2Proof/Machine/Management.lean ====
section
/-! DEFINITION. The management unit (09): which request is taken next, to which row of the table it belongs, the checks common to
every request, staging, and the reply. The rows' own effects are in the files of the requests. -/

namespace Sys2Proof.Machine

/-! ### The next request (R163) -/

/-- Places of the reply queue that are taken: replies, and the place reserved for a commit's reply (R163). -/
def Management.repliesHeld (m : Management) : Nat := m.replies.length + m.commit.isSome.toNat

/-- The head of a channel's queue, if it may be taken: its channel is not occupied by a commit, the reply queue has room, and no
accepted RESTART is waiting (R163, R190). -/
def Management.takeable (m : Management) (c : Channel) : Option Telegram :=
  let occupied := match m.commit with | some k => k.channel == c | none => false
  if occupied || decide (4 ≤ m.repliesHeld) || m.restartPending then none else (m.requests c).head?

def Channel.other : Channel → Channel
  | .trunk => .service
  | .service => .trunk

/-- The request that the unit takes next; where both channels have one, from the channel other than the last served (R163). -/
def Management.next (m : Management) : Option (Channel × Telegram) :=
  let first := m.lastServed.other
  match m.takeable first with
  | some t => some (first, t)
  | none => (m.takeable m.lastServed).map fun t => (m.lastServed, t)

/-! ### Request kinds and their parameters (R150, R165, R169, R170) -/

/-- The request kinds, whose codes count from 1 (R150). -/
inductive ReqKind where
  | identify | readEntry | writeEntry | zoneCommand | sceneRequest | actuatorControl | readFlags | lineStatus | accumulator
  | capture | ring | watch | commitImage | restart | takeLocal | releaseLocal
  deriving DecidableEq, Repr

def reqKindOrder : List ReqKind :=
  [.identify, .readEntry, .writeEntry, .zoneCommand, .sceneRequest, .actuatorControl, .readFlags, .lineStatus, .accumulator,
    .capture, .ring, .watch, .commitImage, .restart, .takeLocal, .releaseLocal]

/-- The kind of a request's code (R150). -/
def ReqKind.ofCode (code : Byte) : Option ReqKind := if code = 0 then none else reqKindOrder[code.toNat - 1]?

/-- A request as it is taken: its channel, its telegram, and its parameters. -/
structure Request where
  channel : Channel
  telegram : Telegram
  kindByte : Byte
  params : List Byte
  deriving DecidableEq, Repr

def Request.of (c : Channel) (t : Telegram) : Request :=
  { channel := c, telegram := t, kindByte := t.payload.headD 0, params := t.payload.drop 1 }

def Request.kind (r : Request) : Option ReqKind := ReqKind.ofCode r.kindByte

/-- A parameter by its place; 0 where there is none. -/
def Request.param (r : Request) (i : Nat) : Nat := (r.params.getD i 0).toNat

/-- A watch as its bytes carry it. -/
structure RawWatch where
  armed : Nat
  target : Nat × Nat
  on : Nat
  condition : Option (Bool × Int)
  action : Nat
  deriving DecidableEq, Repr

/-- A condition by its selector, ABOVE 0 and BELOW 1 (R184); another selector is unreadable (log 14). -/
def readCondition : Reader (Bool × Int) := do
  let selector ← readCode
  let x ← readInt
  if selector = 0 then return (true, x) else if selector = 1 then return (false, x) else failure

def readWatch : Reader RawWatch := do
  return { armed := ← readCode, target := ← readTarget, on := ← readCode, condition := ← readOpt readCondition
           action := ← readCode }

/-- Whether the parameters of the accounting requests have the length their action requires; an unknown action is refused
here too (R165 row 2, R170). -/
def accountingShape (kind : ReqKind) (params : List Byte) : Bool :=
  match kind, params with
  | .accumulator, action :: rest =>
    if action = 0 then rest.length == 2 else if action = 1 then rest.length == 6
    else if action = 2 then rest.length == 1 else false
  | .capture, action :: rest =>
    if action = 0 then rest.length == 1 else if action = 1 then rest.isEmpty
    else if action = 2 then rest.length == 1 else false
  | .ring, action :: rest =>
    if action = 0 then rest.length == 2 else if action = 1 then rest.isEmpty else false
  | .watch, action :: rest =>
    if action = 0 then rest.length == 2
    else if action = 1 then (match rest with | _ :: fields => (readAll readWatch fields).isSome | [] => false)
    else if action = 2 ∨ action = 3 then rest.length == 1 else false
  | _, _ => false

/-- The parameters are neither shorter nor longer than the request requires (R165 row 2). -/
def shapeOk (kind : ReqKind) (params : List Byte) : Bool :=
  match kind with
  | .identify | .commitImage | .restart | .takeLocal | .releaseLocal => params.isEmpty
  | .readEntry => params.length == 4
  | .writeEntry => decide (6 ≤ params.length ∧ params.length ≤ 31)
  | .zoneCommand => params.length == 3
  | .sceneRequest | .actuatorControl | .readFlags => params.length == 2
  | .lineStatus => params.length == 1
  | .accumulator | .capture | .ring | .watch => accountingShape kind params

/-! ### Rows of the table (log 15) -/

/-- The row of a zone command's action, in the order of R169; an unknown action goes to the first. -/
def zoneCommandRow : Nat → Instr
  | 1 => .zoneDisable
  | 2 => .closeCovers
  | 3 => .openCovers
  | 4 => .clearFault
  | 5 => .resetControl
  | 6 => .resume
  | _ => .zoneEnable

def TableId.writeRow : TableId → Instr
  | .point => .writeEntryPoint
  | .actuator => .writeEntryActuator
  | .group => .writeEntryGroup
  | .sceneHeader => .writeEntrySceneHeader
  | .cue => .writeEntryCue
  | .zone => .writeEntryZone
  | .saturation => .writeEntrySaturation
  | .filter => .writeEntryFilter
  | .part => .writeEntryPart

/-- The row of a WRITE_ENTRY: a segment with the last-segment mark belongs to its table's row, any other to the row of
segments (R167). -/
def writeEntryRow (r : Request) : Instr :=
  if r.param 4 = 1 then
    match ofCode tableOrder (r.param 0) with
    | some table => table.writeRow
    | none => .writeEntrySegment
  else .writeEntrySegment

/-- The row by which a request is taken: its kind and action; parameters of a wrong length go to the kind's first row. -/
def Request.row (r : Request) : Instr :=
  match r.kind with
  | none => .unknownRequest
  | some kind =>
    let action := r.param 0
    let fits := shapeOk kind r.params
    match kind with
    | .identify => .identify
    | .readEntry => .readEntry
    | .writeEntry => if fits then writeEntryRow r else .writeEntrySegment
    | .zoneCommand => if fits then zoneCommandRow (r.param 1) else .zoneEnable
    | .sceneRequest => .sceneRequest
    | .actuatorControl => if fits && r.param 1 == 1 then .actuatorEnable else .actuatorDisable
    | .readFlags => .readFlags
    | .lineStatus => .lineStatus false false
    | .accumulator =>
      if fits && action == 1 then .accumulatorPreload else if fits && action == 2 then .accumulatorSetRun
      else .accumulatorRead
    | .capture => if fits && action == 1 then .captureCount else if fits && action == 2 then .captureRead else .captureTake
    | .ring => if fits && action == 1 then .ringUnfreeze else .ringRead
    | .watch =>
      if fits && action == 1 then .watchWrite else if fits && action == 2 then .watchArm
      else if fits && action == 3 then .watchDisarm else .watchRead
    | .commitImage => .commitImage
    | .restart => .restart
    | .takeLocal => .takeLocal
    | .releaseLocal => .releaseLocal

/-! ### The common checks (R165, R171) -/

/-- Whether a mask names a flag of a selector: six part flags, three flags of a zone (R170, R171, R174). -/
def maskNamesFlag (selector mask : Nat) : Bool :=
  if selector = 255 then mask % 64 != 0 else if selector < 4 then mask % 8 != 0 else false

/-- A changing request (R171, R179, R182, R183, R184). -/
def Request.changing (r : Request) : Bool :=
  match r.kind with
  | some .writeEntry | some .zoneCommand | some .sceneRequest | some .actuatorControl | some .commitImage | some .restart
  | some .releaseLocal => true
  | some .readFlags => maskNamesFlag (r.param 0) (r.param 1)
  | some .accumulator => r.param 0 != 0
  | some .capture => r.param 0 != 1
  | some .ring => r.param 0 != 0
  | some .watch => r.param 0 != 0
  | some .identify | some .readEntry | some .lineStatus | some .takeLocal | none => false

/-- The requests that wait for no other channel's commit (R165 row 4). -/
def Request.refusedInCommit (r : Request) : Bool :=
  match r.kind with
  | some .writeEntry | some .commitImage | some .restart => true
  | some .identify | some .readEntry | some .zoneCommand | some .sceneRequest | some .actuatorControl | some .readFlags
  | some .lineStatus | some .accumulator | some .capture | some .ring | some .watch | some .takeLocal | some .releaseLocal
  | none => false

/-- SCENE_REQUEST, and ZONE_COMMAND with an action other than ENABLE (R165 row 5). -/
def Request.needsConfigured (r : Request) : Bool :=
  match r.kind with
  | some .sceneRequest => true
  | some .zoneCommand => r.param 1 != 0
  | some .identify | some .readEntry | some .writeEntry | some .actuatorControl | some .readFlags | some .lineStatus
  | some .accumulator | some .capture | some .ring | some .watch | some .commitImage | some .restart | some .takeLocal
  | some .releaseLocal | none => false

/-- A commit from the other channel is in flight (R165 row 4). -/
def State.otherCommit (s : State) (c : Channel) : Bool :=
  match s.mgmt.commit with
  | some k => k.channel != c
  | none => false

/-- The status of the first common check that fails (R165 rows 1 to 5). -/
def State.commonCheck (s : State) (r : Request) : Option Status :=
  match r.kind with
  | none => some .unknownRequest
  | some kind =>
    if !shapeOk kind r.params then some .badValue
    else if s.mgmt.localMode && r.channel == .trunk && r.changing then some .reserved
    else if s.otherCommit r.channel && r.refusedInCommit then some .busy
    else if !s.configured && !s.anyEnabled && r.needsConfigured then some .unconfigured
    else none

/-! ### Flags of a selector (R43, R174) -/

/-- The flags that READ_FLAGS returns for a selector; none for a selector outside the lists (R43, R174, log 10). -/
def State.flagBytes (s : State) (selector : Nat) : Option (List Byte) :=
  if selector = 255 then some [s.mgmt.flags.byte]
  else (asIndex 4 selector).map fun z =>
    [(s.zones[z]).stickyByte, (s.zones[z]).indicatorByte, (s.zones[z]).heldByte]

/-! ### Taking and answering (R163, R164) -/

/-- Whether a reply is queued at the end of the take, and whether it is the DONE of an accepted RESTART (R163, R190). -/
inductive ReplyMode where
  | now | later | restart
  deriving DecidableEq, Repr

/-- What a taken request comes to: the state after it, its status, its results, and when its reply is queued. -/
structure Answer where
  state : State
  status : Status
  results : List Byte
  mode : ReplyMode
  deriving DecidableEq, Repr

/-- An answer without results, its reply queued at once. -/
def Answer.of (v : Verdict) : Answer := { state := v.1, status := v.2, results := [], mode := .now }

/-- A refusal that changes nothing. -/
def State.refuse (s : State) (status : Status) : Answer := .of (s, status)

/-- DONE without results. -/
def State.done (s : State) : Answer := .of (s, .done)

/-- DONE with results. -/
def State.doneWith (s : State) (results : List Byte) : Answer :=
  { state := s, status := .done, results := results, mode := .now }

/-- The results of a segmented reading, or BAD_VALUE for a segment that is not there (R166, R170). -/
def State.answerSegment (s : State) (bytes : List Byte) (segment : Nat) : Answer :=
  match segmented bytes segment with
  | some results => s.doneWith results
  | none => s.refuse .badValue

def State.setStaging (s : State) (c : Channel) (g : Option Staging) : State :=
  match c with
  | .trunk => s.updMgmt fun m => { m with trunkStaging := g }
  | .service => s.updMgmt fun m => { m with serviceStaging := g }

def Management.staging (m : Management) : Channel → Option Staging
  | .trunk => m.trunkStaging
  | .service => m.serviceStaging

/-- A request refused by the common checks: a WRITE_ENTRY empties its staging record (R167), a READ_FLAGS refused RESERVED
carries the flags (R171). -/
def State.commonRefusal (s : State) (r : Request) (status : Status) : Answer :=
  match r.kind with
  | some .writeEntry => (s.setStaging r.channel none).refuse status
  | some .readFlags =>
    if status = .reserved then
      { state := s, status := status, results := (s.flagBytes (r.param 0)).getD [], mode := .now }
    else s.refuse status
  | some _ | none => s.refuse status

/-- The reply telegram of a request (R150, R164). -/
def State.replyTelegram (s : State) (dest : Byte) (tag : BitVec 4) (kindByte : Byte) (status : Status) (results : List Byte) :
    Telegram :=
  { dest := dest, src := s.own, kind := kindReply, tag := tag, payload := kindByte :: named statusOrder status ++ results }

/-- A reply joins the tail of the reply queue (R164). -/
def State.queueReply (s : State) (r : Reply) : State := s.updMgmt fun m => { m with replies := m.replies ++ [r] }

/-- The reply to a taken request, from the own address as it stands when the reply is queued (R164). -/
def Answer.reply (a : Answer) (r : Request) : State :=
  let t := a.state.replyTelegram r.telegram.src r.telegram.tag r.kindByte a.status a.results
  match a.mode with
  | .later => a.state
  | .now => a.state.queueReply { channel := r.channel, telegram := t, restart := false }
  | .restart => a.state.queueReply { channel := r.channel, telegram := t, restart := true }

/-- The taken request leaves its queue, and its channel becomes the last served (R163). -/
def State.popRequest (s : State) (c : Channel) : State :=
  (s.updRequests c fun q => q.drop 1).updMgmt fun m => { m with lastServed := c }

/-- The request that the unit takes next, with its channel. -/
def State.nextRequest (s : State) : Option Request := s.mgmt.next.map fun p => .of p.1 p.2

/-- The take of a request, whole: the common checks, the request's own rule, the reply (R163 to R165). -/
def State.take (s : State) (r : Request) (own : Request → State → Answer) : State :=
  let s := s.popRequest r.channel
  let answer := match s.commonCheck r with
    | some status => s.commonRefusal r status
    | none => own r s
  answer.reply r

/-- A request row: it takes the next request if that is a request of the row, and does not happen otherwise (log 1). -/
def State.serve (s : State) (row : Instr) (own : Request → State → Answer) : State :=
  match s.nextRequest with
  | some r => if r.row = row then s.take r own else s
  | none => s

/-! ### WRITE_ENTRY (R167) -/

/-- The table index, 2 bytes (R166). -/
def Request.tableIndex (r : Request) : Nat := r.param 1 * 256 + r.param 2

/-- The staging record after a segment, none where the segment does not fit (R167). -/
def stage (held : Option Staging) (table index segment : Nat) (bytes : List Byte) : Option Staging :=
  if segment = 0 then some { table := table, index := index, next := 1, bytes := bytes }
  else
    match held with
    | some g =>
      if g.table = table ∧ g.index = index ∧ g.next = segment then
        some { g with next := g.next + 1, bytes := g.bytes ++ bytes }
      else none
    | none => none

/-- A segment of a WRITE_ENTRY that passed the common checks (R167; an unknown table code: log 14). -/
def writeSegment (r : Request) (s : State) : Answer :=
  let emptied := s.setStaging r.channel none
  match ofCode tableOrder (r.param 0) with
  | none => emptied.refuse .badIndex
  | some table =>
    match stage (s.mgmt.staging r.channel) (r.param 0) r.tableIndex (r.param 3) (r.params.drop 5) with
    | none => emptied.refuse .badValue
    | some g =>
      if r.param 4 = 0 then (s.setStaging r.channel (some g)).done
      else if r.param 4 = 1 then .of (emptied.writeEntry r.channel table r.tableIndex g.bytes)
      else emptied.refuse .badValue

end Sys2Proof.Machine
end

