-- ==== Sys2Proof/Machine/Accounts.lean ====
section
/-! DEFINITION. The meanings of the accounting requests: accumulators, capture buffer, decision ring and watches (10). -/

namespace Sys2Proof.Machine

/-! ### ACCUMULATOR (R179) -/

/-- ACCUMULATOR READ. -/
def accumulatorReadOwn (r : Request) (s : State) : Answer :=
  match asIndex 4 (r.param 1) with
  | none => s.refuse .badIndex
  | some z => s.answerSegment (s.accumulatorBytes z) (r.param 2)

def execAccumulatorRead (s : State) : Host.Outcome State Fault Refusal :=
  .next (s.serve .accumulatorRead accumulatorReadOwn)

/-- A 32-bit parameter from its first byte's place on (R170). -/
def Request.wordParam (r : Request) (i : Nat) : BitVec 32 :=
  BitVec.ofNat 32 (((r.param i * 256 + r.param (i + 1)) * 256 + r.param (i + 2)) * 256 + r.param (i + 3))

/-- ACCUMULATOR PRELOAD. -/
def accumulatorPreloadOwn (r : Request) (s : State) : Answer :=
  match asIndex 4 (r.param 1), asIndex 6 (r.param 2) with
  | some z, some a => (s.setAcc z a { value := r.wordParam 3, overflowed := false }).done
  | _, _ => s.refuse .badIndex

def execAccumulatorPreload (s : State) : Host.Outcome State Fault Refusal :=
  .next (s.serve .accumulatorPreload accumulatorPreloadOwn)

/-- ACCUMULATOR SET_RUN: on 0, off 1 (log 8). -/
def accumulatorSetRunOwn (r : Request) (s : State) : Answer :=
  match ofCode runOrder (r.param 1) with
  | some run => (s.updPart fun p => { p with run := run }).done
  | none => s.refuse .badValue

def execAccumulatorSetRun (s : State) : Host.Outcome State Fault Refusal :=
  .next (s.serve .accumulatorSetRun accumulatorSetRunOwn)

/-! ### CAPTURE (R182) -/

/-- CAPTURE TAKE. -/
def captureTakeOwn (r : Request) (s : State) : Answer :=
  match asIndex 4 (r.param 1) with
  | none => s.refuse .badIndex
  | some z => (s.capture z .requested).done

def execCaptureTake (s : State) : Host.Outcome State Fault Refusal := .next (s.serve .captureTake captureTakeOwn)

/-- CAPTURE COUNT: the count, the mode, the threshold and threshold-armed. R179 carries the results of the reading actions in segments
and R182 gives COUNT no segment: the model sends the bare fields, without a segment number or a number of segments (log 9). -/
def captureCountOwn (_ : Request) (s : State) : Answer :=
  s.doneWith (byteField s.acct.captures.length ++ named captureModeOrder s.cfg.part.captureMode ++
    natField s.cfg.part.captureThreshold ++ yesNo s.acct.thresholdArmed)

def execCaptureCount (s : State) : Host.Outcome State Fault Refusal := .next (s.serve .captureCount captureCountOwn)

def State.setReadOut (s : State) (c : Channel) (l : List CaptureRecord) : State :=
  match c with
  | .trunk => s.updAcct fun a => { a with trunkReadOut := l }
  | .service => s.updAcct fun a => { a with serviceReadOut := l }

def Accounting.readOut (a : Accounting) : Channel → List CaptureRecord
  | .trunk => a.trunkReadOut
  | .service => a.serviceReadOut

/-- Up to the 2 oldest records move to the channel's read-out record; a removal that leaves the count below the threshold makes
threshold-armed yes (R181, R182). -/
def State.removeCaptures (s : State) (c : Channel) : State :=
  let removed := s.acct.captures.take 2
  let left := s.acct.captures.drop 2
  let s := s.updAcct fun a =>
    { a with
      captures := left
      thresholdArmed := a.thresholdArmed || (!removed.isEmpty && decide (left.length < s.cfg.part.captureThreshold)) }
  s.setReadOut c removed

/-- CAPTURE READ. -/
def captureReadOwn (r : Request) (s : State) : Answer :=
  let s := if r.param 1 = 0 then s.removeCaptures r.channel else s
  s.answerSegment (captureListBytes (s.acct.readOut r.channel)) (r.param 1)

def execCaptureRead (s : State) : Host.Outcome State Fault Refusal := .next (s.serve .captureRead captureReadOwn)

/-! ### RING (R183) -/

/-- RING READ. -/
def ringReadOwn (r : Request) (s : State) : Answer :=
  if r.param 1 < 16 then s.answerSegment (s.ringBytes (r.param 1)) (r.param 2) else s.refuse .badIndex

def execRingRead (s : State) : Host.Outcome State Fault Refusal := .next (s.serve .ringRead ringReadOwn)

/-- RING UNFREEZE. -/
def ringUnfreezeOwn (_ : Request) (s : State) : Answer := (s.updAcct fun a => { a with frozen := false }).done

def execRingUnfreeze (s : State) : Host.Outcome State Fault Refusal := .next (s.serve .ringUnfreeze ringUnfreezeOwn)

/-! ### WATCH (R184) -/

/-- The index check of a watch request. -/
def watchChecked (effect : WatchIx → State → Answer) (r : Request) (s : State) : Answer :=
  match asIndex 4 (r.param 1) with
  | none => s.refuse .badIndex
  | some w => effect w s

def State.setWatch (s : State) (w : WatchIx) (x : Watch) : State := s.updCfg fun c => { c with watches := c.watches.set w x }

/-- WATCH READ. -/
def watchReadOwn (r : Request) (s : State) : Answer :=
  watchChecked (fun w s => s.answerSegment (s.cfg.watches[w]).bytes (r.param 2)) r s

def execWatchRead (s : State) : Host.Outcome State Fault Refusal := .next (s.serve .watchRead watchReadOwn)

/-- A target by its selector: POINT 0..127, ACTUATOR 0..95. -/
def watchTarget (t : Nat × Nat) : Option WatchTarget :=
  if t.1 = 0 then (asIndex 128 t.2).map .point else (asIndex 96 t.2).map .actuator

/-- A watch's on suits its target (R184). -/
def onSuits : WatchOn → WatchTarget → Bool
  | .arrival, .actuator _ => false
  | .dispatch, .point _ => false
  | _, _ => true

/-- The watch as written, where every field lies within its values (R184). -/
def RawWatch.watch (r : RawWatch) : Option Watch := do
  let armed ← yesNoCode r.armed
  let target ← watchTarget r.target
  let on ← ofCode watchOnOrder r.on
  let action ← ofCode watchActionOrder r.action
  let condition := r.condition.map fun c => if c.1 then WatchCondition.above c.2 else WatchCondition.below c.2
  if onSuits on target then
    some { armed := armed, target := target, on := on, condition := condition, action := action }
  else none

/-- WATCH WRITE. -/
def watchWriteOwn (r : Request) (s : State) : Answer :=
  watchChecked (fun w s =>
    match (readAll readWatch (r.params.drop 2)).bind RawWatch.watch with
    | some x => (s.setWatch w x).done
    | none => s.refuse .badValue) r s

def execWatchWrite (s : State) : Host.Outcome State Fault Refusal := .next (s.serve .watchWrite watchWriteOwn)

/-- ARM and DISARM set armed. -/
def watchArmOwn (armed : Bool) (r : Request) (s : State) : Answer :=
  watchChecked (fun w s => (s.setWatch w { s.cfg.watches[w] with armed := armed }).done) r s

def execWatchArm (s : State) : Host.Outcome State Fault Refusal := .next (s.serve .watchArm (watchArmOwn true))

def execWatchDisarm (s : State) : Host.Outcome State Fault Refusal := .next (s.serve .watchDisarm (watchArmOwn false))

end Sys2Proof.Machine
end

