-- ==== Sys2Proof/Machine/Evaluation.lean ====
section
/-! DEFINITION. The zone evaluation: stages 1 to 6 (02), the heating loop, stages 7 to 9 (03), and what closes an evaluation (10). -/

namespace Sys2Proof.Machine

/-! ### Stage 1: aggregates (R20, R21, R34) -/

/-- The fresh members' values of a zone's aggregate (R20). -/
def State.members (s : State) (kind : PointKind) (zone : PointZone) : List Int :=
  (indices 128).filterMap fun p =>
    let c := s.cfg.points[p]
    if c.kind == kind && c.zone == zone then s.freshValue p else none

/-- The mean, truncated toward zero; none of no members (R20). -/
def mean (l : List Int) : Option Int := if l.isEmpty then none else some (l.sum.tdiv l.length)

/-- An aggregate takes what was formed, or is held at its last formed value (R21). -/
def Aggregate.form (a : Aggregate) : Option Int → Aggregate
  | some v => { last := some v, held := false }
  | none => { a with held := a.last.isSome }

/-- Stage 1 on the zone record (R34). -/
def State.stage1 (s : State) (z : ZoneIx) (e : EvalRt) : EvalRt :=
  let e := { e with
    ta := e.ta.form (mean (s.members .airTemp (.zone z)))
    rh := e.rh.form (mean (s.members .airRh (.zone z)))
    tw := e.tw.form (mean (s.members .waterTemp (.zone z)))
    tg := e.tg.form (s.members .glazingTemp (.zone z)).min?
    tout := e.tout.form (mean (s.members .outdoorTemp .all)) }
  { e with noAirData := e.ta.last.isNone || e.rh.last.isNone }

/-! ### Stages 2 to 4: pressures and dew point (R35 to R37) -/

/-- Entry i of the saturation table. -/
def satAt (sat : Vector Nat 17) (i : Nat) : Int := ((sat[i]?.getD 0 : Nat) : Int)

/-- The clamped air temperature (R35). -/
def clampedAir (ta : Int) : Int := clamp ta (-200) 600

/-- The saturation pressure at a clamped temperature (R35). -/
def saturationPressure (sat : Vector Nat 17) (tc : Int) : Int :=
  let k := (tc + 200).toNat
  let i := if k / 50 = 16 then 15 else k / 50
  let f : Int := if k / 50 = 16 then 50 else ((k - 50 * (k / 50) : Nat) : Int)
  satAt sat i + ((satAt sat (i + 1) - satAt sat i) * f).tdiv 50

/-- The vapour pressure, to the nearest pascal (R36). -/
def vapourPressure (psat rh : Int) : Int := (psat * rh + 500).tdiv 1000

/-- The largest index in 0..15 whose entry does not exceed pv (R37). -/
def satSegment (sat : Vector Nat 17) (pv : Int) : Nat :=
  ((List.range 16).reverse.find? fun j => decide (satAt sat j ≤ pv)).getD 0

/-- The dew point (R37). -/
def dewPoint (sat : Vector Nat 17) (pv : Int) : Int :=
  if pv < satAt sat 0 then -200
  else if satAt sat 16 ≤ pv then 600
  else
    let j := satSegment sat pv
    (-200) + 50 * (j : Int) + ((pv - satAt sat j) * 50).tdiv (satAt sat (j + 1) - satAt sat j)

/-- Stages 2 to 4 on the zone record, with Ta and RH present (R35 to R37). -/
def stages2to4 (sat : Vector Nat 17) (ta rh : Int) (e : EvalRt) : EvalRt :=
  let tc := clampedAir ta
  let psat := saturationPressure sat tc
  let pv := vapourPressure psat rh
  { e with
    tc := some tc, psat := some psat, pv := some pv, td := some (dewPoint sat pv)
    tClamp := e.tClamp || tc != ta, dewLow := e.dewLow || decide (pv < satAt sat 0) }

/-! ### Stages 5 and 6: margin, drying demand, CRIT (R39 to R41) -/

/-- Stage 5 (R39). -/
def stage5 (e : EvalRt) : EvalRt :=
  { e with
    margin := match e.tg.last, e.td with | some tg, some td => some (tg - td) | _, _ => none
    heldMargin := e.tg.held }

/-- CRIT after a judgement on the margin (R41). -/
def critNext (c : EvalCfg) (crit : Bool) (margin : Option Int) : Bool :=
  match margin with
  | none => crit
  | some m => if crit then !decide (c.mcrit + 5 ≤ m) else decide (m < c.mcrit)

/-- The humidity term (R40). -/
def dryingRh (c : EvalCfg) (night : Bool) (rh : Int) : Int :=
  clamp ((rh - (if night then c.rhNight else c.rhOpen)) * c.krh) 0 1000

/-- The condensation term (R40). -/
def dryingCond (c : EvalCfg) (margin : Option Int) : Int :=
  match margin with
  | some m => clamp ((c.mthr - m) * c.kc) 0 1000
  | none => 0

/-- Stage 6 (R40, R41). -/
def stage6 (c : EvalCfg) (night : Bool) (rh : Int) (e : EvalRt) : EvalRt :=
  let dRh := dryingRh c night rh
  let dCond := dryingCond c e.margin
  { e with dRh := dRh, dCond := dCond, d := max dRh dCond, crit := critNext c e.crit e.margin }

/-- Stages 2 to 6, skipped when Ta or RH is absent (R34). -/
def stages2to6 (c : EvalCfg) (sat : Vector Nat 17) (night : Bool) (e : EvalRt) : EvalRt :=
  match e.ta.last, e.rh.last with
  | some ta, some rh => stage6 c night rh (stage5 (stages2to4 sat ta rh e))
  | _, _ => e

/-! ### Stages 7 and 8: setpoint and heating demand (R49 to R56) -/

/-- Stage 7 (R49 to R51). -/
def stage7 (c : HeatCfg) (night : Bool) (tw : Option Int) (h : HeatRt) : HeatRt :=
  match tw with
  | some tw =>
    { h with spa := some (clamp (tw + (if night then c.nightOffset else c.openOffset)) c.spMin c.spMax), heldSetpoint := false }
  | none =>
    { h with
      spa := some (match h.spa with | some spa => clamp spa c.spMin c.spMax | none => c.spMin)
      heldSetpoint := true }

/-- The candidate integrator after conditional integration (R54). -/
def candidateKept (i candidate pterm e : Int) : Int :=
  let u := pterm + candidate.tdiv 64
  if (1000 < u ∧ 0 < e) ∨ (u < 0 ∧ e < 0) then i else candidate

/-- Whether the candidate sets INTEG_LIMIT (R55). -/
def reachesLimit (i candidate : Int) : Bool :=
  decide (candidate < 0) || decide (64000 < candidate) ||
    ((candidate == 0 || candidate == 64000) && !(i == 0 || i == 64000))

/-- Stage 8, when Ta and the setpoint are present (R52 to R56). -/
def stage8 (c : HeatCfg) (ta : Option Int) (h : HeatRt) : HeatRt :=
  match h.spa, ta with
  | some spa, some ta =>
    let e := clamp (spa - ta) (-1000) 1000
    let pterm := c.kp * e
    let candidate := candidateKept h.i (h.i + c.ki * e) pterm e
    let i := clamp candidate 0 64000
    { h with
      e := some e, i := i, integLimit := h.integLimit || reachesLimit h.i candidate
      h := clamp (pterm + i.tdiv 64) 0 1000 }
  | _, _ => h

/-! ### Stage 9: heating valves (R57) -/

/-- The position requested of a heating valve at a demand (R57). -/
def valvePosition (c : ActCfg) (h : Int) : Int := c.min + ((c.max - c.min) * h).tdiv 1000

/-- Stage 9: one request of each heating valve of the zone, in ascending index (R57, R58). -/
def State.stage9 (s : State) (z : ZoneIx) : State :=
  let h := (s.zones[z]).heat.h
  s.requestAll .heatValve z fun c => valvePosition c h

/-! ### The evaluation (R30, R31) -/

/-- Stages 1 to 8 on the zone record, with the timer's restart and the evaluation's time (R30, R31). -/
def State.evaluated (s : State) (z : ZoneIx) : ZoneRt :=
  let r := s.zones[z]
  let c := s.cfg.zones[z]
  let night := r.cover.state == .covered
  let e := stages2to6 c.eval s.cfg.saturation night (s.stage1 z r.eval)
  { r with
    eval := { e with timer := .seconds c.eval.period, startedPeriod := c.eval.period, lastTime := some s.now }
    heat := stage8 c.heat e.ta.last (stage7 c.heat night e.tw.last r.heat) }

/-- An optional number of a notice's detail; present wherever its notice is raised. -/
def presentNum : Option Int → List Byte
  | some x => numField x
  | none => []

/-- Entering CRIT raises CONDENSATION (R41). -/
def State.raiseCondensation (s : State) (z : ZoneIx) : State :=
  let e := (s.zones[z]).eval
  s.raise .condensation (zoneByte z)
    (presentNum e.td ++ presentNum e.tg.last ++ presentNum e.margin ++ numField (s.cfg.zones[z]).eval.mcrit)

/-- The seconds offered to MARGIN_LOW_S: the period with which the expired timer was started, when M lies below Mthr (R176). -/
def marginLow (c : EvalCfg) (e : EvalRt) (period : Nat) : Option Nat :=
  match e.margin with
  | some m => if m < c.mthr then some period else none
  | none => none

/-- The additions that close an evaluation, in the order of R177. -/
def State.offerSums (s : State) (z : ZoneIx) (period : Nat) : State :=
  let r := s.zones[z]
  let s := s.offer z accHeatSum r.heat.h.toNat
  let s := s.offer z accDrySum r.eval.d.toNat
  match marginLow (s.cfg.zones[z]).eval r.eval period with
  | some seconds => s.offer z accMarginLow seconds
  | none => s

/-- An armed capture is taken, and the arming clears (R178). -/
def State.armedCapture (s : State) (z : ZoneIx) : State :=
  match (s.zones[z]).arming with
  | some a => (s.capture z (.accOverflow a)).updZone z fun r => { r with arming := none }
  | none => s

/-- An evaluation of a zone, whole, in the order of R31. -/
def State.evaluate (s : State) (z : ZoneIx) : State :=
  let before := (s.zones[z]).eval
  let next := s.evaluated z
  let s := s.updZone z fun _ => next
  let s := if next.eval.crit && !before.crit then s.raiseCondensation z else s
  let s := s.stage9 z
  let s := s.takeDecision z false
  let s := s.offerSums z before.startedPeriod
  s.armedCapture z

end Sys2Proof.Machine
end

