-- ==== Sys2Proof/Machine/Boot.lean ====
section
/-! DEFINITION. The image store and start-up (11): the load, the block reset, the zones' start, the end of a commit; the meanings of
POWER_ON, RESTART_BEGIN and COMMIT_COMPLETE. -/

namespace Sys2Proof.Machine

/-! ### The load (R187, R189 step 1) -/

/-- The image state that a load finds (R187). -/
def Image.state : Image → ImageState
  | .blank => .blank
  | .torn => .failed
  | .stored contents check => if imageCheck contents = check then .passed else .failed

/-- The configuration that a load gives (R189 step 1). -/
def Image.config (i : Image) : ConfigData :=
  match i, i.state with
  | .stored contents _, .passed => contents
  | .stored _ _, .blank | .stored _ _, .failed | .blank, _ | .torn, _ => .unconfigured

/-! ### Block reset and zones (R189 steps 2 and 3) -/

/-- Load and block reset; the image, the queue of waiting commands and, at RESTART, the trunk line-active flag are kept
(R189, R190; log 23). -/
def State.loaded (s : State) (image : Image) (trunkActive : Bool) : State :=
  let cfg := image.config
  { cfg := cfg, points := .replicate 128 .reset, acts := .replicate 96 .reset, zones := cfg.zones.map .reset
    disp := .reset, lines := .reset trunkActive, mgmt := .reset, acct := .reset, image := image
    imageState := image.state, configured := image.state == .passed, now := 0, millis := 0, pending := s.pending }

/-- An enabled zone's cover sequencer is in DETECT: its working drives are formed and its position is judged (R85, R87). -/
def State.startZone (s : State) (z : ZoneIx) : State :=
  if s.enabled z then
    let formed := s.formDrives z
    (s.updCover z fun c => { c with drives := formed }).judgePosition z
  else s

/-- A start from an image (R189, R190); the zones start in ascending order (log 18). -/
def State.boot (s : State) (image : Image) (trunkActive : Bool) : State :=
  (indices 4).foldl State.startZone (s.loaded image trunkActive)

/-- The image after a power loss or RESET: a commit in flight leaves it failing its check (R188). -/
def State.imageAfterLoss (s : State) : Image := if s.mgmt.commit.isSome then .torn else s.image

/-- POWER_ON: power-on or assertion of the RESET input (R188, R189). -/
def execPowerOn (s : State) : Host.Outcome State Fault Refusal := .next (s.boot s.imageAfterLoss false)

/-- The DONE of an accepted RESTART has left the reply queue (R190). -/
def State.restartReady (s : State) : Bool := s.mgmt.restartPending && !(s.mgmt.replies.any fun r => r.restart)

/-- RESTART_BEGIN (R190). -/
def execRestartBegin (s : State) : Host.Outcome State Fault Refusal :=
  .next (if s.restartReady then s.boot s.image s.lines.trunkActive else s)

/-! ### The end of a commit (R188) -/

/-- The reply and the notice of a completed commit, and the image written (R188). -/
def State.completeCommit (s : State) (k : Commit) : State :=
  let check := imageCheck k.copy
  let t := s.replyTelegram k.requester k.tag 13 .done []
  let s := ({ s with image := .stored k.copy check }).queueReply { channel := k.channel, telegram := t, restart := false }
  let s := s.raise .commitDone 255 (wordField check)
  s.updMgmt fun m => { m with commit := none }

/-- COMMIT_COMPLETE: the write of the image ends; with no commit in flight it does not happen (R188, log 1). -/
def execCommitComplete (s : State) : Host.Outcome State Fault Refusal :=
  .next (match s.mgmt.commit with | some k => s.completeCommit k | none => s)

end Sys2Proof.Machine
end

