-- ==== Sys2Proof/Machine/Events.lean ====
section
/-! DEFINITION. The meanings of line events, timer expiries and the job arbiter. An expiry whose timer is not due does not happen and
changes nothing (log 1). -/

namespace Sys2Proof.Machine

/-! ### Line events (08, 09) -/

/-- RECEIVED_UNIT (R151 to R155). -/
def execReceivedUnit (line : Line) (heard : List RxByte) (s : State) : Host.Outcome State Fault Refusal :=
  .next (s.receive line heard)

/-- SERVICE_UNIT (R162, R172). -/
def execServiceUnit (heard : List RxByte) (s : State) : Host.Outcome State Fault Refusal := .next (s.receiveService heard)

/-- HALL_TX_CHOOSE (R156, R157). -/
def execHallTxChoose (s : State) : Host.Outcome State Fault Refusal := .next s.hallChoose

/-- TRUNK_TX_CHOOSE (R156, R158, R159). -/
def execTrunkTxChoose (s : State) : Host.Outcome State Fault Refusal := .next s.trunkChoose

/-- TX_ATTEMPT_END (R156). -/
def execTxAttemptEnd (line : Line) (readBack : List RxByte) (s : State) : Host.Outcome State Fault Refusal :=
  .next (s.attemptEnd line readBack)

/-- TX_RETRY_ATTEMPT (R156). -/
def execTxRetryAttempt (line : Line) (quietByteTimes : Nat) (s : State) : Host.Outcome State Fault Refusal :=
  .next (s.retryAttempt line quietByteTimes)

/-- SERVICE_REPLY_SENT: the oldest service-port reply leaves the queue (R164). -/
def execServiceReplySent (s : State) : Host.Outcome State Fault Refusal :=
  .next (s.updMgmt fun m => { m with replies := removeReply .service m.replies })

/-! ### Points and zones (01, 02, 04, 05) -/

/-- STALE_EXPIRY (R18). -/
def execStaleExpiry (point : PointIx) (s : State) : Host.Outcome State Fault Refusal :=
  .next (if (s.points[point]).staleTimer.due then s.pointStale point else s)

/-- EVALUATION (R30, R31). -/
def execEvaluation (zone : ZoneIx) (s : State) : Host.Outcome State Fault Refusal :=
  .next (if (s.zones[zone]).eval.timer.due then s.evaluate zone else s)

/-- DWELL_EXPIRY: the dwell timer is satisfied (R70). -/
def execDwellExpiry (zone : ZoneIx) (s : State) : Host.Outcome State Fault Refusal :=
  .next (if (s.zones[zone]).arb.dwell.due then s.updArb zone fun a => { a with dwell := .stopped } else s)

/-- DETECT_TIMEOUT: FAULT with reason UNKNOWN_POSITION (R87). -/
def execDetectTimeout (zone : ZoneIx) (s : State) : Host.Outcome State Fault Refusal :=
  .next (if (s.zones[zone]).cover.detectTimer.due then s.enterFault zone .unknownPosition noIndex else s)

/-- PREP_TIMEOUT: FAULT with reason LIGHTING (R89). -/
def execPrepTimeout (zone : ZoneIx) (s : State) : Host.Outcome State Fault Refusal :=
  .next (if (s.zones[zone]).cover.prepTimer.due then s.enterFault zone .lighting noIndex else s)

/-- MOTION_TIMEOUT: FAULT with reason TIMEOUT (R92). -/
def execMotionTimeout (zone : ZoneIx) (s : State) : Host.Outcome State Fault Refusal :=
  .next (if (s.zones[zone]).cover.motionTimer.due then s.enterFault zone .timeout noIndex else s)

/-- SETTLE_EXPIRY: COVERED with cause SETTLED (R91). -/
def execSettleExpiry (zone : ZoneIx) (s : State) : Host.Outcome State Fault Refusal :=
  .next (if (s.zones[zone]).cover.settleTimer.due then s.coverChange zone .covered .settled noIndex else s)

/-- The wait timer has run out in a zone that is not held (R99, R103). -/
def ZoneRt.purgeWaitDue (r : ZoneRt) : Bool := r.purge.state == .wait && r.purge.remainingWait == 0 && !r.held

/-- The run timer has run out in a zone that is not held (R101, R103). -/
def ZoneRt.purgeRunDue (r : ZoneRt) : Bool := r.purge.state == .run && r.purge.remainingRun == 0 && !r.held

/-- PURGE_WAIT_EXPIRY: PURGE_REQUEST, and the arbiter decides (R99). -/
def execPurgeWaitExpiry (zone : ZoneIx) (s : State) : Host.Outcome State Fault Refusal :=
  .next (if (s.zones[zone]).purgeWaitDue then
    (s.updPurge zone fun p => { p with state := .request }).takeDecision zone false else s)

/-- PURGE_RUN_EXPIRY: PURGE_WAIT, and the grant is released (R101). -/
def execPurgeRunExpiry (zone : ZoneIx) (s : State) : Host.Outcome State Fault Refusal :=
  .next (if (s.zones[zone]).purgeRunDue then s.purgeRunEnd zone else s)

/-! ### Scenes (06) -/

/-- The lowest cue whose delay has run out (R115). -/
def SceneRt.dueCue (e : SceneRt) : Option Nat := e.cues.findIdx? CueRun.isDue

/-- A delay has expired: the cue starts, and completion is judged if it was the last (R115, R119). -/
def State.cueExpires (s : State) (z : ZoneIx) (i : Nat) : State := State.reportScene z ((s.startCue z i).judgeIfDone z)

/-- CUE_DELAY_EXPIRY: cues with equal delays start in ascending index (R115, log 30). -/
def execCueDelayExpiry (zone : ZoneIx) (cue : CueIx) (s : State) : Host.Outcome State Fault Refusal :=
  .next (if !(s.zones[zone]).held && (s.zones[zone]).scene.dueCue == some cue.val then s.cueExpires zone cue.val else s)

/-- FADE_STEP: every fade takes its next step, and completion is judged if it was the last (R117, R119). -/
def execFadeStep (zone : ZoneIx) (s : State) : Host.Outcome State Fault Refusal :=
  .next (if (s.zones[zone]).scene.stepTimer.due then State.reportScene zone ((s.stepFades zone).judgeIfDone zone) else s)

/-! ### The dispatcher (07) -/

/-- REFRESH_EXPIRY (R132). -/
def execRefreshExpiry (actuator : ActIx) (s : State) : Host.Outcome State Fault Refusal :=
  .next (if (s.acts[actuator]).refreshTimer.due then s.refreshExpire actuator else s)

/-- RETRY_EXPIRY (R141). -/
def execRetryExpiry (actuator : ActIx) (s : State) : Host.Outcome State Fault Refusal :=
  .next (if (s.acts[actuator]).retryTimer.due then s.retryExpire actuator else s)

/-- The override of an actuator ends: its send is queued, and the control change is reported (R145). -/
def State.overrideEnds (s : State) (a : ActIx) : State := ((s.updAct a ActRt.endOverride).join a).reportControl a true

/-- OVERRIDE_HOLD_EXPIRY (R145). -/
def execOverrideHoldExpiry (actuator : ActIx) (s : State) : Host.Outcome State Fault Refusal :=
  .next (if (s.acts[actuator]).overrideTimer.due then s.overrideEnds actuator else s)

/-- The acknowledgement timer of a command is due (R140). -/
def Outstanding.due (o : Outstanding) : Bool :=
  match o.phase with
  | .awaitingAck t => t.due
  | .sending => false

/-- ACK_TIMEOUT: the command ends as a timeout (R140). -/
def execAckTimeout (tag : Tag) (s : State) : Host.Outcome State Fault Refusal :=
  .next (match s.outstandingOf tag with
    | some o => if o.due then s.endCommand o .timeout else s
    | none => s)

/-- ARBITRATION: one tag is handed out, if one is free and an entry is dispatchable (R134, R135). -/
def execArbitration (s : State) : Host.Outcome State Fault Refusal := .next s.arbitrate

/-! ### Local mode (09) -/

/-- Local mode is released with a notice of its cause (R172). -/
def State.releaseLocalWith (s : State) (cause : Nat) : State :=
  (s.updMgmt fun m => { m with localMode := false, idleTimer := .stopped }).raise .localReleased 255 (byteField cause)

/-- LOCAL_IDLE_EXPIRY (R172). -/
def execLocalIdleExpiry (s : State) : Host.Outcome State Fault Refusal :=
  .next (if s.mgmt.idleTimer.due then s.releaseLocalWith 1 else s)

end Sys2Proof.Machine
end

