-- ==== Sys2Proof/Machine/Requests.lean ====
section
/-! DEFINITION. The meanings of the management requests: table access, zone commands, scenes, actuator control, flags, line status,
commit, restart and local mode (R111, R146, R166 to R174, R186, R188, R190). -/

namespace Sys2Proof.Machine

/-! ### UNKNOWN_REQUEST, IDENTIFY, READ_ENTRY -/

/-- A request of an unknown kind is refused by the common checks; nothing is left for its own rule (R165 row 1). -/
def unknownOwn (_ : Request) (s : State) : Answer := s.refuse .unknownRequest

def execUnknownRequest (s : State) : Host.Outcome State Fault Refusal := .next (s.serve .unknownRequest unknownOwn)

/-- IDENTIFY (R169). -/
def identifyOwn (_ : Request) (s : State) : Answer := s.doneWith s.announcePayload

def execIdentify (s : State) : Host.Outcome State Fault Refusal := .next (s.serve .identify identifyOwn)

/-- READ_ENTRY (R7, R27, R127, R166). -/
def readEntryOwn (r : Request) (s : State) : Answer :=
  match (ofCode tableOrder (r.param 0)).bind fun table => s.entryBytes table r.tableIndex with
  | none => s.refuse .badIndex
  | some bytes =>
    match segmented bytes (r.param 3) with
    | some results => s.doneWith (r.params.take 3 ++ results)
    | none => s.refuse .badValue

def execReadEntry (s : State) : Host.Outcome State Fault Refusal := .next (s.serve .readEntry readEntryOwn)

/-! ### WRITE_ENTRY (R167) -/

/-- A segment that does not end the write (R167). -/
def execWriteEntrySegment (s : State) : Host.Outcome State Fault Refusal := .next (s.serve .writeEntrySegment writeSegment)

/-- R3 to R6. -/
def execWriteEntryPoint (s : State) : Host.Outcome State Fault Refusal := .next (s.serve .writeEntryPoint writeSegment)

/-- R127. -/
def execWriteEntryActuator (s : State) : Host.Outcome State Fault Refusal := .next (s.serve .writeEntryActuator writeSegment)

/-- R105. -/
def execWriteEntryGroup (s : State) : Host.Outcome State Fault Refusal := .next (s.serve .writeEntryGroup writeSegment)

/-- R106. -/
def execWriteEntrySceneHeader (s : State) : Host.Outcome State Fault Refusal :=
  .next (s.serve .writeEntrySceneHeader writeSegment)

/-- R108. -/
def execWriteEntryCue (s : State) : Host.Outcome State Fault Refusal := .next (s.serve .writeEntryCue writeSegment)

/-- R27, R47, R65, R83. -/
def execWriteEntryZone (s : State) : Host.Outcome State Fault Refusal := .next (s.serve .writeEntryZone writeSegment)

/-- R28. -/
def execWriteEntrySaturation (s : State) : Host.Outcome State Fault Refusal :=
  .next (s.serve .writeEntrySaturation writeSegment)

/-- R154. -/
def execWriteEntryFilter (s : State) : Host.Outcome State Fault Refusal := .next (s.serve .writeEntryFilter writeSegment)

/-- R168. -/
def execWriteEntryPart (s : State) : Host.Outcome State Fault Refusal := .next (s.serve .writeEntryPart writeSegment)

/-! ### ZONE_COMMAND (R169) -/

/-- The checks of a zone command, in the order of R169, before its action's effect. R169 gives the refusal of a FORCE byte above 1
(R170) no place among them: the model judges it with the action code, also for the actions that leave FORCE unused (log 36). -/
def zoneChecked (effect : ZoneIx → Bool → State → Answer) (r : Request) (s : State) : Answer :=
  let action := r.param 1
  let force := r.param 2
  match asIndex 4 (r.param 0) with
  | none => s.refuse .badIndex
  | some z =>
    if 6 < action ∨ 1 < force then s.refuse .badValue
    else if force = 1 ∧ r.channel = .trunk ∧ (action = 2 ∨ action = 3) then s.refuse .badValue
    else if r.channel = .trunk ∧ action ≤ 1 ∧ (s.cfg.zones[z]).eval.protect then .of s.refuseProtected
    else effect z (force == 1) s

/-- Sets the enabled field of a zone (R25). -/
def State.setEnabled (s : State) (z : ZoneIx) (b : Bool) : State :=
  s.updCfg fun c => { c with zones := c.zones.set z { c.zones[z] with eval := { (c.zones[z]).eval with enabled := b } } }

/-- The evaluator, heating loop and arbiter take their reset values; the evaluation timer runs in an enabled zone (R26, R32, R48,
R66). -/
def State.resetControl (s : State) (z : ZoneIx) : State :=
  s.updZone z fun r => { r with eval := .reset (s.cfg.zones[z]).eval, heat := .reset, arb := .reset }

/-- ENABLE of a disabled zone, in the order of R169. -/
def State.enableZone (s : State) (z : ZoneIx) : State :=
  let s := s.dispatcherEnable z
  let s := (s.setEnabled z true).resetControl z
  let s := s.takeDecision z false
  s.enterDetect z .zoneEnabled

/-- DISABLE of an enabled zone: the zone's blocks, then the dispatcher (R32, R81, R96, R123, R148, R169; log 18). -/
def State.disableZone (s : State) (z : ZoneIx) : State :=
  let s := (s.setEnabled z false).updEval z fun e => { e with timer := .stopped }
  let s := s.arbiterDisable z
  let s := s.coverDisable z
  let s := s.sceneDisable z
  s.dispatcherDisable z

def zoneEnableOwn : Request → State → Answer :=
  zoneChecked fun z _ s => (if s.enabled z then s else s.enableZone z).done

/-- ZONE_COMMAND ENABLE (R169). -/
def execZoneEnable (s : State) : Host.Outcome State Fault Refusal := .next (s.serve .zoneEnable zoneEnableOwn)

def zoneDisableOwn : Request → State → Answer :=
  zoneChecked fun z _ s => (if s.enabled z then s.disableZone z else s).done

/-- ZONE_COMMAND DISABLE (R169). -/
def execZoneDisable (s : State) : Host.Outcome State Fault Refusal := .next (s.serve .zoneDisable zoneDisableOwn)

/-- An accepted CLOSE_COVERS or OPEN_COVERS: with FORCE or with no cover-work scene into motion, otherwise into the prep state
(R88). -/
def State.moveCovers (s : State) (z : ZoneIx) (force : Bool) (prep motion : CoverState) : State :=
  if force then s.enterMotion z motion .forced
  else if (s.cfg.zones[z]).cover.coverWorkScene.isNone then s.enterMotion z motion .lightingReady
  else s.enterPrep z prep

def closeCoversOwn : Request → State → Answer :=
  zoneChecked fun z force s =>
    if (s.zones[z]).cover.state ≠ .openIdle ∨ (s.zones[z]).held then s.refuse .wrongState
    else if (s.drives z).isEmpty then s.refuse .badValue
    else (s.moveCovers z force .prepClose .deploying).done

/-- ZONE_COMMAND CLOSE_COVERS (R88). -/
def execCloseCovers (s : State) : Host.Outcome State Fault Refusal := .next (s.serve .closeCovers closeCoversOwn)

def openCoversOwn : Request → State → Answer :=
  zoneChecked fun z force s =>
    if (s.zones[z]).cover.state ≠ .covered ∨ (s.zones[z]).held then s.refuse .wrongState
    else (s.moveCovers z force .prepOpen .retracting).done

/-- ZONE_COMMAND OPEN_COVERS (R88). -/
def execOpenCovers (s : State) : Host.Outcome State Fault Refusal := .next (s.serve .openCovers openCoversOwn)

def clearFaultOwn : Request → State → Answer :=
  zoneChecked fun z _ s =>
    if (s.zones[z]).cover.state = .fault then (s.enterDetect z .cleared).done else s.refuse .wrongState

/-- ZONE_COMMAND CLEAR_FAULT (R88). -/
def execClearFault (s : State) : Host.Outcome State Fault Refusal := .next (s.serve .clearFault clearFaultOwn)

/-- RESET_CONTROL: the resets, with a running purge's grant withdrawn, then the arming and the hold (R32, R60, R81, R169, R178,
R186; log 18). -/
def State.resetControlAll (s : State) (z : ZoneIx) : State :=
  let withdrawn := (s.zones[z]).arb.granted == .purge
  let s := s.resetControl z
  let s := if withdrawn then s.purgeWithdrawn z else s
  let s := s.updZone z fun r => { r with arming := none }
  s.clearHold z

def resetControlOwn : Request → State → Answer := zoneChecked fun z _ s => (s.resetControlAll z).done

/-- ZONE_COMMAND RESET_CONTROL (R169). -/
def execResetControl (s : State) : Host.Outcome State Fault Refusal := .next (s.serve .resetControl resetControlOwn)

/-- RESUME: the hold is cleared, and in an enabled zone the arbiter decides (R67, R81, R186; log 27). -/
def State.resumeZone (s : State) (z : ZoneIx) : State :=
  let s := s.clearHold z
  if s.enabled z then s.takeDecision z false else s

def resumeOwn : Request → State → Answer := zoneChecked fun z _ s => (s.resumeZone z).done

/-- ZONE_COMMAND RESUME (R186). -/
def execResume (s : State) : Host.Outcome State Fault Refusal := .next (s.serve .resume resumeOwn)

/-! ### SCENE_REQUEST (R111, R169) -/

/-- R111: the indices, the zone's enabled field, the interlock, then the take. -/
def sceneRequestOwn (r : Request) (s : State) : Answer :=
  match asIndex 4 (r.param 0), asIndex 32 (r.param 1) with
  | some z, some n =>
    if !s.enabled z then s.refuse .wrongState
    else if (s.zones[z]).scene.coverWork then s.refuse .interlocked
    else (State.reportScene z (s.takeScene z n .request)).done
  | _, _ => s.refuse .badIndex

def execSceneRequest (s : State) : Host.Outcome State Fault Refusal := .next (s.serve .sceneRequest sceneRequestOwn)

/-! ### ACTUATOR_CONTROL (R146) -/

/-- The checks of R146, with an unknown action refused directly after the index (R170). -/
def actuatorChecked (effect : State → ActIx → State × Bool) (r : Request) (s : State) : Answer :=
  match asIndex 96 (r.param 0) with
  | none => s.refuse .badIndex
  | some a =>
    if 1 < r.param 1 then s.refuse .badValue
    else if !(s.cfg.acts[a]).inUse then s.refuse .wrongState
    else if r.channel = .trunk ∧ (s.cfg.acts[a]).protect then .of s.refuseProtected
    else ((effect s a).1.reportControl a (effect s a).2).done

/-- ACTUATOR_CONTROL DISABLE (R146). -/
def execActuatorDisable (s : State) : Host.Outcome State Fault Refusal :=
  .next (s.serve .actuatorDisable (actuatorChecked State.disableActuator))

/-- ACTUATOR_CONTROL ENABLE (R146). -/
def execActuatorEnable (s : State) : Host.Outcome State Fault Refusal :=
  .next (s.serve .actuatorEnable (actuatorChecked State.enableActuator))

/-! ### READ_FLAGS and LINE_STATUS -/

/-- The flags of a selector that the mask names are cleared (R43, R174). -/
def State.clearFlags (s : State) (selector : Nat) (mask : Byte) : State :=
  if selector = 255 then s.updMgmt fun m => { m with flags := m.flags.clearMasked mask }
  else
    match asIndex 4 selector with
    | some z => s.updZone z fun r => r.clearMasked mask
    | none => s

/-- READ_FLAGS: the flags as they stand, then those of the mask are cleared (R43, R174). -/
def readFlagsOwn (r : Request) (s : State) : Answer :=
  match s.flagBytes (r.param 0) with
  | none => s.refuse .badIndex
  | some flags => (s.clearFlags (r.param 0) (BitVec.ofNat 8 (r.param 1))).doneWith flags

def execReadFlags (s : State) : Host.Outcome State Fault Refusal := .next (s.serve .readFlags readFlagsOwn)

/-- LINE_STATUS (R169). -/
def lineStatusOwn (hallBusy trunkBusy : Bool) (r : Request) (s : State) : Answer :=
  s.answerSegment (s.lineStatusBytes hallBusy trunkBusy) (r.param 0)

def execLineStatus (hallBusy trunkBusy : Bool) (s : State) : Host.Outcome State Fault Refusal :=
  .next (s.serve (.lineStatus false false) (lineStatusOwn hallBusy trunkBusy))

/-! ### COMMIT_IMAGE and RESTART -/

/-- An accepted COMMIT_IMAGE copies the configuration and reserves a place for its reply (R163, R188). -/
def commitOwn (r : Request) (s : State) : Answer :=
  let k : Commit := { channel := r.channel, requester := r.telegram.src, tag := r.telegram.tag, copy := s.cfg }
  { state := s.updMgmt fun m => { m with commit := some k }, status := .done, results := [], mode := .later }

def execCommitImage (s : State) : Host.Outcome State Fault Refusal := .next (s.serve .commitImage commitOwn)

/-- An accepted RESTART waits for its reply to leave, and no other request is taken (R190). -/
def restartOwn (_ : Request) (s : State) : Answer :=
  { state := s.updMgmt fun m => { m with restartPending := true }, status := .done, results := [], mode := .restart }

def execRestart (s : State) : Host.Outcome State Fault Refusal := .next (s.serve .restart restartOwn)

/-! ### Local mode (R171, R172) -/

/-- TAKE_LOCAL (R171). -/
def takeLocalOwn (r : Request) (s : State) : Answer :=
  match r.channel with
  | .trunk => s.refuse .reserved
  | .service => (s.updMgmt fun m => { m with localMode := true, idleTimer := idleStart }).done

def execTakeLocal (s : State) : Host.Outcome State Fault Refusal := .next (s.serve .takeLocal takeLocalOwn)

/-- RELEASE_LOCAL; while local mode is released it raises no notice (R172). -/
def releaseLocalOwn (_ : Request) (s : State) : Answer := (if s.mgmt.localMode then s.releaseLocalWith 0 else s).done

def execReleaseLocal (s : State) : Host.Outcome State Fault Refusal := .next (s.serve .releaseLocal releaseLocalOwn)

end Sys2Proof.Machine
end

