-- ==== Sys2Proof/Machine/Dispatch.lean ====
section
/-! DEFINITION. The dispatch: one arm per command, each one direct call of that command's meaning. -/

namespace Sys2Proof.Machine

def exec (i : Instr) (s : State) : Host.Outcome State Fault Refusal :=
  match i with
  | .powerOn => Sys2Proof.Machine.execPowerOn s
  | .receivedUnit line heard => Sys2Proof.Machine.execReceivedUnit line heard s
  | .serviceUnit heard => Sys2Proof.Machine.execServiceUnit heard s
  | .staleExpiry point => Sys2Proof.Machine.execStaleExpiry point s
  | .evaluation zone => Sys2Proof.Machine.execEvaluation zone s
  | .dwellExpiry zone => Sys2Proof.Machine.execDwellExpiry zone s
  | .detectTimeout zone => Sys2Proof.Machine.execDetectTimeout zone s
  | .prepTimeout zone => Sys2Proof.Machine.execPrepTimeout zone s
  | .motionTimeout zone => Sys2Proof.Machine.execMotionTimeout zone s
  | .settleExpiry zone => Sys2Proof.Machine.execSettleExpiry zone s
  | .purgeWaitExpiry zone => Sys2Proof.Machine.execPurgeWaitExpiry zone s
  | .purgeRunExpiry zone => Sys2Proof.Machine.execPurgeRunExpiry zone s
  | .cueDelayExpiry zone cue => Sys2Proof.Machine.execCueDelayExpiry zone cue s
  | .fadeStep zone => Sys2Proof.Machine.execFadeStep zone s
  | .refreshExpiry actuator => Sys2Proof.Machine.execRefreshExpiry actuator s
  | .retryExpiry actuator => Sys2Proof.Machine.execRetryExpiry actuator s
  | .overrideHoldExpiry actuator => Sys2Proof.Machine.execOverrideHoldExpiry actuator s
  | .ackTimeout tag => Sys2Proof.Machine.execAckTimeout tag s
  | .arbitration => Sys2Proof.Machine.execArbitration s
  | .hallTxChoose => Sys2Proof.Machine.execHallTxChoose s
  | .trunkTxChoose => Sys2Proof.Machine.execTrunkTxChoose s
  | .txAttemptEnd line readBack => Sys2Proof.Machine.execTxAttemptEnd line readBack s
  | .txRetryAttempt line quietByteTimes => Sys2Proof.Machine.execTxRetryAttempt line quietByteTimes s
  | .serviceReplySent => Sys2Proof.Machine.execServiceReplySent s
  | .commitComplete => Sys2Proof.Machine.execCommitComplete s
  | .localIdleExpiry => Sys2Proof.Machine.execLocalIdleExpiry s
  | .restartBegin => Sys2Proof.Machine.execRestartBegin s
  | .unknownRequest => Sys2Proof.Machine.execUnknownRequest s
  | .identify => Sys2Proof.Machine.execIdentify s
  | .readEntry => Sys2Proof.Machine.execReadEntry s
  | .writeEntrySegment => Sys2Proof.Machine.execWriteEntrySegment s
  | .writeEntryPoint => Sys2Proof.Machine.execWriteEntryPoint s
  | .writeEntryActuator => Sys2Proof.Machine.execWriteEntryActuator s
  | .writeEntryGroup => Sys2Proof.Machine.execWriteEntryGroup s
  | .writeEntrySceneHeader => Sys2Proof.Machine.execWriteEntrySceneHeader s
  | .writeEntryCue => Sys2Proof.Machine.execWriteEntryCue s
  | .writeEntryZone => Sys2Proof.Machine.execWriteEntryZone s
  | .writeEntrySaturation => Sys2Proof.Machine.execWriteEntrySaturation s
  | .writeEntryFilter => Sys2Proof.Machine.execWriteEntryFilter s
  | .writeEntryPart => Sys2Proof.Machine.execWriteEntryPart s
  | .zoneEnable => Sys2Proof.Machine.execZoneEnable s
  | .zoneDisable => Sys2Proof.Machine.execZoneDisable s
  | .closeCovers => Sys2Proof.Machine.execCloseCovers s
  | .openCovers => Sys2Proof.Machine.execOpenCovers s
  | .clearFault => Sys2Proof.Machine.execClearFault s
  | .resetControl => Sys2Proof.Machine.execResetControl s
  | .resume => Sys2Proof.Machine.execResume s
  | .sceneRequest => Sys2Proof.Machine.execSceneRequest s
  | .actuatorDisable => Sys2Proof.Machine.execActuatorDisable s
  | .actuatorEnable => Sys2Proof.Machine.execActuatorEnable s
  | .readFlags => Sys2Proof.Machine.execReadFlags s
  | .lineStatus hallBusy trunkBusy => Sys2Proof.Machine.execLineStatus hallBusy trunkBusy s
  | .accumulatorRead => Sys2Proof.Machine.execAccumulatorRead s
  | .accumulatorPreload => Sys2Proof.Machine.execAccumulatorPreload s
  | .accumulatorSetRun => Sys2Proof.Machine.execAccumulatorSetRun s
  | .captureTake => Sys2Proof.Machine.execCaptureTake s
  | .captureCount => Sys2Proof.Machine.execCaptureCount s
  | .captureRead => Sys2Proof.Machine.execCaptureRead s
  | .ringRead => Sys2Proof.Machine.execRingRead s
  | .ringUnfreeze => Sys2Proof.Machine.execRingUnfreeze s
  | .watchRead => Sys2Proof.Machine.execWatchRead s
  | .watchWrite => Sys2Proof.Machine.execWatchWrite s
  | .watchArm => Sys2Proof.Machine.execWatchArm s
  | .watchDisarm => Sys2Proof.Machine.execWatchDisarm s
  | .commitImage => Sys2Proof.Machine.execCommitImage s
  | .restart => Sys2Proof.Machine.execRestart s
  | .takeLocal => Sys2Proof.Machine.execTakeLocal s
  | .releaseLocal => Sys2Proof.Machine.execReleaseLocal s

end Sys2Proof.Machine
end

