-- ==== Sys2Proof/Machine/Step.lean ====
section
/-! DEFINITION. One step: the command at the front of the queue, or one millisecond of time when none waits (log 2). -/

namespace Sys2Proof.Machine

/-- Takes the command at the front of the queue; with an empty queue the clock advances by one millisecond. -/
def step (s : State) : Host.Outcome State Fault Refusal :=
  match s.pending with
  | [] => .next (clockTick s)
  | c :: rest => exec c { s with pending := rest }

/-- `s` with the command that the word spells put at the front of its queue; `s` where the word spells none, which is every
word, since no row of the table gives bits. A program is loaded from outside by putting its commands into `pending`; nothing
but the clock runs from State.reset (log 1). -/
def State.withFetchWord (s : State) (nbits w : Nat) : State :=
  match decodeTableWord nbits w with
  | some c => { s with pending := c :: s.pending }
  | none => s

end Sys2Proof.Machine
end

