-- ==== Sys2Proof/Safety.lean ====
section
/-! DEFINITION. What statements about the part are said with: what work in the zones leaves unchanged, the bounds and laws that
every state keeps, and the reply that a taken request leaves. -/

namespace Sys2Proof.Machine

/-! ### What work in the zones leaves unchanged -/

/-- The queues that work in the zones can fill stay within the sizes of R173, R180 and R183. -/
structure WorkBounds (s : State) : Prop where
  notices : s.mgmt.notices.length ≤ 8
  captures : s.acct.captures.length ≤ 32
  ring : s.acct.ring.length ≤ 16

/-- An actuator's record after job requests and moves to and from its queue (R129 to R131): nothing but the requested value, the
two marks and the dispatch state may have changed, and a command in flight stays in flight. -/
structure SameButQueued (r r' : ActRt) : Prop where
  record : r' = { r with
    requested := r'.requested, needsSend := r'.needsSend, refreshOnly := r'.refreshOnly, dispatch := r'.dispatch }
  flight : r'.dispatch = .inFlight ↔ r.dispatch = .inFlight

/-- `t` is `s` after work of the zone blocks that reaches the zones `zs` alone. The points, the lines, the clock, the image and
the waiting commands stand; of the configuration only RUN and the watches may change, of the management unit only the notices
and the flags, of the dispatcher only the queues, of an actuator only what a request changes; every zone's evaluation and
heating results stand. -/
structure ZoneWork (zs : ZoneIx → Prop) (s t : State) : Prop where
  points : t.points = s.points
  lines : t.lines = s.lines
  image : t.image = s.image
  imageState : t.imageState = s.imageState
  configured : t.configured = s.configured
  now : t.now = s.now
  millis : t.millis = s.millis
  pending : t.pending = s.pending
  cfg : t.cfg = { s.cfg with part := { s.cfg.part with run := t.cfg.part.run }, watches := t.cfg.watches }
  mgmt : t.mgmt = { s.mgmt with notices := t.mgmt.notices, flags := t.mgmt.flags }
  disp : t.disp = { s.disp with queues := t.disp.queues }
  trunkReadOut : t.acct.trunkReadOut = s.acct.trunkReadOut
  serviceReadOut : t.acct.serviceReadOut = s.acct.serviceReadOut
  eval : ∀ z : ZoneIx, (t.zones[z]).eval = (s.zones[z]).eval
  heat : ∀ z : ZoneIx, (t.zones[z]).heat = (s.zones[z]).heat
  zone : ∀ z : ZoneIx, ¬ zs z → t.zones[z] = s.zones[z]
  act : ∀ a : ActIx, ¬ zs (s.cfg.acts[a]).zone → t.acts[a] = s.acts[a]
  record : ∀ a : ActIx, SameButQueued s.acts[a] t.acts[a]
  bounds : WorkBounds s → WorkBounds t

/-- Work that may reach every zone. -/
abbrev AnyZoneWork (s t : State) : Prop := ZoneWork (fun _ => True) s t

/-- Work that reaches one zone. -/
abbrev OneZoneWork (z : ZoneIx) (s t : State) : Prop := ZoneWork (fun w => w = z) s t

/-! ### What becomes of an actuator's record -/

/-- The record after an outcome on a command that carried `v` (R138, R140). -/
def ActRt.afterOutcome (r : ActRt) (c : ActCfg) (v : Int) : CommandOutcome → ActRt
  | .applied =>
    { r with timeouts := 0, confirmed := some v, rangeRefused := none, health := .ok
             refreshTimer := if c.refresh = 0 then r.refreshTimer else .running (c.refresh * 1000) }
  | .refusedHand => { r with timeouts := 0, health := .hand, needsSend := true, retryTimer := .running 60000 }
  | .refusedRange =>
    { r with timeouts := 0, rangeRefused := some v, refreshTimer := .stopped
             needsSend := if r.requested = some v then false else r.needsSend
             health := if r.health = .unresponsive then .ok else r.health }
  | .timeout =>
    { r with timeouts := min 3 (r.timeouts + 1), needsSend := r.needsSend || r.requested.isSome
             retryTimer := if min 3 (r.timeouts + 1) = 3 then .running 30000 else r.retryTimer
             health := if min 3 (r.timeouts + 1) = 3 then .unresponsive else r.health }

/-- The record when its command's tag has been freed (R139 steps 1 and 2). -/
def ActRt.freed (r : ActRt) : ActRt :=
  { r with inFlightValue := none, inFlightTag := none, refreshOnly := false, dispatch := .idle
           control := if r.control = .disabling then .disabled else r.control }

/-- The record of an actuator that DISABLE has stopped (R146). -/
def ActRt.disabled (r : ActRt) : ActRt :=
  { r with control := if r.dispatch = .inFlight then .disabling else .disabled, refreshTimer := .stopped
           retryTimer := .stopped, overrideTimer := .stopped }

/-- The record of an actuator whose zone has been disabled (R148). -/
def ActRt.zoneDisabled (r : ActRt) : ActRt :=
  if r.control = .overridden then
    { r with refreshTimer := .stopped, retryTimer := .stopped, control := .enabled, overrideTimer := .stopped, confirmed := none }
  else { r with refreshTimer := .stopped, retryTimer := .stopped }

/-- The record of an actuator whose disabled zone has been enabled (R148). -/
def ActRt.zoneEnabled (r : ActRt) : ActRt :=
  { r with requested := none, rangeRefused := none, needsSend := false, refreshOnly := false }

/-- The same change made of every record that is listed. -/
@[irreducible] def changeAll (v : Vector ActRt 96) (l : List ActIx) (f : ActRt → ActRt) : Vector ActRt 96 :=
  .ofFn fun a => if a ∈ l then f v[a] else v[a]

/-- The same change made of every actuator that is listed. -/
def State.updActs (s : State) (l : List ActIx) (f : ActRt → ActRt) : State := { s with acts := changeAll s.acts l f }

/-- The in-use actuators of a zone (R148). -/
def State.actuatorsOf (s : State) (z : ZoneIx) : List ActIx :=
  (indices 96).filter fun a => (s.cfg.acts[a]).inUse && (s.cfg.acts[a]).zone == z

/-- The outstanding table without the entry of a tag (R139 step 1). -/
def State.freed (s : State) (t : Tag) : State :=
  s.updDisp fun d => { d with outstanding := d.outstanding.filter fun o => o.tag != t }

/-- A command has ended, before its actuator's place in a queue and its report (R138 to R140). -/
def State.commandEnded (s : State) (o : Outstanding) (outcome : CommandOutcome) : State :=
  (s.freed o.tag).updAct o.act fun r => (r.afterOutcome (s.cfg.acts[o.act]) o.value outcome).freed

/-- The notices of an outcome, and the account of a timeout (R138, R140). -/
def State.outcomeNoted (s : State) (o : Outstanding) (outcome : CommandOutcome) : State :=
  let r := s.acts[o.act]
  let zone := (s.cfg.acts[o.act]).zone
  let note := fun (s : State) (kind : NoticeKind) =>
    s.raise kind (BitVec.ofNat 8 zone) (BitVec.ofNat 8 o.act :: numField o.value)
  match outcome with
  | .applied => if r.health = .ok then s else note s .actuatorRecovered
  | .refusedHand => if r.health = .hand then s else note s .actuatorHand
  | .refusedRange =>
    if r.health = .unresponsive then note (note s .actuatorRange) .actuatorRecovered else note s .actuatorRange
  | .timeout =>
    if min 3 (r.timeouts + 1) = 3 ∧ r.health ≠ .unresponsive then note (s.offer zone 4 1) .actuatorUnresponsive
    else s.offer zone 4 1

/-- A command has ended and its actuator has joined its queue where R130 allows (R138 to R140). -/
def State.commandSettled (s : State) (o : Outstanding) (outcome : CommandOutcome) : State :=
  ((s.outcomeNoted o outcome).commandEnded o outcome).join o.act

/-- The outcome has been reported to the scene engine or the cover sequencer of the zone, and to the scene engine also the end of
a DISABLING (R139 step 4). -/
def State.commandReported (s : State) (o : Outstanding) (outcome : CommandOutcome) : State :=
  let zone := (s.cfg.acts[o.act]).zone
  let settled := s.commandSettled o outcome
  match (s.cfg.acts[o.act]).kind with
  | .dimmer =>
    let told := State.reportScene zone (settled.sceneOutcome zone o.act outcome)
    if (s.acts[o.act]).control = .disabling then State.reportScene zone (told.sceneControl zone o.act) else told
  | .coverDrive => settled.coverDrive zone o.act outcome
  | .heatValve | .ahuMode | .supplyFan | .oaDamper | .purgeFan | .plain => settled

/-! ### Requests and their replies -/

/-- The code of a reply status (R150). -/
def Status.byte : Status → Byte
  | .done => 0
  | .unknownRequest => 1
  | .badIndex => 2
  | .badValue => 3
  | .protectedEntry => 4
  | .reserved => 5
  | .busy => 6
  | .inUse => 7
  | .interlocked => 8
  | .wrongState => 9
  | .unconfigured => 10

/-- The head of a channel's request queue is gone, and the channel is the last served (R163). -/
def State.taken (s : State) : Channel → State
  | .trunk => { s with mgmt := { s.mgmt with trunkRequests := s.mgmt.trunkRequests.drop 1, lastServed := .trunk } }
  | .service => { s with mgmt := { s.mgmt with serviceRequests := s.mgmt.serviceRequests.drop 1, lastServed := .service } }

/-- The reply of R164 to a request of kind `kind` that came in the telegram `t`. -/
def State.replyTo (s : State) (c : Channel) (t : Telegram) (kind : Byte) (status : Status) (results : List Byte) : Reply :=
  { channel := c, restart := false
    telegram := { dest := t.src, src := BitVec.ofNat 8 s.cfg.part.own, kind := 5, tag := t.tag
                  payload := kind :: status.byte :: results } }

/-- That reply queued at the tail of the reply queue (R164). -/
def State.replied (s : State) (c : Channel) (t : Telegram) (kind : Byte) (status : Status) (results : List Byte) : State :=
  { s with mgmt := { s.mgmt with replies := s.mgmt.replies ++ [s.replyTo c t kind status results] } }

/-- The telegram `t` on channel `c` is the request taken next (R163); its payload is the request kind and the parameters, and
it passes the checks common to every request (R165 rows 1 to 5). -/
structure NextIs (s : State) (c : Channel) (t : Telegram) (kind : Byte) (params : List Byte) : Prop where
  next : s.mgmt.next = some (c, t)
  payload : t.payload = kind :: params
  passes : s.commonCheck (.of c t) = none

/-- The rows of requests that carry no pin levels (R150, R169). -/
def requestRows : List Instr :=
  [.unknownRequest, .identify, .readEntry, .writeEntrySegment, .writeEntryPoint, .writeEntryActuator, .writeEntryGroup,
    .writeEntrySceneHeader, .writeEntryCue, .writeEntryZone, .writeEntrySaturation, .writeEntryFilter, .writeEntryPart,
    .zoneEnable, .zoneDisable, .closeCovers, .openCovers, .clearFault, .resetControl, .resume, .sceneRequest,
    .actuatorDisable, .actuatorEnable, .readFlags, .accumulatorRead, .accumulatorPreload, .accumulatorSetRun, .captureTake,
    .captureCount, .captureRead, .ringRead, .ringUnfreeze, .watchRead, .watchWrite, .watchArm, .watchDisarm, .commitImage,
    .restart, .takeLocal, .releaseLocal]

/-! ### How fields are carried (R166, R170) -/

/-- A yes/no byte: 1 yes, 0 no (R166). -/
def flagByte (b : Bool) : Byte := if b then 1 else 0

/-- An indicator whose rule lists "set, clear": 0 set, 1 clear (R166, log 8). -/
def setByte (b : Bool) : Byte := if b then 0 else 1

/-- An optional field: 0, or 1 and the value (R166). -/
def presence {α : Type} (f : α → List Byte) : Option α → List Byte
  | none => [0]
  | some x => 1 :: f x

/-- A list: its count, then its items (R166). -/
def counted {α : Type} (f : α → List Byte) (l : List α) : List Byte := BitVec.ofNat 8 l.length :: l.flatMap f

/-- An index in one byte (R170, log 7). -/
def indexByte {n : Nat} (i : Fin n) : List Byte := [BitVec.ofNat 8 i.val]

/-- An unsigned number in two bytes (R166). -/
def countField (n : Nat) : List Byte := numField (n : Int)

/-- A timer: the code of its state, then the remaining time of one that has any, in the timer's own unit (R166). -/
def timerBytes (stopped running : Byte) (unit : Nat) : Timer → List Byte
  | .stopped => [stopped]
  | .running ms => running :: wordField (BitVec.ofNat 32 (shownUnits unit ms))
  | .paused ms => 2 :: wordField (BitVec.ofNat 32 (shownUnits unit ms))

/-- A zone's byte, 255 for ALL (R170, log 7). -/
def PointZone.wire : PointZone → Byte
  | .zone z => BitVec.ofNat 8 z
  | .all => 255
  | .unlisted n => BitVec.ofNat 8 (4 + n.val)

/-- R1. -/
def PointKind.wire : PointKind → Byte
  | .airTemp => 0
  | .airRh => 1
  | .waterTemp => 2
  | .glazingTemp => 3
  | .outdoorTemp => 4
  | .coverClosed => 5
  | .coverOpen => 6
  | .general => 7

/-- R2. -/
def PointState.wire : PointState → Byte
  | .never => 0
  | .fresh => 1
  | .stale => 2
  | .fault => 3

/-- R126. -/
def ActKind.wire : ActKind → Byte
  | .heatValve => 0
  | .ahuMode => 1
  | .supplyFan => 2
  | .oaDamper => 3
  | .coverDrive => 4
  | .purgeFan => 5
  | .dimmer => 6
  | .plain => 7

/-- R128. -/
def Control.wire : Control → Byte
  | .enabled => 0
  | .disabling => 1
  | .disabled => 2
  | .overridden => 3

/-- R128. -/
def DispatchState.wire : DispatchState → Byte
  | .idle => 0
  | .queued => 1
  | .inFlight => 2

/-- R128. -/
def Health.wire : Health → Byte
  | .ok => 0
  | .unresponsive => 1
  | .hand => 2

/-- R63. -/
def Mode.wire : Mode → Byte
  | .idle => 0
  | .heat => 1
  | .dry => 2
  | .vent => 3
  | .purge => 4

/-- R66. -/
def Pending.wire : Pending → Byte
  | .dwell => 0
  | .hold => 1

/-- R73. -/
def ModeCause.wire : ModeCause → Byte
  | .zoneDisabled => 0
  | .purgeEnd => 1
  | .crit => 2
  | .purge => 3
  | .dryDemand => 4
  | .heatDemand => 5
  | .noDemand => 6

/-- R85. -/
def CoverState.wire : CoverState → Byte
  | .disabled => 0
  | .detect => 1
  | .openIdle => 2
  | .prepClose => 3
  | .deploying => 4
  | .settle => 5
  | .covered => 6
  | .prepOpen => 7
  | .retracting => 8
  | .fault => 9

/-- R85. -/
def FaultReason.wire : FaultReason → Byte
  | .unknownPosition => 0
  | .lighting => 1
  | .timeout => 2
  | .contactLost => 3
  | .drive => 4
  | .coverMoved => 5

/-- R86, the fault reason standing for the six of R85 (log 11). -/
def CoverCause.wire : CoverCause → Byte
  | .zoneEnabled => 0
  | .cleared => 1
  | .positionFound => 2
  | .command => 3
  | .lightingReady => 4
  | .forced => 5
  | .endReached => 6
  | .settled => 7
  | .fault r => 8 + r.wire
  | .zoneDisabled => 14

/-- R98. -/
def PurgeState.wire : PurgeState → Byte
  | .inactive => 0
  | .wait => 1
  | .request => 2
  | .run => 3
  | .suspended => 4

/-- R110. -/
def SceneState.wire : SceneState → Byte
  | .idle => 0
  | .running => 1
  | .settling => 2
  | .complete => 3
  | .completeDegraded => 4

/-- R110. -/
def TakeOrigin.wire : TakeOrigin → Byte
  | .request => 0
  | .coverWork => 1
  | .openScene => 2
  | .nightScene => 3

/-- R184. -/
def WatchOn.wire : WatchOn → Byte
  | .arrival => 0
  | .dispatch => 1
  | .either => 2

/-- R184. -/
def WatchAction.wire : WatchAction → Byte
  | .notice => 0
  | .capture => 1
  | .holdZone => 2

/-- R150. -/
def NoticeKind.wire : NoticeKind → Byte
  | .pointStale => 1
  | .condensation => 2
  | .coverState => 3
  | .coverFault => 4
  | .actuatorUnresponsive => 5
  | .actuatorHand => 6
  | .actuatorRange => 7
  | .actuatorRecovered => 8
  | .accOverflow => 9
  | .captureThreshold => 10
  | .watchMatch => 11
  | .localReleased => 12
  | .commitDone => 13

/-- R150. -/
def ReqKind.wire : ReqKind → Byte
  | .identify => 1
  | .readEntry => 2
  | .writeEntry => 3
  | .zoneCommand => 4
  | .sceneRequest => 5
  | .actuatorControl => 6
  | .readFlags => 7
  | .lineStatus => 8
  | .accumulator => 9
  | .capture => 10
  | .ring => 11
  | .watch => 12
  | .commitImage => 13
  | .restart => 14
  | .takeLocal => 15
  | .releaseLocal => 16

/-- A watch's target: POINT or ACTUATOR with its index (R184). -/
def WatchTarget.wire : WatchTarget → List Byte
  | .point p => [0, BitVec.ofNat 8 p]
  | .actuator a => [1, BitVec.ofNat 8 a]

/-- The target of a cue: a dimmer or a group (R107). -/
def CueTarget.wire : CueTarget → List Byte
  | .actuator a => [0, BitVec.ofNat 8 a]
  | .group g => [1, BitVec.ofNat 8 g]

/-- The guard of a cue (R107). -/
def Guard.wire : Guard → List Byte
  | .climateIs .openHall => [0, 0]
  | .climateIs .night => [0, 1]
  | .pointAbove p x => [1, BitVec.ofNat 8 p] ++ numField x
  | .pointBelow p x => [2, BitVec.ofNat 8 p] ++ numField x
  | .pointFresh p => [3, BitVec.ofNat 8 p]

/-- A cue of a take: withheld 1, or applied 0 with pending 0 and its remaining tenths, or started 1 (R110, log 8). -/
def CueStatus.wire : CueStatus → List Byte
  | .withheld => [1]
  | .pending ms => [0, 0] ++ wordField (BitVec.ofNat 32 (shownUnits 100 ms))
  | .started => [0, 1]

/-- A touched channel of a take (R110, log 35). -/
def Touched.wire (t : Touched) : List Byte :=
  BitVec.ofNat 8 t.act :: (presence countField t.owner ++
    presence (fun f => numField f.ls ++ numField f.lt ++ countField f.n ++ countField f.k) t.fade ++ [flagByte t.rangeRefused])

/-- The reason of a capture, with its index (R180). -/
def CaptureReason.wire : CaptureReason → List Byte
  | .accOverflow a => [0, BitVec.ofNat 8 a]
  | .watch w => [1, BitVec.ofNat 8 w]
  | .requested => [2]

/-- An aggregate: the last formed value and its held indicator (R21, log 35). -/
def Aggregate.wire (a : Aggregate) : List Byte := presence numField a.last ++ [setByte a.held]

/-! ### Writes of table entries -/

/-- Numbers that two bytes carry. -/
abbrev Int16 (x : Int) : Prop := -32768 ≤ x ∧ x ≤ 32767
abbrev Nat16 (n : Nat) : Prop := n < 65536

/-- The numbers of a point entry that its bytes can carry. -/
structure PointCfg.Fits (c : PointCfg) : Prop where
  node : Nat16 c.node
  channel : Nat16 c.channel
  min : Int16 c.min
  max : Int16 c.max
  staleTimeout : Nat16 c.staleTimeout
  persistence : ∀ n, c.persistence = some n → Nat16 n
  drive : ∀ n, c.drive = some n → n < 256

/-- The numbers of an actuator entry that its bytes can carry. -/
structure ActCfg.Fits (c : ActCfg) : Prop where
  node : Nat16 c.node
  channel : Nat16 c.channel
  min : Int16 c.min
  max : Int16 c.max
  deadband : Nat16 c.deadband
  refresh : Nat16 c.refresh
  overrideHold : Nat16 c.overrideHold

/-- The threshold of a guard that its bytes can carry. -/
def Guard.Fits : Guard → Prop
  | .pointAbove _ x | .pointBelow _ x => Int16 x
  | .climateIs _ | .pointFresh _ => True

/-- The numbers of a cue that its bytes can carry. -/
structure Cue.Fits (c : Cue) : Prop where
  level : Int16 c.level
  fade : Nat16 c.fade
  delay : Nat16 c.delay
  guard : ∀ g, c.guard = some g → g.Fits
  skip : Nat16 c.skip

/-- The numbers of a zone's evaluation fields that their bytes can carry. -/
structure EvalCfg.Fits (c : EvalCfg) : Prop where
  period : Nat16 c.period
  rhOpen : Int16 c.rhOpen
  rhNight : Int16 c.rhNight
  krh : Int16 c.krh
  mthr : Int16 c.mthr
  kc : Int16 c.kc
  mcrit : Int16 c.mcrit

/-- The same of its heating fields. -/
structure HeatCfg.Fits (c : HeatCfg) : Prop where
  openOffset : Int16 c.openOffset
  nightOffset : Int16 c.nightOffset
  spMin : Int16 c.spMin
  spMax : Int16 c.spMax
  kp : Int16 c.kp
  ki : Int16 c.ki

/-- The same of its arbiter fields. -/
structure ArbCfg.Fits (c : ArbCfg) : Prop where
  dwell : Nat16 c.dwell
  don : Int16 c.don
  doff : Int16 c.doff
  voff : Int16 c.voff
  hvent : Int16 c.hvent
  fIdle : Int16 c.fIdle
  fNight : Int16 c.fNight
  fHeat : Int16 c.fHeat
  fdMin : Int16 c.fdMin
  fdMax : Int16 c.fdMax
  fVent : Int16 c.fVent
  fPurge : Int16 c.fPurge
  dMin : Int16 c.dMin
  dPurge : Int16 c.dPurge

/-- The same of its cover and purge fields. -/
structure CoverCfg.Fits (c : CoverCfg) : Prop where
  prep : Nat16 c.prep
  motion : Nat16 c.motion
  detect : Nat16 c.detect
  settle : Nat16 c.settle
  waitA : Nat16 c.waitA
  runB : Nat16 c.runB
  fanLevel : Int16 c.fanLevel

/-- A zone's configuration as WRITE_ENTRY carries it, without enabled (R27, R166). -/
def ZoneCfg.writeBytes (c : ZoneCfg) : List Byte := c.eval.bytes ++ c.heat.bytes ++ c.arb.bytes ++ c.cover.bytes

/-- The same of all its fields. -/
structure ZoneCfg.Fits (c : ZoneCfg) : Prop where
  eval : c.eval.Fits
  heat : c.heat.Fits
  arb : c.arb.Fits
  cover : c.cover.Fits

/-- The numbers of the PART record that its bytes can carry. -/
structure PartRecord.Fits (p : PartRecord) : Prop where
  own : Nat16 p.own
  supervisor : Nat16 p.supervisor
  ackTimeout : Nat16 p.ackTimeout
  priority : ∀ j, Nat16 (p.priority.get j)
  maxWait : ∀ j, Nat16 (p.maxWait.get j)
  captureThreshold : Nat16 p.captureThreshold

/-- The threshold of a watch's condition that its bytes can carry. -/
def WatchCondition.Fits : WatchCondition → Prop
  | .above x | .below x => Int16 x

/-- The request taken next is the segment that ends a WRITE_ENTRY on a table and an index, and the bytes gathered with it are
`bytes` (R167): a single segment, or the segment that the channel's staging record expects. -/
structure EndsWrite (s : State) (c : Channel) (t : Telegram) (table : Byte) (index : Nat) (bytes : List Byte) : Prop where
  inTwoBytes : index < 65536
  segment : ∃ (seg : Byte) (data : List Byte),
    NextIs s c t 3 ([table, BitVec.ofNat 8 (index / 256), BitVec.ofNat 8 (index % 256), seg, 1] ++ data) ∧
    (seg = 0 ∧ bytes = data ∨
      seg ≠ 0 ∧ ∃ held, bytes = held ++ data ∧
        s.mgmt.staging c = some { table := table.toNat, index := index, next := seg.toNat, bytes := held })

/-- That request taken, with the channel's staging record emptied (R167). -/
def State.written (s : State) (c : Channel) : State := (s.taken c).setStaging c none

/-- The bytes carry an entry of the table, its fields in range or not (R166, R167). -/
def CarriesEntry : TableId → List Byte → Prop
  | .point, bytes => ∃ e : PointCfg, e.Fits ∧ bytes = e.bytes
  | .actuator, bytes => ∃ e : ActCfg, e.Fits ∧ bytes = e.bytes
  | .group, bytes => ∃ codes : List Byte, codes.length < 256 ∧ bytes = BitVec.ofNat 8 codes.length :: codes
  | .sceneHeader, bytes => ∃ x : SceneHeader, x.cueCount < 65536 ∧ bytes = x.bytes
  | .cue, bytes => ∃ x : Cue, x.Fits ∧ bytes = x.bytes
  | .zone, bytes => ∃ e : ZoneCfg, e.Fits ∧ bytes = e.writeBytes
  | .saturation, bytes => ∃ sat : Vector Nat 17, (∀ i : Nat, (h : i < 17) → sat[i] < 65536) ∧ bytes = saturationBytes sat
  | .filter, bytes => ∃ f : FilterEntry, f.lo < 65536 ∧ f.hi < 65536 ∧ bytes = f.bytes
  | .part, bytes => ∃ p : PartRecord, p.Fits ∧ bytes = p.bytes

/-- The table has no entry of the index (R166). -/
def OutsideTable : TableId → Nat → Prop
  | .point, i => 128 ≤ i
  | .actuator, i => 96 ≤ i
  | .group, i | .filter, i => 16 ≤ i
  | .sceneHeader, i => 32 ≤ i
  | .cue, i => 32 ≤ i / 256 ∨ 16 ≤ i % 256
  | .zone, i => 4 ≤ i
  | .saturation, i | .part, i => i ≠ 0

/-- A write passes the protect check, on the marks as they are carried: it comes from the service port, or the stored entry carries no
mark and the written mark does not differ from the stored one (R3, R27, R106, R127). -/
def Unprotected (c : Channel) (stored written : Byte) : Prop := c = .service ∨ (stored ≠ 1 ∧ written = stored)

/-- A temperature kind (R4). -/
def PointKind.isTemperature (k : PointKind) : Prop := k = .airTemp ∨ k = .waterTemp ∨ k = .glazingTemp ∨ k = .outdoorTemp

/-- A contact kind (R1). -/
def PointKind.contact (k : PointKind) : Prop := k = .coverClosed ∨ k = .coverOpen

/-- What R4 and R5 demand of a point entry written in use, whose named values and yes/no bytes are those that R1 lists (R170). -/
structure PointEntryOk (s : State) (p : PointIx) (e : PointCfg) : Prop where
  codes : e.lineField.toNat ≤ 1 ∧ e.kindField.toNat ≤ 7 ∧ e.notifyField.toNat ≤ 1 ∧ e.protectField.toNat ≤ 1
  node : 1 ≤ e.node ∧ e.node ≤ 254
  channel : e.channel ≤ 3
  staleTimeout : 5 ≤ e.staleTimeout ∧ e.staleTimeout ≤ 3600
  limits : e.min ≤ e.max
  humidity : e.kind = .airRh → 0 ≤ e.min ∧ e.max ≤ 1000
  temperature : e.kind.isTemperature → -400 ≤ e.min ∧ e.max ≤ 800
  contactLimits : e.kind.contact → e.min = 0 ∧ e.max = 1
  outdoor : e.kind = .outdoorTemp → e.zone = .all
  oneZone : e.kind ≠ .outdoorTemp → e.kind ≠ .general → e.zone ≠ .all
  listed : ∀ n, e.zone ≠ .unlisted n
  persistence : e.kind.contact → ∃ n, e.persistence = some n ∧ 1 ≤ n ∧ n ≤ 15
  drive : e.kind.contact → ∃ a : ActIx, e.drive = some a.val ∧ (s.cfg.acts[a]).inUse = true ∧
    (s.cfg.acts[a]).kind = .coverDrive ∧ e.zone = .zone (s.cfg.acts[a]).zone
  contactsOnly : ¬ e.kind.contact → e.persistence = none ∧ e.drive = none
  key : ∀ q : PointIx, q ≠ p → (s.cfg.points[q]).inUse = true →
    ¬ ((s.cfg.points[q]).line = e.line ∧ (s.cfg.points[q]).node = e.node ∧ (s.cfg.points[q]).channel = e.channel)

/-- What step 4 of R127 demands of an actuator entry written in use, whose kind and mark are among those that R126 lists (R170). -/
structure ActuatorEntryOk (s : State) (a : ActIx) (e : ActCfg) : Prop where
  codes : e.kindField.toNat ≤ 7 ∧ e.protectField.toNat ≤ 1
  node : 1 ≤ e.node ∧ e.node ≤ 254
  channel : e.channel ≤ 3
  zone : e.zoneField.toNat ≤ 3
  limits : e.min ≤ e.max
  levels : e.kind = .heatValve ∨ e.kind = .supplyFan ∨ e.kind = .oaDamper ∨ e.kind = .purgeFan ∨ e.kind = .dimmer →
    0 ≤ e.min ∧ e.max ≤ 1000
  drive : e.kind = .coverDrive → 0 ≤ e.min ∧ e.max ≤ 2
  deadband : e.deadband ≤ 100
  refresh : e.refresh = 0 ∨ 10 ≤ e.refresh ∧ e.refresh ≤ 3600
  overrideHold : 1 ≤ e.overrideHold ∧ e.overrideHold ≤ 240
  key : ∀ b : ActIx, b ≠ a → (s.cfg.acts[b]).inUse = true →
    ¬ ((s.cfg.acts[b]).node = e.node ∧ (s.cfg.acts[b]).channel = e.channel)

/-- What step 2 of R154 demands of a filter entry written in use. -/
structure FilterEntryOk (f : FilterEntry) : Prop where
  range : 1 ≤ f.lo ∧ f.lo ≤ f.hi ∧ f.hi ≤ 255
  codes : f.dirField.toNat ≤ 2 ∧ f.actionField.toNat ≤ 1

/-- A number between 0 and 1000, in permille or tenths of a percent. -/
abbrev Permille (x : Int) : Prop := 0 ≤ x ∧ x ≤ 1000

/-- The ranges of R25, R46, R64 and R83 with the orders of R27, R47 and R65. -/
structure ZoneEntryOk (e : ZoneCfg) : Prop where
  period : 2 ≤ e.eval.period ∧ e.eval.period ≤ 60
  humidities : Permille e.eval.rhOpen ∧ Permille e.eval.rhNight
  gains : (0 ≤ e.eval.krh ∧ e.eval.krh ≤ 100) ∧ (0 ≤ e.eval.kc ∧ e.eval.kc ≤ 100)
  margins : 0 ≤ e.eval.mcrit ∧ e.eval.mcrit ≤ e.eval.mthr ∧ e.eval.mthr ≤ 300
  offsets : (-50 ≤ e.heat.openOffset ∧ e.heat.openOffset ≤ 50) ∧ (-50 ≤ e.heat.nightOffset ∧ e.heat.nightOffset ≤ 50)
  setpoints : -400 ≤ e.heat.spMin ∧ e.heat.spMin ≤ e.heat.spMax ∧ e.heat.spMax ≤ 800
  loop : (0 ≤ e.heat.kp ∧ e.heat.kp ≤ 100) ∧ (0 ≤ e.heat.ki ∧ e.heat.ki ≤ 255)
  dwell : 30 ≤ e.arb.dwell ∧ e.arb.dwell ≤ 1800
  drying : 1 ≤ e.arb.don ∧ e.arb.don ≤ 1000 ∧ 0 ≤ e.arb.doff ∧ e.arb.doff ≤ e.arb.don
  vent : (0 ≤ e.arb.voff ∧ e.arb.voff ≤ 300) ∧ Permille e.arb.hvent
  fans : Permille e.arb.fIdle ∧ Permille e.arb.fNight ∧ Permille e.arb.fHeat ∧ Permille e.arb.fVent ∧
    Permille e.arb.fPurge
  dryFans : 0 ≤ e.arb.fdMin ∧ e.arb.fdMin ≤ e.arb.fdMax ∧ e.arb.fdMax ≤ 1000
  dampers : Permille e.arb.dMin ∧ Permille e.arb.dPurge
  prep : 10 ≤ e.cover.prep ∧ e.cover.prep ≤ 300
  motion : 10 ≤ e.cover.motion ∧ e.cover.motion ≤ 900
  detect : 10 ≤ e.cover.detect ∧ e.cover.detect ≤ 300
  settle : e.cover.settle ≤ 600
  waitA : 5 ≤ e.cover.waitA ∧ e.cover.waitA ≤ 480
  runB : 1 ≤ e.cover.runB ∧ e.cover.runB ≤ 120
  purgeFan : Permille e.cover.fanLevel

/-- The ranges of R133, R168 and R176. -/
structure PartRecordOk (p : PartRecord) : Prop where
  own : 1 ≤ p.own ∧ p.own ≤ 254
  supervisor : 1 ≤ p.supervisor ∧ p.supervisor ≤ 255
  ackTimeout : 100 ≤ p.ackTimeout ∧ p.ackTimeout ≤ 5000
  priority : ∀ j : Job, p.priority.get j ≤ 6
  maxWait : ∀ j : Job, 1 ≤ p.maxWait.get j ∧ p.maxWait.get j ≤ 15
  captureThreshold : 1 ≤ p.captureThreshold ∧ p.captureThreshold ≤ 32

/-! ### Start-up -/

/-- The part after the load and the block reset of R189, before its zones start. -/
def State.loadedFrom (s : State) (image : Image) (cfg : ConfigData) (trunkActive : Bool) : State :=
  { State.reset with
    cfg := cfg, zones := cfg.zones.map ZoneRt.reset, lines := { State.reset.lines with trunkActive := trunkActive }
    image := image, imageState := .passed, configured := true, pending := s.pending }

/-- The enabled zones have entered DETECT (R189 step 3, R87): a zone without working drives has gone on to OPEN_IDLE, any other
waits in DETECT with its timer running; disabled zones stand. -/
structure StartsFrom (base u : State) : Prop where
  work : ZoneWork (fun z => base.enabled z = true) base u
  open_idle : ∀ z : ZoneIx, base.enabled z = true → base.formDrives z = [] → (u.zones[z]).cover.state = .openIdle
  detecting : ∀ z : ZoneIx, base.enabled z = true → base.formDrives z ≠ [] →
    (u.zones[z]).cover = { state := .detect, reason := none, drives := base.formDrives z
                           detectTimer := .running ((base.cfg.zones[z]).cover.detect * 1000), prepTimer := .stopped
                           motionTimer := .stopped, settleTimer := .stopped, lightingReady := false
                           workSceneTaken := false }

/-! ### Evaluations -/

/-- What stages 1 to 8 of an evaluation of a zone form, stage by stage (R20, R21, R34 to R41, R49 to R56); `e` and `h` are the
results, and the timer, the evaluation's time and the period are not among them. -/
structure EvaluationForms (s : State) (z : ZoneIx) (e : EvalRt) (h : HeatRt) : Prop where
  ta : e.ta = (s.zones[z]).eval.ta.form (mean (s.members .airTemp (.zone z)))
  rh : e.rh = (s.zones[z]).eval.rh.form (mean (s.members .airRh (.zone z)))
  tw : e.tw = (s.zones[z]).eval.tw.form (mean (s.members .waterTemp (.zone z)))
  tg : e.tg = (s.zones[z]).eval.tg.form (s.members .glazingTemp (.zone z)).min?
  tout : e.tout = (s.zones[z]).eval.tout.form (mean (s.members .outdoorTemp .all))
  noAirData : e.noAirData = true ↔ e.ta.last = none ∨ e.rh.last = none
  skipped : e.noAirData = true →
    e = { (s.zones[z]).eval with ta := e.ta, rh := e.rh, tw := e.tw, tg := e.tg, tout := e.tout, noAirData := true }
  air : ∀ ta rh, e.ta.last = some ta → e.rh.last = some rh →
    e.tc = some (clamp ta (-200) 600) ∧
    e.psat = some (saturationPressure s.cfg.saturation (clamp ta (-200) 600)) ∧
    e.pv = some (vapourPressure (saturationPressure s.cfg.saturation (clamp ta (-200) 600)) rh) ∧
    e.td = some (dewPoint s.cfg.saturation
      (vapourPressure (saturationPressure s.cfg.saturation (clamp ta (-200) 600)) rh)) ∧
    (e.tClamp = true ↔ (s.zones[z]).eval.tClamp = true ∨ ta < -200 ∨ 600 < ta) ∧
    (e.dewLow = true ↔ (s.zones[z]).eval.dewLow = true ∨
      ∃ pv, e.pv = some pv ∧ pv < satAt s.cfg.saturation 0)
  margin : e.noAirData = false → (∀ tg td, e.tg.last = some tg → e.td = some td → e.margin = some (tg - td)) ∧
    (e.tg.last = none → e.margin = none) ∧ e.heldMargin = e.tg.held
  demand : ∀ rh, e.noAirData = false → e.rh.last = some rh →
    e.dRh = clamp ((rh - (if (s.zones[z]).cover.state = .covered then (s.cfg.zones[z]).eval.rhNight
      else (s.cfg.zones[z]).eval.rhOpen)) * (s.cfg.zones[z]).eval.krh) 0 1000 ∧
    e.dCond = (match e.margin with
      | some m => clamp (((s.cfg.zones[z]).eval.mthr - m) * (s.cfg.zones[z]).eval.kc) 0 1000
      | none => 0) ∧
    e.d = max e.dRh e.dCond
  crit : e.noAirData = false → (e.crit = true ↔
    ((s.zones[z]).eval.crit = false ∧ ∃ m, e.margin = some m ∧ m < (s.cfg.zones[z]).eval.mcrit) ∨
    ((s.zones[z]).eval.crit = true ∧ ∀ m, e.margin = some m → m < (s.cfg.zones[z]).eval.mcrit + 5))
  setpoint : (∀ tw, e.tw.last = some tw → h.heldSetpoint = false ∧
      h.spa = some (clamp (tw + (if (s.zones[z]).cover.state = .covered then (s.cfg.zones[z]).heat.nightOffset
        else (s.cfg.zones[z]).heat.openOffset)) (s.cfg.zones[z]).heat.spMin (s.cfg.zones[z]).heat.spMax)) ∧
    (e.tw.last = none → h.heldSetpoint = true ∧ h.spa = some (match (s.zones[z]).heat.spa with
      | some spa => clamp spa (s.cfg.zones[z]).heat.spMin (s.cfg.zones[z]).heat.spMax
      | none => (s.cfg.zones[z]).heat.spMin))
  kept : e.ta.last = none → h = { (s.zones[z]).heat with spa := h.spa, heldSetpoint := h.heldSetpoint }
  heating : ∀ ta spa, e.ta.last = some ta → h.spa = some spa →
    let error := clamp (spa - ta) (-1000) 1000
    let pterm := (s.cfg.zones[z]).heat.kp * error
    let formed := (s.zones[z]).heat.i + (s.cfg.zones[z]).heat.ki * error
    let trial := pterm + formed.tdiv 64
    let candidate := if (1000 < trial ∧ 0 < error) ∨ (trial < 0 ∧ error < 0) then (s.zones[z]).heat.i else formed
    h.e = some error ∧ h.i = clamp candidate 0 64000 ∧ h.h = clamp (pterm + h.i.tdiv 64) 0 1000 ∧
    (h.integLimit = true ↔ (s.zones[z]).heat.integLimit = true ∨ candidate < 0 ∨ 64000 < candidate ∨
      ((candidate = 0 ∨ candidate = 64000) ∧ (s.zones[z]).heat.i ≠ 0 ∧ (s.zones[z]).heat.i ≠ 64000))

/-- The zone's record with the results of an evaluation, its timer running again with the full period (R30, R31). -/
def State.withEvaluation (s : State) (z : ZoneIx) (e : EvalRt) (h : HeatRt) : State :=
  s.updZone z fun r => { r with
    eval := { e with timer := .running ((s.cfg.zones[z]).eval.period * 1000), startedPeriod := (s.cfg.zones[z]).eval.period
                     lastTime := some s.now }
    heat := h }

/-! ### The air handler -/

/-- Vent availability (R69). -/
def VentAvailable (s : State) (z : ZoneIx) : Prop :=
  ∃ tout td, (s.zones[z]).eval.tout.last = some tout ∧ (s.zones[z]).eval.td = some td ∧
    tout ≤ td - (s.cfg.zones[z]).arb.voff ∧ (s.zones[z]).heat.h < (s.cfg.zones[z]).arb.hvent

/-- The condition of a row of R68. -/
def RowHolds (s : State) (z : ZoneIx) : ChoiceRow → Prop
  | .disabled => s.enabled z = false
  | .crit => (s.zones[z]).eval.crit = true
  | .purge => ((s.zones[z]).purge.state = .request ∨ (s.zones[z]).purge.state = .run ∨ (s.zones[z]).purge.state = .suspended) ∧
    (s.zones[z]).cover.state = .covered
  | .drying => (s.cfg.zones[z]).arb.don ≤ (s.zones[z]).eval.d ∨
    (((s.zones[z]).arb.granted = .dry ∨ (s.zones[z]).arb.granted = .vent) ∧ (s.cfg.zones[z]).arb.doff ≤ (s.zones[z]).eval.d)
  | .heating => 0 < (s.zones[z]).heat.h
  | .none => True

/-- The rows that stand above a row (R68). -/
def ChoiceRow.above : ChoiceRow → List ChoiceRow
  | .disabled => []
  | .crit => [.disabled]
  | .purge => [.disabled, .crit]
  | .drying => [.disabled, .crit, .purge]
  | .heating => [.disabled, .crit, .purge, .drying]
  | .none => [.disabled, .crit, .purge, .drying, .heating]

/-- The row makes the choice, and the mode is its mode (R68). -/
structure Chooses (s : State) (z : ZoneIx) (row : ChoiceRow) (mode : Mode) : Prop where
  holds : RowHolds s z row
  first : ∀ r ∈ row.above, ¬ RowHolds s z r
  idle : row = .disabled ∨ row = .none → mode = .idle
  purge : row = .purge → mode = .purge
  heating : row = .heating → mode = .heat
  vent : row = .crit ∨ row = .drying → VentAvailable s z → mode = .vent
  dry : row = .crit ∨ row = .drying → ¬ VentAvailable s z → mode = .dry

/-- The change passes the dwell test (R71). -/
def PassesDwell (s : State) (z : ZoneIx) (row : ChoiceRow) (release : Bool) : Prop :=
  (s.zones[z]).arb.dwell = .stopped ∨ row = .disabled ∨ ((s.zones[z]).arb.granted = .purge ∧ release = true) ∨
    (row = .crit ∧ ((s.zones[z]).arb.granted = .idle ∨ (s.zones[z]).arb.granted = .heat ∨ (s.zones[z]).arb.granted = .purge))

/-- The change passes the test of hold (R72). -/
def PassesHold (s : State) (z : ZoneIx) (row : ChoiceRow) (release : Bool) : Prop :=
  (s.zones[z]).held = false ∨ row = .disabled ∨ ((s.zones[z]).arb.granted = .purge ∧ release = true)

/-- The cause of an effective change (R73). -/
def causeOf (s : State) (z : ZoneIx) (row : ChoiceRow) (release : Bool) : ModeCause :=
  if row = .disabled then .zoneDisabled
  else if (s.zones[z]).arb.granted = .purge ∧ release = true then .purgeEnd
  else match row with
    | .crit => .crit
    | .purge => .purge
    | .drying => .dryDemand
    | .heating => .heatDemand
    | .none | .disabled => .noDemand

/-- The value that the granted mode of a zone requests of an actuator of the air handler (R77). -/
def airOutput (s : State) (z : ZoneIx) (mode : Mode) : ActKind → Option Int
  | .ahuMode => some (match mode with | .idle => 0 | .heat => 1 | .dry => 2 | .vent => 3 | .purge => 4)
  | .supplyFan =>
    let c := (s.cfg.zones[z]).arb
    some (match mode with
      | .idle => if (s.zones[z]).cover.state = .covered then c.fNight else c.fIdle
      | .heat => c.fHeat
      | .dry => c.fdMin + ((c.fdMax - c.fdMin) * (s.zones[z]).eval.d).tdiv 1000
      | .vent => c.fVent
      | .purge => c.fPurge)
  | .oaDamper =>
    let c := (s.cfg.zones[z]).arb
    some (match mode with
      | .idle | .heat | .dry => c.dMin
      | .vent => c.dMin + ((1000 - c.dMin) * (s.zones[z]).eval.d).tdiv 1000
      | .purge => c.dPurge)
  | .heatValve | .coverDrive | .purgeFan | .dimmer | .plain => none

/-! ### Contacts -/

/-- The known state of a contact, none where it is unknown (R15). -/
def PointRt.contactKnown (r : PointRt) : Option Bool := if r.state = .fresh then r.contact else none

/-- What the cover sequencer is told when a contact's known state passes from one value to another (R15). -/
def toldOf : (before after : Option Bool) → Option ContactReport
  | none, none => none
  | none, some made => some (.known made)
  | some was, some made => if was = made then none else some (.changed made)
  | some _, none => some .unknown

/-- The cover sequencer has been told, if there is something to tell and the entry is a contact (R15). -/
def State.told (s : State) (p : PointIx) (c : PointCfg) (report : Option ContactReport) : State :=
  match report with
  | some report => if c.kind = .coverClosed ∨ c.kind = .coverOpen then s.coverContact p c report else s
  | none => s

/-- An actuator is an in-use cover drive of the zone (R16). -/
def DriveOf (s : State) (z : ZoneIx) (a : ActIx) : Prop :=
  (s.cfg.acts[a]).inUse = true ∧ (s.cfg.acts[a]).kind = .coverDrive ∧ (s.cfg.acts[a]).zone = z

/-- A point is an in-use contact of the zone, of a kind, that names the drive (R16). -/
def NamesDrive (s : State) (z : ZoneIx) (kind : PointKind) (a : ActIx) (p : PointIx) : Prop :=
  (s.cfg.points[p]).inUse = true ∧ (s.cfg.points[p]).kind = kind ∧ (s.cfg.points[p]).zone = .zone z ∧
    (s.cfg.points[p]).drive = some a.val

/-- A drive stands at the end whose contacts are of the kind `own` (R84). -/
structure StandsAt (s : State) (z : ZoneIx) (own other : PointKind) (a : ActIx) : Prop where
  drive : DriveOf s z a
  contact : ∃ p, NamesDrive s z own a p
  made : ∀ p, NamesDrive s z own a p → (s.points[p]).contactKnown = some true
  single : ∀ p, NamesDrive s z other a p → (s.points[p]).contactKnown ≠ some true

/-- The working drives all stand at their closed ends, or all at their open ends (R84). -/
def AllClosed (s : State) (z : ZoneIx) (drives : List ActIx) : Prop := ∀ a ∈ drives, StandsAt s z .coverClosed .coverOpen a
def AllOpen (s : State) (z : ZoneIx) (drives : List ActIx) : Prop := ∀ a ∈ drives, StandsAt s z .coverOpen .coverClosed a

/-- A contact entry names a working drive of the zone (R15, R16, R84). -/
def ReportsDrive (s : State) (z : ZoneIx) (c : PointCfg) : Prop :=
  c.zone = .zone z ∧ ∃ a : ActIx, c.drive = some a.val ∧ DriveOf s z a ∧ a ∈ (s.zones[z]).cover.drives

/-! ### Covers -/

/-- The zone's cover sequencer has entered a state in which no timer runs and no cover work is in progress, with its ring record
and the arbiter's decision (R85, R86). -/
structure CoverRests (s u : State) (z : ZoneIx) (next : CoverState) (reason : Option FaultReason) (cause : CoverCause) : Prop where
  work : OneZoneWork z s u
  cover : (u.zones[z]).cover =
    { state := next, reason := reason, drives := (s.zones[z]).cover.drives, detectTimer := .stopped, prepTimer := .stopped
      motionTimer := .stopped, settleTimer := .stopped, lightingReady := false, workSceneTaken := false }
  noWork : (u.zones[z]).scene.coverWork = false
  record : s.acct.frozen = false →
    { time := s.now, zone := z, entry := .cover (s.zones[z]).cover.state next cause } ∈ u.acct.ring
  decided : (u.zones[z]).arb.lastDecision = some s.now

/-- A value brought within an actuator's limits (R129). -/
def ActCfg.limited (c : ActCfg) (v : Int) : Int := if v < c.min then c.min else if c.max < v then c.max else v

/-- The value was requested of every working drive of the zone that is its drive still (R84, R129). -/
def DrivesRequested (s u : State) (z : ZoneIx) (v : Int) : Prop :=
  ∀ a ∈ (s.zones[z]).cover.drives, (s.cfg.acts[a]).inUse = true → (s.cfg.acts[a]).kind = .coverDrive →
    (s.cfg.acts[a]).zone = z → (u.acts[a]).requested = some ((s.cfg.acts[a]).limited v)

/-- A level was requested of every purge fan of the zone (R98, R129). -/
def FansRequested (s u : State) (z : ZoneIx) (v : Int) : Prop :=
  ∀ a : ActIx, (s.cfg.acts[a]).inUse = true → (s.cfg.acts[a]).kind = .purgeFan → (s.cfg.acts[a]).zone = z →
    (u.acts[a]).requested = some ((s.cfg.acts[a]).limited v)

/-- No purge fan has been asked for anything. -/
def FansStand (s u : State) : Prop := ∀ a : ActIx, (s.cfg.acts[a]).kind = .purgeFan → u.acts[a] = s.acts[a]

/-- An amount has been added to an accumulator of the zone, if it is enabled and RUN is on (R177). -/
def Accounted (s u : State) (z : ZoneIx) (a : AccIx) (amount : Nat) : Prop :=
  ((s.cfg.part.accOptions[z])[a]).enabled = true → s.cfg.part.run = true →
    ((u.acct.accs[z])[a]).value = ((s.acct.accs[z])[a]).value + BitVec.ofNat 32 amount

/-- What each way out of PURGE_RUN does: the fans are requested 0, and the completed seconds of the run are added to PURGE_RUN_S
(R101, log 4). -/
structure PurgeRunLeft (s u : State) (z : ZoneIx) : Prop where
  fans : FansRequested s u z 0
  account : Accounted s u z 3 ((s.zones[z]).purge.runCounted / 1000)

/-- The grant of a running purge has been withdrawn: it is suspended with the rest of its run, or waits anew with none left (R74,
R101). -/
structure PurgeWithdrawn (s u : State) (z : ZoneIx) : Prop extends PurgeRunLeft s u z where
  purge : (u.zones[z]).purge =
    if (s.zones[z]).purge.remainingRun = 0 then
      { state := .wait, remainingWait := (s.cfg.zones[z]).cover.waitA * 60 * 1000, remainingRun := 0, runCounted := 0
        runStart := none }
    else { (s.zones[z]).purge with state := .suspended, runCounted := 0 }

/-- PURGE has been granted to a purge that is requested, which starts its run, or to one suspended, which goes on with the rest of
it; the fans are requested their level (R74, R100). -/
structure PurgeGranted (s u : State) (z : ZoneIx) : Prop where
  fans : FansRequested s u z (s.cfg.zones[z]).cover.fanLevel
  starts : (s.zones[z]).purge.state = .request → (u.zones[z]).purge = { (s.zones[z]).purge with
    state := .run, runCounted := 0, remainingRun := (s.cfg.zones[z]).cover.runB * 60 * 1000, runStart := some s.now }
  resumes : (s.zones[z]).purge.state = .suspended →
    (u.zones[z]).purge = { (s.zones[z]).purge with state := .run, runCounted := 0 }

/-- The covers have left COVERED in a zone that stays enabled: the purge timer is INACTIVE, a run has been left and any other state
requested nothing, and a PURGE grant has been released (R75, R102). -/
structure LeavesCovered (s u : State) (z : ZoneIx) : Prop where
  purge : (u.zones[z]).purge = { state := .inactive, remainingWait := 0, remainingRun := 0, runCounted := 0, runStart := none }
  run : (s.zones[z]).purge.state = .run → PurgeRunLeft s u z
  rest : (s.zones[z]).purge.state ≠ .run → FansStand s u
  released : s.enabled z = true → (s.zones[z]).arb.granted = .purge →
    (u.zones[z]).arb.granted ≠ .purge ∧ (u.zones[z]).arb.lastCause = some .purgeEnd

/-- The drive check of R90 passes for the drives that would be formed now. -/
def DrivesReady (s : State) (z : ZoneIx) : Prop :=
  s.formDrives z ≠ [] ∧ ∀ a ∈ s.formDrives z, (s.acts[a]).control = .enabled ∧ (s.acts[a]).health = .ok ∧
    (s.cfg.acts[a]).min = 0 ∧ (s.cfg.acts[a]).max = 2 ∧ (s.cfg.acts[a]).deadband = 0

/-- The covers have entered motion with the drives formed, the value requested of each, and the motion timer running (R90). -/
structure CoversMove (s u : State) (z : ZoneIx) (motion : CoverState) (v : Int) (workSceneTaken : Bool) : Prop where
  cover : (u.zones[z]).cover =
    { state := motion, reason := none, drives := s.formDrives z, detectTimer := .stopped, prepTimer := .stopped
      motionTimer := .running ((s.cfg.zones[z]).cover.motion * 1000), settleTimer := .stopped
      lightingReady := false, workSceneTaken := workSceneTaken }
  requested : ∀ a ∈ s.formDrives z, (u.acts[a]).requested = some v

/-- The scene that a cover state calls for, if the zone has one, has been taken, and counted in SCENE_CHANGES (R83, R86 step 4,
R112). -/
def SceneTaken (s u : State) (z : ZoneIx) (scene : Option SceneIx) (origin : TakeOrigin) : Prop :=
  ∀ n, scene = some n → (u.zones[z]).scene.scene = some n ∧ (u.zones[z]).scene.origin = some origin ∧
    (u.zones[z]).scene.takeTime = some s.now ∧ Accounted s u z 5 1

/-- A notice raised in a change that raises at most two others before it; it waits in its queue unless the queue was nearly full
(R173). -/
def Noticed (s u : State) (kind : NoticeKind) (z : ZoneIx) (detail : List Byte) : Prop :=
  s.mgmt.notices.length < 6 →
    { kind := kind, zone := BitVec.ofNat 8 z, time := s.now, detail := detail } ∈ u.mgmt.notices

/-- The covers have come to rest in COVERED, the purge wait begins and the night scene is taken (R86, R87, R91, R99). -/
structure CoversClosed (s u : State) (z : ZoneIx) (cause : CoverCause) : Prop where
  rests : CoverRests s u z .covered none cause
  purge : (u.zones[z]).purge = { (s.zones[z]).purge with
    state := .wait, remainingWait := (s.cfg.zones[z]).cover.waitA * 60 * 1000, remainingRun := 0, runStart := none }
  scene : SceneTaken s u z (s.cfg.zones[z]).cover.nightScene .nightScene
  notice : Noticed s u .coverState z
    [BitVec.ofNat 8 (coverStateOrder.idxOf .covered), BitVec.ofNat 8 (coverCauseOrder.idxOf cause)]

/-- The covers have come to rest in OPEN_IDLE and the open scene is taken (R86, R87, R91). -/
structure CoversOpened (s u : State) (z : ZoneIx) (cause : CoverCause) : Prop where
  rests : CoverRests s u z .openIdle none cause
  scene : SceneTaken s u z (s.cfg.zones[z]).cover.openScene .openScene
  notice : Noticed s u .coverState z
    [BitVec.ofNat 8 (coverStateOrder.idxOf .openIdle), BitVec.ofNat 8 (coverCauseOrder.idxOf cause)]

/-- The cover sequencer has entered FAULT, drives in motion stopped first, and a purge ended if the covers were COVERED; `index` is
the point or actuator concerned, 255 where none is (R86, R90, R92, R93, R94, R102). -/
structure CoversFail (s u : State) (z : ZoneIx) (reason : FaultReason) (index : Nat) : Prop where
  rests : CoverRests s u z .fault (some reason) (.fault reason)
  stopped : (s.zones[z]).cover.state = .deploying ∨ (s.zones[z]).cover.state = .retracting → DrivesRequested s u z 0
  notice : Noticed s u .coverFault z [BitVec.ofNat 8 (faultReasonOrder.idxOf reason),
    BitVec.ofNat 8 (coverStateOrder.idxOf (s.zones[z]).cover.state), BitVec.ofNat 8 index]
  leaves : (s.zones[z]).cover.state = .covered → LeavesCovered s u z

/-- The covers were to enter motion after their preparation, and the drive check failed: FAULT with reason DRIVE, for the drive that
failed or, without drives, for none (R90). -/
def MotionRefused (s u : State) (z : ZoneIx) : Prop :=
  ∃ index : Nat, CoversFail (s.updZone z fun r => { r with cover := { r.cover with drives := s.formDrives z } }) u z .drive index ∧
    (s.formDrives z = [] → index = 255) ∧ (s.formDrives z ≠ [] → ∃ a ∈ s.formDrives z, index = a.val)

/-! ### Scenes -/

/-- A cue's guard is absent or true (R113). -/
def GuardTrue (s : State) (z : ZoneIx) : Option Guard → Prop
  | none => True
  | some (.climateIs .night) => (s.zones[z]).cover.state = .covered
  | some (.climateIs .openHall) => (s.zones[z]).cover.state ≠ .covered
  | some (.pointAbove p x) => (s.cfg.points[p]).inUse = true ∧ (s.points[p]).state = .fresh ∧
    ∃ v, (s.points[p]).value = some v ∧ x < v
  | some (.pointBelow p x) => (s.cfg.points[p]).inUse = true ∧ (s.points[p]).state = .fresh ∧
    ∃ v, (s.points[p]).value = some v ∧ v < x
  | some (.pointFresh p) => (s.cfg.points[p]).inUse = true ∧ (s.points[p]).state = .fresh

/-- The walk over the cues of a scene, `k` of them still to be passed over: which cues are applied (R113). -/
inductive Walk (s : State) (z : ZoneIx) : (k : Nat) → List Cue → List Bool → Prop where
  | done (k : Nat) : Walk s z k [] []
  | passed {k : Nat} {c : Cue} {cues : List Cue} {l : List Bool} : Walk s z k cues l → Walk s z (k + 1) (c :: cues) (false :: l)
  | applied {c : Cue} {cues : List Cue} {l : List Bool} :
    GuardTrue s z c.guard → Walk s z 0 cues l → Walk s z 0 (c :: cues) (true :: l)
  | withheld {c : Cue} {cues : List Cue} {l : List Bool} :
    ¬ GuardTrue s z c.guard → Walk s z c.skip cues l → Walk s z 0 (c :: cues) (false :: l)

/-- A cue as a take leaves it before any cue has started: withheld, or applied with the channels of its target that are in-use
dimmers of the zone, started where there is none and pending with its delay otherwise (R112, R114). -/
def cueTaken (s : State) (z : ZoneIx) (applied : Bool) (c : Cue) : CueRun :=
  let named : List ActIx := match c.target with
    | none => []
    | some (.actuator a) => [a]
    | some (.group g) => s.cfg.groups[g]
  let channels := named.filter fun a =>
    decide ((s.cfg.acts[a]).inUse = true ∧ (s.cfg.acts[a]).kind = .dimmer ∧ (s.cfg.acts[a]).zone = z)
  if applied then { status := if channels = [] then .started else .pending (c.delay * 100), channels := channels }
  else { status := .withheld, channels := [] }

/-- A touched channel is settled (R118). -/
def ChannelSettled (s : State) (t : Touched) : Prop :=
  let r := s.acts[t.act]
  r.control ≠ .overridden ∧ r.dispatch = .idle ∧ r.needsSend = false ∧
    ∃ x v, r.confirmed = some x ∧ r.requested = some v ∧ (x = v ∨ (x - v).natAbs < (s.cfg.acts[t.act]).deadband)

/-- A touched channel is degraded (R118). -/
def ChannelDegraded (s : State) (t : Touched) : Prop :=
  let r := s.acts[t.act]
  r.control ≠ .overridden ∧
    (r.health ≠ .ok ∨ r.control = .disabled ∨ r.control = .disabling ∨ t.rangeRefused = true)

/-- The finding of a judgement of completion on a zone's touched channels (R119): the new state, and the degraded channel. -/
structure Finding (s : State) (z : ZoneIx) (state : SceneState) (degraded : Option ActIx) : Prop where
  fails : ∀ t ∈ (s.zones[z]).scene.touched, ChannelDegraded s t →
    state = .completeDegraded ∧ ∃ a, degraded = some a ∧ a ≤ t.act
  lowest : ∀ a, degraded = some a → ∃ t ∈ (s.zones[z]).scene.touched, t.act = a ∧ ChannelDegraded s t
  completes : (∀ t ∈ (s.zones[z]).scene.touched, ¬ ChannelDegraded s t ∧ ChannelSettled s t) → state = .complete
  waits : (∀ t ∈ (s.zones[z]).scene.touched, ¬ ChannelDegraded s t) →
    (∃ t ∈ (s.zones[z]).scene.touched, ¬ ChannelSettled s t) → state = .settling

/-- The engine is at work on its take: a cue is pending or a fade is in progress (R112 step 7, R119). -/
def AtWork (e : SceneRt) : Prop := (∃ run ∈ e.cues, ∃ ms, run.status = .pending ms) ∨ ∃ t ∈ e.touched, t.fade ≠ none

/-- The cues whose delay has run out, in ascending index (R115). -/
def dueCues (e : SceneRt) : List Nat :=
  (List.range 16).filter fun i => decide ((e.cues[i]?).map CueRun.status = some (.pending 0))

/-- Those cues have started, one after another in ascending index (R112 step 6, R122). -/
def State.cuesStarted (s : State) (z : ZoneIx) : State := (dueCues (s.zones[z]).scene).foldl (fun u i => u.startCue z i) s

/-- The part after steps 1 to 5 of a take: the record of the take with its cues pending and its channels without owner, in RUNNING,
the ring's record of it, and SCENE_CHANGES offered 1 (R112). -/
def State.takeBegun (s : State) (z : ZoneIx) (n : SceneIx) (origin : TakeOrigin) : State :=
  let begun := s.updZone z fun r => { r with scene := { r.scene with
    state := .running, scene := some n, origin := some origin, takeTime := some s.now, cues := s.takeCues z n
    touched := ((s.takeCues z n).flatMap CueRun.channels).eraseDups.map fun a =>
      { act := a, owner := none, fade := none, rangeRefused := false }
    stepTimer := .stopped } }
  let entry : RingRecord := { time := s.now, zone := z, entry := .scene (s.zones[z]).scene.scene n origin }
  let kept := if s.acct.ring.length < 16 then s.acct.ring else s.acct.ring.drop 1
  (if s.acct.frozen then begun else { begun with acct := { s.acct with ring := kept ++ [entry] } }).offer z 5 1

/-! ### The dispatcher -/

/-- Eligibility to join a queue (R130). -/
structure MayQueue (s : State) (a : ActIx) : Prop where
  inUse : (s.cfg.acts[a]).inUse = true
  owned : (s.cfg.acts[a]).kind ≠ .plain
  needsSend : (s.acts[a]).needsSend = true
  idle : (s.acts[a]).dispatch = .idle
  control : (s.acts[a]).control = .enabled
  zone : s.enabled (s.cfg.acts[a]).zone = true
  retry : (s.acts[a]).retryTimer = .stopped
  hold : (s.zones[(s.cfg.acts[a]).zone]).held = false ∨
    ((s.cfg.acts[a]).kind = .coverDrive ∧ (s.acts[a]).requested = some 0)

/-- The actuators of a zone that may queue have joined the tails of their queues, in ascending index (R147). -/
structure QueuesRejoined (s u : State) (z : ZoneIx) : Prop where
  joined : ∃ l : List ActIx, l.Pairwise (· < ·) ∧ (∀ a, a ∈ l ↔ (s.cfg.acts[a]).zone = z ∧ MayQueue s a) ∧
    (∀ j : Job, u.disp.queues.get j =
      s.disp.queues.get j ++ l.filter fun a => decide ((s.cfg.acts[a]).kind.job = some j)) ∧
    ∀ a : ActIx, u.acts[a] = if a ∈ l then { s.acts[a] with dispatch := .queued } else s.acts[a]
  stands : u = { s with disp := { s.disp with queues := u.disp.queues }, acts := u.acts }

/-! ### The clearing of a hold -/

/-- A paused timer runs on from its remaining time (R95, R122). -/
def Timer.runOn : Timer → Timer
  | .paused n => .running n
  | .running n => .running n
  | .stopped => .stopped

/-- The cover sequencer at the clearing of a hold: its timers run on; in motion the drives are requested again, a preparation whose
lighting is ready goes on into motion, and nothing else happens (R95, R90). -/
structure CoversReleased (s u : State) (z : ZoneIx) (released : State) : Prop where
  timers : released = s.updZone z fun r => { r with cover := { r.cover with
    prepTimer := r.cover.prepTimer.runOn, motionTimer := r.cover.motionTimer.runOn, settleTimer := r.cover.settleTimer.runOn } }
  moving : ∀ v : Int, ((s.zones[z]).cover.state = .deploying ∧ v = 1 ∨ (s.zones[z]).cover.state = .retracting ∧ v = 2) →
    DrivesRequested s u z v ∧ (∀ a, a ∉ (s.zones[z]).cover.drives → u.acts[a] = s.acts[a]) ∧
    u = { released with disp := { s.disp with queues := u.disp.queues }, acts := u.acts }
  goesOn : ((s.zones[z]).cover.state = .prepClose ∨ (s.zones[z]).cover.state = .prepOpen) →
    (s.zones[z]).cover.lightingReady = true → OneZoneWork z s u ∧
    (DrivesReady s z → (s.zones[z]).cover.state = .prepClose → CoversMove s u z .deploying 1 (s.zones[z]).cover.workSceneTaken) ∧
    (DrivesReady s z → (s.zones[z]).cover.state = .prepOpen → CoversMove s u z .retracting 2 (s.zones[z]).cover.workSceneTaken) ∧
    (¬ DrivesReady s z → MotionRefused s u z)
  stands : (s.zones[z]).cover.state ≠ .deploying → (s.zones[z]).cover.state ≠ .retracting →
    (((s.zones[z]).cover.state ≠ .prepClose ∧ (s.zones[z]).cover.state ≠ .prepOpen) ∨ (s.zones[z]).cover.lightingReady = false) →
    u = released

/-- A zone's hold has been cleared, at each block in turn: the dispatcher, the cover sequencer, and the scene engine, whose step timer
runs on, whose cues with no delay left start, and which judges completion if that was its last work; a zone that is not held stands
(R95, R122, R147, R186; the order is log 18's). -/
structure HoldCleared (s u : State) (z : ZoneIx) : Prop where
  notHeld : (s.zones[z]).held = false → u = s
  cleared : (s.zones[z]).held = true → ∃ queued released covers started : State,
    QueuesRejoined (s.updZone z fun r => { r with held := false }) queued z ∧
    CoversReleased queued covers z released ∧
    started = State.cuesStarted (covers.updZone z fun r =>
      { r with scene := { r.scene with stepTimer := r.scene.stepTimer.runOn } }) z ∧
    u = State.reportScene z (started.judgeIfDone z)

/-- A job has a dispatchable entry (R131, R134 step 1). -/
def Competes (s : State) (j : Job) : Prop := ∃ a ∈ s.disp.queues.get j, s.dispatchable a = true

/-- A job's effective priority (R134 step 2). -/
def priorityOf (s : State) (j : Job) : Nat :=
  if ∀ a ∈ s.disp.queues.get j, s.dispatchable a = true → (s.acts[a]).refreshOnly = true then 7 else s.cfg.part.priority.get j

/-- The place of a job in the cyclic order that starts after the last winner (R134 step 4). -/
def cyclicPlace (last j : Job) : Nat := (jobOrder.idxOf j + 3 - jobOrder.idxOf last) % 4

/-- A job wins the arbitration (R134 steps 1 to 4). -/
structure Wins (s : State) (j : Job) : Prop where
  competes : Competes s j
  waited : ∀ k, Competes s k → s.cfg.part.maxWait.get k ≤ s.disp.waitCounts.get k →
    s.cfg.part.maxWait.get j ≤ s.disp.waitCounts.get j ∧ cyclicPlace s.disp.lastWinner j ≤ cyclicPlace s.disp.lastWinner k
  lowest : (∀ k, Competes s k → s.disp.waitCounts.get k < s.cfg.part.maxWait.get k) → ∀ k, Competes s k →
    priorityOf s j ≤ priorityOf s k ∧
      (priorityOf s k = priorityOf s j → cyclicPlace s.disp.lastWinner j ≤ cyclicPlace s.disp.lastWinner k)

/-- The first free tag after the last tag issued (R135 step 1). -/
def NextFreeTag (s : State) (t : Tag) : Prop :=
  ∃ i : Tag, t = s.disp.lastTag + 1 + i ∧ (∀ o ∈ s.disp.outstanding, o.tag ≠ t) ∧
    ∀ k : Tag, k < i → ∃ o ∈ s.disp.outstanding, o.tag = s.disp.lastTag + 1 + k

/-- The part after an arbitration has given a job's candidate a tag, before the watches are offered the dispatch (R134 step 5,
R135 steps 1 to 4). -/
def State.dispatched (s : State) (j : Job) (a : ActIx) (t : Tag) (v : Int) (counts : PerJob Nat) : State :=
  let c := s.cfg.acts[a]
  let entry : Outstanding :=
    { tag := t, act := a, node := BitVec.ofNat 8 c.node, channel := BitVec.ofNat 8 c.channel, value := v, phase := .sending
      telegram := { dest := BitVec.ofNat 8 c.node, src := s.own, kind := 2, tag := BitVec.ofNat 4 t
                    payload := [BitVec.ofNat 8 c.channel, 0] ++ numField v } }
  { s with
    disp := { queues := s.disp.queues.set j ((s.disp.queues.get j).erase a), waitCounts := counts, lastWinner := j, lastTag := t
              outstanding := s.disp.outstanding ++ [entry] }
    acts := s.acts.set a { s.acts[a] with
      dispatch := .inFlight, inFlightValue := some v, inFlightTag := some t, needsSend := false } }

/-! ### The laws that every step keeps -/

/-- No queue, buffer or saturating count exceeds its size (R128, R134, R135, R151, R155, R158, R162, R163, R173, R180, R182,
R183). -/
structure WithinSizes (s : State) : Prop where
  work : WorkBounds s
  trunkRequests : s.mgmt.trunkRequests.length ≤ 4
  serviceRequests : s.mgmt.serviceRequests.length ≤ 4
  replies : s.mgmt.replies.length + (if s.mgmt.commit = none then 0 else 1) ≤ 4
  forwards : s.lines.ht.items.length ≤ 16 ∧ s.lines.th.items.length ≤ 16
  discards : s.lines.ht.discards ≤ 65535 ∧ s.lines.th.discards ≤ 65535
  errors : s.lines.hallErrors ≤ 65535 ∧ s.lines.trunkErrors ≤ 65535 ∧ s.mgmt.serviceErrors ≤ 65535
  forwardWait : s.lines.forwardWait ≤ 4
  waitCounts : ∀ j : Job, s.disp.waitCounts.get j ≤ 15
  timeouts : ∀ a : ActIx, (s.acts[a]).timeouts ≤ 3
  readOuts : s.acct.trunkReadOut.length ≤ 2 ∧ s.acct.serviceReadOut.length ≤ 2
  tags : (s.disp.outstanding.map Outstanding.tag).Nodup
  outstanding : s.disp.outstanding.length ≤ 16
  millis : s.millis < 1000

/-- A zone's demands, integrator and temperatures lie in their ranges (R35, R37, R38, R40, R53, R56). -/
structure DemandsInRange (r : ZoneRt) : Prop where
  heating : 0 ≤ r.heat.h ∧ r.heat.h ≤ 1000
  integrator : 0 ≤ r.heat.i ∧ r.heat.i ≤ 64000
  error : ∀ e, r.heat.e = some e → -1000 ≤ e ∧ e ≤ 1000
  humidity : 0 ≤ r.eval.dRh ∧ r.eval.dRh ≤ 1000
  condensation : 0 ≤ r.eval.dCond ∧ r.eval.dCond ≤ 1000
  drying : r.eval.d = max r.eval.dRh r.eval.dCond
  clamped : ∀ tc, r.eval.tc = some tc → -200 ≤ tc ∧ tc ≤ 600
  dewPoint : ∀ td, r.eval.td = some td → -200 ≤ td ∧ td ≤ 600

/-- Tags, outstanding entries and actuators in flight belong together, and a queue holds every actuator at most once, of its
own job, enabled and in use (R130, R131, R135). -/
structure TagLaw (s : State) : Prop where
  tags : (s.disp.outstanding.map Outstanding.tag).Nodup
  actuators : (s.disp.outstanding.map Outstanding.act).Nodup
  entry : ∀ o ∈ s.disp.outstanding, (s.acts[o.act]).dispatch = .inFlight ∧ (s.acts[o.act]).inFlightTag = some o.tag ∧
    (s.acts[o.act]).inFlightValue = some o.value
  flight : ∀ a : ActIx, (s.acts[a]).dispatch = .inFlight → ∃ o ∈ s.disp.outstanding, o.act = a
  live : ∀ a : ActIx, (s.acts[a]).dispatch = .inFlight → (s.cfg.acts[a]).inUse = true ∧ (s.acts[a]).control ≠ .disabled
  queued : ∀ (j : Job) (a : ActIx), a ∈ s.disp.queues.get j → (s.acts[a]).dispatch = .queued ∧
    (s.acts[a]).control = .enabled ∧ (s.cfg.acts[a]).inUse = true ∧ (s.cfg.acts[a]).kind.job = some j
  queues : ∀ j : Job, (s.disp.queues.get j).Nodup

/-- The laws of one zone's covers and purge (R63, R85, R98 to R102): a timer of the cover sequencer belongs to its state, a disabled
zone's sequencer is DISABLED, the purge timer is INACTIVE unless the covers are COVERED, PURGE_RUN stands only under a PURGE
grant, and PURGE is granted only while a purge is requested, running or suspended under closed covers. -/
structure CoverLaw (enabled : Bool) (r : ZoneRt) : Prop where
  detect : r.cover.detectTimer ≠ .stopped → r.cover.state = .detect
  prep : r.cover.prepTimer ≠ .stopped → r.cover.state = .prepClose ∨ r.cover.state = .prepOpen
  motion : r.cover.motionTimer ≠ .stopped → r.cover.state = .deploying ∨ r.cover.state = .retracting
  settle : r.cover.settleTimer ≠ .stopped → r.cover.state = .settle
  disabled : enabled = false ↔ r.cover.state = .disabled
  purge : r.purge.state ≠ .inactive → r.cover.state = .covered
  grant : r.purge.state = .run → r.arb.granted = .purge
  purging : r.arb.granted = .purge →
    (r.purge.state = .request ∨ r.purge.state = .run ∨ r.purge.state = .suspended) ∧ r.cover.state = .covered
  reason : r.cover.reason ≠ none ↔ r.cover.state = .fault

end Sys2Proof.Machine
end

