-- ==== Sys2Proof/Certificates/Slice0/Obligations.lean ====
section
/-! DEFINITION. The statements about the part that are to be proved. -/

open Sys2Proof Sys2Proof.Machine

/-! ### The step and the clock -/

/-- A step takes the command at the front of the queue and runs it with the queue's rest. The model's own choices in it: log
1. -/
def Obligations.StepRunsFrontCommand : Prop :=
  ∀ (c : Instr) (rest : List Instr) (s : State),
    step { s with pending := c :: rest } = exec c { s with pending := rest }

/-- With no command waiting, a step is one millisecond of time (the model's choice, log 2): the time stamp advances with the
thousandth millisecond, modulo 2^32 (log 24), and every running timer counts down to 0 and no further: of points, actuators,
acknowledgements, local mode and, in each zone, of evaluation, dwell and covers, and in a zone that is not held of the purge,
the cue delays and the fade steps, a purge run counting the time it runs; everything else stands. A running stale timer of n
milliseconds is thus due after n idle steps and not before (R17, R30, R70, R85, R98, R103, R110, R122, R132, R136, R141, R145). -/
def Obligations.IdleStepIsOneMillisecond : Prop :=
  (∀ (s : State) (p : PointIx) (n k : Nat), s.pending = [] → (s.points[p]).staleTimer = .running n → k ≤ n →
    ∃ t, Sys2Proof.core.run k s = .next t ∧ (t.points[p]).staleTimer = .running (n - k)) ∧
  ∀ s : State, s.pending = [] →
    let tick := fun (x : Timer) => match x with
      | .running n => Timer.running (n - 1)
      | .stopped => .stopped
      | .paused n => .paused n
    ∃ t, step s = .next t ∧
    (if s.millis = 999 then t.now = s.now + 1 ∧ t.millis = 0 else t.now = s.now ∧ t.millis = s.millis + 1) ∧
    (∀ p : PointIx, t.points[p] = { s.points[p] with staleTimer := tick (s.points[p]).staleTimer }) ∧
    (∀ a : ActIx, t.acts[a] = { s.acts[a] with
      refreshTimer := tick (s.acts[a]).refreshTimer, retryTimer := tick (s.acts[a]).retryTimer
      overrideTimer := tick (s.acts[a]).overrideTimer }) ∧
    (∀ z : ZoneIx,
      let r := s.zones[z]
      t.zones[z] = { r with
        eval := { r.eval with timer := tick r.eval.timer }
        arb := { r.arb with dwell := tick r.arb.dwell }
        cover := { r.cover with
          detectTimer := tick r.cover.detectTimer, prepTimer := tick r.cover.prepTimer
          motionTimer := tick r.cover.motionTimer, settleTimer := tick r.cover.settleTimer }
        purge :=
          if r.held = false ∧ r.purge.state = .wait then { r.purge with remainingWait := r.purge.remainingWait - 1 }
          else if r.held = false ∧ r.purge.state = .run ∧ r.purge.remainingRun ≠ 0 then
            { r.purge with remainingRun := r.purge.remainingRun - 1, runCounted := r.purge.runCounted + 1 }
          else r.purge
        scene :=
          if r.held then r.scene
          else { r.scene with
            cues := r.scene.cues.map fun c => match c.status with
              | .pending n => { c with status := .pending (n - 1) }
              | .withheld | .started => c
            stepTimer := tick r.scene.stepTimer } }) ∧
    t.disp = { s.disp with outstanding := s.disp.outstanding.map fun o => match o.phase with
      | .awaitingAck x => { o with phase := .awaitingAck (tick x) }
      | .sending => o } ∧
    t.mgmt = { s.mgmt with idleTimer := tick s.mgmt.idleTimer } ∧
    t.cfg = s.cfg ∧ t.lines = s.lines ∧ t.acct = s.acct ∧ t.image = s.image ∧ t.imageState = s.imageState ∧
    t.configured = s.configured ∧ t.pending = []

/-- Every command answers a next state in every state. The model's own choices in it: log 1. -/
def Obligations.EveryCommandAnswersANextState : Prop :=
  ∀ (c : Instr) (s : State), ∃ t, exec c s = .next t

/-- An event that the state rules out changes nothing (the model's choice, log 1): an expiry whose timer is not due, or whose
timer a hold pauses, or of a cue that is not the lowest due (log 30); the end of a commit or of a restart that is not waiting;
an acknowledgement timeout of a tag that is free or whose command is not due; a choice of a transmitter that is not free or, on
the hall line, has nothing to send; the end of an attempt of a transmitter that is not sending, and bytes read back as sent so
far; a further attempt of one that does not wait; a service-port reply sent where none is queued; a request row of which the
request taken next is not. -/
def Obligations.EventsThatAreNotDueChangeNothing : Prop :=
  ∀ s : State,
    (∀ p : PointIx, (s.points[p]).staleTimer ≠ .running 0 → exec (.staleExpiry p) s = .next s) ∧
    (∀ z : ZoneIx, (s.zones[z]).eval.timer ≠ .running 0 → exec (.evaluation z) s = .next s) ∧
    (∀ z : ZoneIx, (s.zones[z]).arb.dwell ≠ .running 0 → exec (.dwellExpiry z) s = .next s) ∧
    (∀ z : ZoneIx, (s.zones[z]).cover.detectTimer ≠ .running 0 → exec (.detectTimeout z) s = .next s) ∧
    (∀ z : ZoneIx, (s.zones[z]).cover.prepTimer ≠ .running 0 → exec (.prepTimeout z) s = .next s) ∧
    (∀ z : ZoneIx, (s.zones[z]).cover.motionTimer ≠ .running 0 → exec (.motionTimeout z) s = .next s) ∧
    (∀ z : ZoneIx, (s.zones[z]).cover.settleTimer ≠ .running 0 → exec (.settleExpiry z) s = .next s) ∧
    (∀ z : ZoneIx, (s.zones[z]).scene.stepTimer ≠ .running 0 → exec (.fadeStep z) s = .next s) ∧
    (∀ z : ZoneIx, ((s.zones[z]).held = true ∨ (s.zones[z]).purge.state ≠ .wait ∨ (s.zones[z]).purge.remainingWait ≠ 0) →
      exec (.purgeWaitExpiry z) s = .next s) ∧
    (∀ z : ZoneIx, ((s.zones[z]).held = true ∨ (s.zones[z]).purge.state ≠ .run ∨ (s.zones[z]).purge.remainingRun ≠ 0) →
      exec (.purgeRunExpiry z) s = .next s) ∧
    (∀ (z : ZoneIx) (i : CueIx),
      ((s.zones[z]).held = true ∨ (∀ run, (s.zones[z]).scene.cues[i.val]? = some run → run.status ≠ .pending 0) ∨
        ∃ (j : Nat) (run : CueRun), j < i.val ∧ (s.zones[z]).scene.cues[j]? = some run ∧ run.status = .pending 0) →
      exec (.cueDelayExpiry z i) s = .next s) ∧
    (∀ a : ActIx, (s.acts[a]).refreshTimer ≠ .running 0 → exec (.refreshExpiry a) s = .next s) ∧
    (∀ a : ActIx, (s.acts[a]).retryTimer ≠ .running 0 → exec (.retryExpiry a) s = .next s) ∧
    (∀ a : ActIx, (s.acts[a]).overrideTimer ≠ .running 0 → exec (.overrideHoldExpiry a) s = .next s) ∧
    (∀ t : Tag, (∀ o ∈ s.disp.outstanding, o.tag ≠ t) → exec (.ackTimeout t) s = .next s) ∧
    (∀ (older younger : List Outstanding) (o : Outstanding), s.disp.outstanding = older ++ o :: younger →
      (∀ x ∈ older, x.tag ≠ o.tag) → o.phase ≠ .awaitingAck (.running 0) → exec (.ackTimeout o.tag) s = .next s) ∧
    (s.mgmt.idleTimer ≠ .running 0 → exec .localIdleExpiry s = .next s) ∧
    (s.lines.hallTx ≠ .free → exec .hallTxChoose s = .next s) ∧
    (s.lines.hallTx = .free → (∀ o ∈ s.disp.outstanding, o.phase ≠ .sending) → s.lines.th.items = [] →
      exec .hallTxChoose s = .next s) ∧
    (s.lines.trunkTx ≠ .free → exec .trunkTxChoose s = .next s) ∧
    (∀ (line : Line) (heard : List RxByte) (quiet : Nat),
      let tx := match line with | .hall => s.lines.hallTx | .trunk => s.lines.trunkTx
      ((∀ source t n, tx ≠ .sending source t n) → exec (.txAttemptEnd line heard) s = .next s) ∧
      (∀ source t n k, tx = .sending source t n → k < t.bytes.length →
        heard = (t.bytes.map fun b => ({ value := b, stop := true } : RxByte)).take k →
        exec (.txAttemptEnd line heard) s = .next s) ∧
      ((∀ source t n, tx ≠ .waiting source t n) → exec (.txRetryAttempt line quiet) s = .next s)) ∧
    ((∀ r ∈ s.mgmt.replies, r.channel ≠ .service) → exec .serviceReplySent s = .next s) ∧
    (s.mgmt.commit = none → exec .commitComplete s = .next s) ∧
    (s.mgmt.restartPending = false → exec .restartBegin s = .next s) ∧
    (∀ cmd ∈ requestRows, (∀ c t, s.mgmt.next = some (c, t) → (Request.of c t).row ≠ cmd) → exec cmd s = .next s) ∧
    (∀ hallBusy trunkBusy : Bool,
      (∀ c t, s.mgmt.next = some (c, t) → (Request.of c t).row ≠ .lineStatus false false) →
      exec (.lineStatus hallBusy trunkBusy) s = .next s)

/-! ### Requests that read or set one record -/

/-- IDENTIFY returns the payload of ANNOUNCE as it would be formed now, and a request kind code that R150 does not name is
answered UNKNOWN_REQUEST; neither changes anything else (R150, R165 row 1, R169). The model's own choices in it: log 15. -/
def Obligations.IdentifyAndUnknownKindsAreAnswered : Prop :=
  ∀ (s : State) (c : Channel) (t : Telegram),
    (NextIs s c t 1 [] → exec .identify s = .next ((s.taken c).replied c t 1 .done
      [0x31, 0xC6, 0x4C, 0x04, 1, BitVec.ofNat 8 s.cfg.part.own, if s.configured then 1 else 0,
        match s.imageState with | .passed => 0 | .blank => 1 | .failed => 2])) ∧
    (∀ (kind : Byte) (params : List Byte), s.mgmt.next = some (c, t) → t.payload = kind :: params →
      (kind = 0 ∨ 16 < kind.toNat) →
      exec .unknownRequest s = .next ((s.taken c).replied c t kind .unknownRequest []))

/-- READ_FLAGS with selector 255 returns the six part flags as they stand and then clears those its mask names; with a zone's
selector it returns that zone's sticky flags with its indicators and clears the flags its mask names (R43, R174).
LINE_STATUS answers with a segment of its list, spelled here byte by byte, the request itself having left its queue, and
changes nothing else (R156, R169). The model's own choices in it: logs 9, 10, 19 and 35. -/
def Obligations.FlagsAndLineStatusAreRead : Prop :=
  (∀ (s : State) (c : Channel) (t : Telegram) (seg : Byte) (hallBusy trunkBusy : Bool), NextIs s c t 8 [seg] →
      let bytes := (s.taken c).lineStatusBytes hallBusy trunkBusy
      exec (.lineStatus hallBusy trunkBusy) s = .next (
        if 25 * seg.toNat < bytes.length then
          (s.taken c).replied c t 8 .done
            ([seg, BitVec.ofNat 8 ((bytes.length + 24) / 25)] ++ (bytes.drop (25 * seg.toNat)).take 25)
        else (s.taken c).replied c t 8 .badValue [])) ∧
  ∀ (s : State) (c : Channel) (t : Telegram) (mask : Byte),
    (NextIs s c t 7 [255, mask] →
      exec .readFlags s = .next ({ s.taken c with mgmt := { (s.taken c).mgmt with flags :=
        { protectFault := s.mgmt.flags.protectFault && !mask.getLsbD 0
          foreignBlocked := s.mgmt.flags.foreignBlocked && !mask.getLsbD 1
          noticeLost := s.mgmt.flags.noticeLost && !mask.getLsbD 2
          requestOverrun := s.mgmt.flags.requestOverrun && !mask.getLsbD 3
          txLost := s.mgmt.flags.txLost && !mask.getLsbD 4
          captureFull := s.mgmt.flags.captureFull && !mask.getLsbD 5 } } }.replied c t 7 .done [s.mgmt.flags.byte])) ∧
    (∀ z : ZoneIx, NextIs s c t 7 [BitVec.ofNat 8 z, mask] →
      exec .readFlags s = .next (((s.taken c).updZone z fun r =>
        { r with
          eval := { r.eval with tClamp := r.eval.tClamp && !mask.getLsbD 0, dewLow := r.eval.dewLow && !mask.getLsbD 1 }
          heat := { r.heat with integLimit := r.heat.integLimit && !mask.getLsbD 2 } }).replied c t 7 .done
        [(s.zones[z]).stickyByte, (s.zones[z]).indicatorByte, (s.zones[z]).heldByte])) ∧
    (∀ i : Nat, i < 6 → s.mgmt.flags.byte.getLsbD i =
      [s.mgmt.flags.protectFault, s.mgmt.flags.foreignBlocked, s.mgmt.flags.noticeLost, s.mgmt.flags.requestOverrun,
        s.mgmt.flags.txLost, s.mgmt.flags.captureFull].getD i false) ∧
    (∀ (z : ZoneIx) (i : Nat),
      let r := s.zones[z]
      r.stickyByte.getLsbD i = [r.eval.tClamp, r.eval.dewLow, r.heat.integLimit].getD i false ∧
      r.indicatorByte.getLsbD i = [r.eval.noAirData, r.eval.heldMargin, r.heat.heldSetpoint, r.eval.crit].getD i false ∧
      r.heldByte.getLsbD i =
        [r.eval.ta.held, r.eval.rh.held, r.eval.tw.held, r.eval.tg.held, r.eval.tout.held].getD i false) ∧
    (∀ hallBusy trunkBusy : Bool,
      let state := fun (tx : Transmitter) (busy waits : Bool) => match tx with
        | .free => if busy && waits then (1 : Byte) else 0
        | .waiting _ _ _ => 1
        | .sending _ _ _ => 2
      let attempt := fun (tx : Transmitter) => match tx with
        | .free => 0
        | .waiting _ _ n | .sending _ _ n => n
      s.lineStatusBytes hallBusy trunkBusy =
        numField s.lines.hallErrors ++ numField s.lines.trunkErrors ++ numField s.mgmt.serviceErrors ++
        [if s.lines.hallActive then (1 : Byte) else 0, if s.lines.trunkActive then 1 else 0] ++
        numField s.lines.ht.items.length ++ numField s.lines.th.items.length ++
        numField s.lines.ht.discards ++ numField s.lines.th.discards ++
        [state s.lines.hallTx hallBusy s.hallChoice.isSome] ++ numField (attempt s.lines.hallTx) ++
        [state s.lines.trunkTx trunkBusy s.trunkChoice.isSome] ++ numField (attempt s.lines.trunkTx) ++
        numField s.disp.queues.heat.length ++ numField s.disp.queues.air.length ++ numField s.disp.queues.cover.length ++
        numField s.disp.queues.light.length ++ numField s.disp.waitCounts.heat ++ numField s.disp.waitCounts.air ++
        numField s.disp.waitCounts.cover ++ numField s.disp.waitCounts.light ++
        [match s.disp.lastWinner with | .heat => (0 : Byte) | .air => 1 | .cover => 2 | .light => 3] ++ numField s.heldTags ++
        numField s.mgmt.trunkRequests.length ++ numField s.mgmt.serviceRequests.length ++
        numField s.mgmt.replies.length ++ numField s.mgmt.notices.length ++ [if s.mgmt.localMode then 0 else 1] ++
        (match s.mgmt.commit with
          | none => [(0 : Byte)]
          | some k => [1, match k.channel with | .trunk => 0 | .service => 1])) ∧
    (∀ t : Tag, (BitVec.ofNat 16 s.heldTags).getLsbD t = true ↔ ∃ o ∈ s.disp.outstanding, o.tag = t)

/-- PRELOAD stores the value and clears the overflowed mark; SET_RUN sets RUN as given; nothing else changes (R179). An amount
offered to an accumulator is lost unless it is enabled and RUN is on; it is added otherwise, and a sum of 2^32 or more wraps:
the mark is set, ACC_OVERFLOW is raised, RUN goes off where the accumulator freezes it, and the zone's capture is armed where it
captures, a capture already armed keeping its first reason; nothing else changes (R177, R178). The model's own choices in it:
logs 8, 9 and 35. -/
def Obligations.AccumulatorRequestsAct : Prop :=
  ∀ (s : State) (c : Channel) (t : Telegram),
    (∀ (z : ZoneIx) (a : AccIx) (v : BitVec 32),
      NextIs s c t 9 [1, BitVec.ofNat 8 z, BitVec.ofNat 8 a, v.extractLsb' 24 8, v.extractLsb' 16 8, v.extractLsb' 8 8,
        v.extractLsb' 0 8] →
      exec .accumulatorPreload s = .next (((s.taken c).updAcct fun k =>
        { k with accs := k.accs.set z ((k.accs[z]).set a { value := v, overflowed := false }) }).replied c t 9 .done [])) ∧
    (∀ run : Bool, NextIs s c t 9 [2, if run then 0 else 1] →
      exec .accumulatorSetRun s = .next (((s.taken c).updPart fun p => { p with run := run }).replied c t 9 .done [])) ∧
    (∀ (z : ZoneIx) (seg : Byte), NextIs s c t 9 [0, BitVec.ofNat 8 z, seg] → seg.toNat < segmentCount (s.accumulatorBytes z) →
      exec .accumulatorRead s = .next ((s.taken c).replied c t 9 .done
        ([seg, BitVec.ofNat 8 (segmentCount (s.accumulatorBytes z))] ++ segmentOf (s.accumulatorBytes z) seg.toNat))) ∧
    (∀ z : ZoneIx, s.accumulatorBytes z =
      ((s.acct.accs[z]).toList.flatMap fun a => [a.value.extractLsb' 24 8, a.value.extractLsb' 16 8, a.value.extractLsb' 8 8,
        a.value.extractLsb' 0 8]) ++
      ((s.acct.accs[z]).toList.map fun a => if a.overflowed then 1 else 0) ++
      ((s.cfg.part.accOptions[z]).toList.flatMap fun o =>
        [if o.enabled then 1 else 0, if o.captureOnOverflow then 1 else 0, if o.freezeOnOverflow then 1 else 0]) ++
      [if s.cfg.part.run then 0 else 1] ++
      (match (s.zones[z]).arming with | none => [0] | some a => [1, 0, BitVec.ofNat 8 a])) ∧
    (∀ (z : ZoneIx) (a : AccIx) (amount : Nat),
      let acc := (s.acct.accs[z])[a]
      let option := (s.cfg.part.accOptions[z])[a]
      let sum := acc.value.toNat + amount
      let wrapped : BitVec 32 := BitVec.ofNat 32 sum
      let put := fun (x : Accumulator) =>
        ({ s with acct := { s.acct with accs := s.acct.accs.set z ((s.acct.accs[z]).set a x) } } : State)
      let noted := (put { value := wrapped, overflowed := true }).raise .accOverflow (BitVec.ofNat 8 z)
        [BitVec.ofNat 8 a, wrapped.extractLsb' 24 8, wrapped.extractLsb' 16 8, wrapped.extractLsb' 8 8, wrapped.extractLsb' 0 8]
      (option.enabled = false ∨ s.cfg.part.run = false → s.offer z a amount = s) ∧
      (option.enabled = true → s.cfg.part.run = true → sum < 2 ^ 32 →
        s.offer z a amount = put { acc with value := BitVec.ofNat 32 sum }) ∧
      (option.enabled = true → s.cfg.part.run = true → 2 ^ 32 ≤ sum → s.offer z a amount = { noted with
        cfg := { s.cfg with part := { s.cfg.part with run := !option.freezeOnOverflow } }
        zones := if option.captureOnOverflow = true ∧ (s.zones[z]).arming = none then
          s.zones.set z { s.zones[z] with arming := some a } else s.zones }))

/-- CAPTURE COUNT returns count, mode, threshold and threshold-armed and changes nothing else; READ with segment 0 moves up to
the 2 oldest records to the channel's read-out record; a later segment is read from that record. The bytes of the records are
their count and then each record, spelled here byte by byte (R180 to R182). The model's own choices in it: logs 7 and 9. -/
def Obligations.CaptureCountAndRead : Prop :=
  ∀ (s : State) (c : Channel) (t : Telegram),
    (NextIs s c t 10 [1] →
      exec .captureCount s = .next ((s.taken c).replied c t 10 .done
        ([BitVec.ofNat 8 s.acct.captures.length, match s.cfg.part.captureMode with | .wrap => 0 | .stop => 1] ++
          numField s.cfg.part.captureThreshold ++ [if s.acct.thresholdArmed then 1 else 0]))) ∧
    (NextIs s c t 10 [2, 0] → ∃ (u : State) (results : List Byte), exec .captureRead s = .next (u.replied c t 10 .done results) ∧
      u = { s.taken c with acct := { s.acct with
        captures := s.acct.captures.drop 2
        thresholdArmed := s.acct.thresholdArmed ||
          (!s.acct.captures.isEmpty && decide ((s.acct.captures.drop 2).length < s.cfg.part.captureThreshold))
        trunkReadOut := if c = .trunk then s.acct.captures.take 2 else s.acct.trunkReadOut
        serviceReadOut := if c = .service then s.acct.captures.take 2 else s.acct.serviceReadOut } } ∧
      results = [0, BitVec.ofNat 8 (segmentCount (captureListBytes (s.acct.captures.take 2)))] ++
        (captureListBytes (s.acct.captures.take 2)).take 25) ∧
    (∀ l : List CaptureRecord, captureListBytes l = BitVec.ofNat 8 l.length :: l.flatMap fun r =>
      wordField r.time ++ [BitVec.ofNat 8 r.zone] ++ r.reason.wire ++ presence numField r.ta ++ presence numField r.rh ++
        presence numField r.tw ++ presence numField r.tg ++ presence numField r.td ++ presence numField r.margin ++
        numField r.h ++ numField r.d ++ numField r.i ++ [r.mode.wire, r.cover.wire, r.purge.wire] ++
        presence indexByte r.scene) ∧
    (∀ bytes : List Byte, segmentCount bytes = if bytes = [] then 1 else (bytes.length + 24) / 25) ∧
    (∀ seg : Byte, seg ≠ 0 → NextIs s c t 10 [2, seg] →
      let bytes := captureListBytes (s.acct.readOut c)
      exec .captureRead s = .next (
        if seg.toNat < segmentCount bytes then
          (s.taken c).replied c t 10 .done ([seg, BitVec.ofNat 8 (segmentCount bytes)] ++ segmentOf bytes seg.toNat)
        else (s.taken c).replied c t 10 .badValue []))

/-- RING UNFREEZE clears the frozen field; RING READ returns up to 4 records from the start index, 0 the newest, toward older
ones, and changes nothing else. A record's bytes are its time, its zone, its kind, its from and to values and its cause, spelled
here (R183). The model's own choices in it: logs 7, 9 and 11. -/
def Obligations.RingRequestsAct : Prop :=
  ∀ (s : State) (c : Channel) (t : Telegram),
    (NextIs s c t 11 [1] →
      exec .ringUnfreeze s = .next (((s.taken c).updAcct fun a => { a with frozen := false }).replied c t 11 .done [])) ∧
    (∀ start seg : Byte, NextIs s c t 11 [0, start, seg] →
      let records := (s.acct.ring.reverse.drop start.toNat).take 4
      let bytes := BitVec.ofNat 8 records.length :: records.flatMap RingRecord.bytes
      exec .ringRead s = .next (
        if 16 ≤ start.toNat then (s.taken c).replied c t 11 .badIndex []
        else if seg.toNat < segmentCount bytes then
          (s.taken c).replied c t 11 .done ([seg, BitVec.ofNat 8 (segmentCount bytes)] ++ segmentOf bytes seg.toNat)
        else (s.taken c).replied c t 11 .badValue [])) ∧
    (∀ r : RingRecord, r.bytes = wordField r.time ++ [BitVec.ofNat 8 r.zone] ++ match r.entry with
      | .ahu left granted cause => [0, left.wire, granted.wire, cause.wire]
      | .cover left entered cause => [1, left.wire, entered.wire, cause.wire]
      | .scene none entered cause => [2, 255, BitVec.ofNat 8 entered, cause.wire]
      | .scene (some left) entered cause => [2, BitVec.ofNat 8 left, BitVec.ofNat 8 entered, cause.wire])

/-- ARM and DISARM set armed of the watch named, WRITE stores a whole watch, READ returns its bytes, spelled here, and changes
nothing; an index outside 0..3 is refused (R184). An event is compared with the watches in ascending index; one that is armed for it
and whose condition admits the value is disarmed, acts on its target's zone, or for ALL on every enabled zone in ascending order, and raises WATCH_MATCH;
any other stands (R185). A zone that becomes held keeps its cause, pauses its cover and scene timers and stops drives in
motion, and a zone already held takes the new cause (R95, R122, R186). The model's own choices in it: logs 9 and 18. -/
def Obligations.WatchRequestsAct : Prop :=
  ∀ (s : State) (c : Channel) (t : Telegram),
    (∀ w : WatchIx, NextIs s c t 12 [2, BitVec.ofNat 8 w] →
      exec .watchArm s = .next (((s.taken c).setWatch w { s.cfg.watches[w] with armed := true }).replied c t 12 .done [])) ∧
    (∀ w : WatchIx, NextIs s c t 12 [3, BitVec.ofNat 8 w] →
      exec .watchDisarm s = .next (((s.taken c).setWatch w { s.cfg.watches[w] with armed := false }).replied c t 12 .done [])) ∧
    (∀ (w : WatchIx) (x : Watch), NextIs s c t 12 (1 :: BitVec.ofNat 8 w :: x.bytes) →
      (∀ v, x.condition = some (.above v) ∨ x.condition = some (.below v) → -32768 ≤ v ∧ v ≤ 32767) →
      exec .watchWrite s = .next (
        if (∃ a, x.target = .actuator a) ∧ x.on = .arrival ∨ (∃ p, x.target = .point p) ∧ x.on = .dispatch then
          (s.taken c).replied c t 12 .badValue []
        else ((s.taken c).setWatch w x).replied c t 12 .done [])) ∧
    (∀ (w : WatchIx) (seg : Byte), NextIs s c t 12 [0, BitVec.ofNat 8 w, seg] →
      exec .watchRead s = .next (
        if seg = 0 then (s.taken c).replied c t 12 .done ([0, 1] ++ (s.cfg.watches[w]).bytes)
        else (s.taken c).replied c t 12 .badValue [])) ∧
    (∀ x : Watch, x.bytes = [flagByte x.armed] ++ x.target.wire ++ [x.on.wire] ++
      (match x.condition with
        | none => [0]
        | some (.above v) => [1, 0] ++ numField v
        | some (.below v) => [1, 1] ++ numField v) ++ [x.action.wire]) ∧
    (∀ w : Byte, 4 ≤ w.toNat → NextIs s c t 12 [2, w] →
      exec .watchArm s = .next ((s.taken c).replied c t 12 .badIndex [])) ∧
    (∀ e : WatchEvent, s.offerWatches e = [0, 1, 2, 3].foldl (State.offerWatch e) s) ∧
    (∀ (e : WatchEvent) (w : WatchIx),
      let watch := s.cfg.watches[w]
      let matched := watch.armed = true ∧ watch.target = e.target ∧ (watch.on = e.on ∨ watch.on = .either) ∧
        (∀ x, watch.condition = some (.above x) → x < e.value) ∧ (∀ x, watch.condition = some (.below x) → e.value < x)
      let zone : PointZone := match watch.target with
        | .point p => (s.cfg.points[p]).zone
        | .actuator a => .zone (s.cfg.acts[a]).zone
      let reached : List ZoneIx := match zone with
        | .zone z => [z]
        | .all => [0, 1, 2, 3].filter s.enabled
        | .unlisted _ => []
      let disarmed := s.setWatch w { watch with armed := false }
      let acted := match watch.action with
        | .notice => disarmed
        | .capture => reached.foldl (fun u z => u.capture z (.watch w)) disarmed
        | .holdZone => reached.foldl (fun u z => u.holdZone z w) disarmed
      (¬ matched → s.offerWatch e w = s) ∧
      (matched → s.offerWatch e w = acted.raise .watchMatch
        (match zone with | .zone z => BitVec.ofNat 8 z | .all => 255 | .unlisted n => BitVec.ofNat 8 (4 + n.val))
        ([BitVec.ofNat 8 w, match e.on with | .arrival => 0 | .dispatch => 1 | .either => 2,
          match e.target with | .point _ => 0 | .actuator _ => 1,
          match e.target with | .point p => BitVec.ofNat 8 p | .actuator a => BitVec.ofNat 8 a] ++ numField e.value ++
          [match watch.action with | .notice => (0 : Byte) | .capture => 1 | .holdZone => 2]))) ∧
    (∀ (z : ZoneIx) (w : WatchIx),
      let r := s.zones[z]
      let u := s.holdZone z w
      let pause := fun (x : Timer) => match x with
        | .running n => Timer.paused n
        | .stopped => .stopped
        | .paused n => .paused n
      let entered := { r with
        held := true, holdCause := some w
        cover := { r.cover with
          prepTimer := pause r.cover.prepTimer, motionTimer := pause r.cover.motionTimer
          settleTimer := pause r.cover.settleTimer }
        scene := { r.scene with stepTimer := pause r.scene.stepTimer } }
      let moving := r.cover.state = .deploying ∨ r.cover.state = .retracting
      (r.held = true → u = { s with zones := s.zones.set z { r with holdCause := some w } }) ∧
      (r.held = false → u.zones = s.zones.set z entered ∧ u.mgmt = s.mgmt ∧ u.acct = s.acct ∧ OneZoneWork z s u ∧
        (moving → DrivesRequested s u z 0) ∧ (¬ moving → u = { s with zones := s.zones.set z entered })))

/-- An accepted COMMIT_IMAGE copies the configuration as it stands, occupies its channel and leaves its reply for later; an
accepted RESTART queues DONE and waits; TAKE_LOCAL holds local mode from the service port alone, with 15 min;
RELEASE_LOCAL releases it with a LOCAL_RELEASED notice (R171, R172, R188, R190). The model's own choices in it: log 23. -/
def Obligations.CommitRestartAndLocalMode : Prop :=
  ∀ (s : State) (c : Channel) (t : Telegram),
    (NextIs s c t 13 [] →
      exec .commitImage s = .next ((s.taken c).updMgmt fun m =>
        { m with commit := some { channel := c, requester := t.src, tag := t.tag, copy := s.cfg } })) ∧
    (NextIs s c t 14 [] →
      exec .restart s = .next ((s.taken c).updMgmt fun m =>
        { m with restartPending := true, replies := m.replies ++ [{ s.replyTo c t 14 .done [] with restart := true }] })) ∧
    (NextIs s .service t 15 [] →
      exec .takeLocal s = .next (((s.taken .service).updMgmt fun m =>
        { m with localMode := true, idleTimer := .running 900000 }).replied .service t 15 .done [])) ∧
    (NextIs s .trunk t 15 [] → exec .takeLocal s = .next ((s.taken .trunk).replied .trunk t 15 .reserved [])) ∧
    (NextIs s c t 16 [] → s.mgmt.localMode = false →
      exec .releaseLocal s = .next ((s.taken c).replied c t 16 .done [])) ∧
    (NextIs s c t 16 [] → s.mgmt.localMode = true → s.mgmt.notices.length < 8 →
      exec .releaseLocal s = .next (((s.taken c).updMgmt fun m =>
        { m with
          localMode := false, idleTimer := .stopped
          notices := m.notices ++ [{ kind := .localReleased, zone := 255, time := s.now, detail := [0] }] }).replied
        c t 16 .done []))

/-! ### Writes of table entries -/

/-- A segment of a WRITE_ENTRY that is not the last is gathered: number 0 restarts the channel's staging record, the number
expected is appended, any other empties it with BAD_VALUE (R167). The model's own choices in it: log 15. -/
def Obligations.WriteSegmentsAreGathered : Prop :=
  ∀ (s : State) (c : Channel) (t : Telegram) (table hi lo seg : Byte) (data : List Byte),
    NextIs s c t 3 ([table, hi, lo, seg, 0] ++ data) → table.toNat ≤ 8 →
    (seg = 0 → exec .writeEntrySegment s = .next (((s.taken c).setStaging c (some
      { table := table.toNat, index := hi.toNat * 256 + lo.toNat, next := 1, bytes := data })).replied c t 3 .done [])) ∧
    (∀ held, seg ≠ 0 →
      s.mgmt.staging c =
        some { table := table.toNat, index := hi.toNat * 256 + lo.toNat, next := seg.toNat, bytes := held } →
      exec .writeEntrySegment s = .next (((s.taken c).setStaging c (some
        { table := table.toNat, index := hi.toNat * 256 + lo.toNat, next := seg.toNat + 1, bytes := held ++ data })).replied
        c t 3 .done [])) ∧
    (seg ≠ 0 →
      (∀ held, s.mgmt.staging c ≠
        some { table := table.toNat, index := hi.toNat * 256 + lo.toNat, next := seg.toNat, bytes := held }) →
      exec .writeEntrySegment s = .next ((s.written c).replied c t 3 .badValue []))

/-- A write of a point entry that passes its checks replaces the entry and sets its runtime to the reset values; only where
the old entry was a known contact does anything follow, in its zone: the cover sequencer is told that it is unknown. An entry with
in use = no is checked for nothing but protection and is stored as written (R3 to R6, R15). The model's own choices in it:
log 13. -/
def Obligations.WritePointReplacesTheEntry : Prop :=
  ∀ (s : State) (c : Channel) (t : Telegram) (p : PointIx) (e : PointCfg), EndsWrite s c t 0 p.val e.bytes → e.Fits →
    Unprotected c (s.cfg.points[p]).protectField e.protectField → (e.inUse = true → PointEntryOk s p e) →
    let stored := ((s.written c).updCfg fun k => { k with points := k.points.set p e }).updPoint p fun _ =>
      { state := .never, value := none, contact := none, candidate := none, run := 0, lastArrival := none
        staleTimer := .stopped }
    ∃ u : State, exec .writeEntryPoint s = .next (u.replied c t 3 .done []) ∧
      ZoneWork (fun z => (s.cfg.points[p]).zone = .zone z) stored u ∧
      u = State.told stored p (s.cfg.points[p]) (toldOf (s.points[p]).contactKnown none) ∧
      (((s.cfg.points[p]).kind ≠ .coverClosed ∧ (s.cfg.points[p]).kind ≠ .coverOpen ∨ (s.points[p]).state ≠ .fresh ∨
        (s.points[p]).contact = none) → u = stored)

/-- A write of an actuator entry that is not in use or DISABLED, and that passes its checks, replaces the entry and sets its
runtime to the reset values; nothing else changes (R127). The model's own choices in it: log 13. -/
def Obligations.WriteActuatorReplacesTheEntry : Prop :=
  ∀ (s : State) (c : Channel) (t : Telegram) (a : ActIx) (e : ActCfg), EndsWrite s c t 1 a.val e.bytes → e.Fits →
    Unprotected c (s.cfg.acts[a]).protectField e.protectField →
    ((s.cfg.acts[a]).inUse = false ∨ (s.acts[a]).control = .disabled) → (e.inUse = true → ActuatorEntryOk s a e) →
    exec .writeEntryActuator s = .next ((((s.written c).updCfg fun k => { k with acts := k.acts.set a e }).updAct a fun _ =>
      { control := .enabled, dispatch := .idle, requested := none, needsSend := false, refreshOnly := false
        inFlightValue := none, inFlightTag := none, confirmed := none, rangeRefused := none, health := .ok, timeouts := 0
        refreshTimer := .stopped, retryTimer := .stopped, overrideTimer := .stopped }).replied c t 3 .done [])

/-- Writes of groups, scene headers, cues, the saturation table and filter entries that pass their checks replace the entry
and change nothing else (R28, R105, R106, R108, R154). The model's own choices in it: log 13. -/
def Obligations.OtherTableWritesReplaceTheEntry : Prop :=
  ∀ (s : State) (c : Channel) (t : Telegram),
    (∀ (g : GroupIx) (list : List ActIx), EndsWrite s c t 2 g.val (groupBytes list) → list.length ≤ 16 → list.Nodup →
      (∀ a ∈ list, (s.cfg.acts[a]).inUse = true ∧ (s.cfg.acts[a]).kind = .dimmer) → s.groupRunning g = false →
      exec .writeEntryGroup s = .next (((s.written c).updCfg fun k => { k with groups := k.groups.set g list }).replied
        c t 3 .done [])) ∧
    (∀ (n : SceneIx) (x : SceneHeader), EndsWrite s c t 3 n.val x.bytes →
      Unprotected c (markByte (s.cfg.headers[n]).protect) (markByte x.protect) → s.sceneRunning n = false → x.cueCount ≤ 16 →
      exec .writeEntrySceneHeader s = .next (((s.written c).updCfg fun k =>
        { k with headers := k.headers.set n x }).replied c t 3 .done [])) ∧
    (∀ (n : SceneIx) (i : CueIx) (x : Cue), EndsWrite s c t 4 (n.val * 256 + i.val) x.bytes → x.Fits →
      (c = .service ∨ (s.cfg.headers[n]).protect = false) → s.sceneRunning n = false →
      0 ≤ x.level → x.level ≤ 1000 → x.fade ≤ 6000 → x.delay ≤ 6000 → x.skip ≤ 15 →
      (∀ a, x.target = some (.actuator a) → (s.cfg.acts[a]).inUse = true ∧ (s.cfg.acts[a]).kind = .dimmer) →
      exec .writeEntryCue s = .next (((s.written c).updCfg fun k =>
        { k with cues := k.cues.set n ((k.cues[n]).set i x) }).replied c t 3 .done [])) ∧
    (∀ sat : Vector Nat 17, EndsWrite s c t 6 0 (saturationBytes sat) →
      (∀ i : Nat, (h : i < 17) → 1 ≤ sat[i] ∧ sat[i] ≤ 65535) →
      (∀ i : Nat, (h : i < 16) → sat[i] < sat[i + 1]) →
      exec .writeEntrySaturation s = .next (((s.written c).updCfg fun k => { k with saturation := sat }).replied
        c t 3 .done [])) ∧
    (∀ (i : FilterIx) (f : FilterEntry), EndsWrite s c t 7 i.val f.bytes → f.lo < 65536 → f.hi < 65536 →
      (f.inUse = true → FilterEntryOk f) →
      exec .writeEntryFilter s = .next (((s.written c).updCfg fun k => { k with filter := k.filter.set i f }).replied
        c t 3 .done []))

/-- A write of a zone entry that passes its checks replaces the configuration fields but for enabled, and leaves the zone's
runtime and everything else as they stand (R27, R47, R65, R83). The model's own choices in it: log 13. -/
def Obligations.WriteZoneReplacesTheConfiguration : Prop :=
  ∀ (s : State) (c : Channel) (t : Telegram) (z : ZoneIx) (e : ZoneCfg), EndsWrite s c t 5 z.val e.writeBytes → e.Fits →
    Unprotected c (markByte (s.cfg.zones[z]).eval.protect) (markByte e.eval.protect) → ZoneEntryOk e →
    exec .writeEntryZone s = .next (((s.written c).updCfg fun k =>
      { k with zones := k.zones.set z { e with eval := { e.eval with enabled := (s.cfg.zones[z]).eval.enabled } } }).replied
      c t 3 .done [])

/-- A write of the PART record whose fields lie in their ranges replaces the record whole and is answered from the new own
address. A new own address removes the queued forwards to it, which are counted as discards; a new threshold judges
threshold-armed anew; nothing else changes (R155, R164, R168, R181). The model's own choices in it: log 13, and that a forward
which its transmitter already holds stands at the head of its queue until its attempts end (log 21). -/
def Obligations.WritePartReplacesTheRecord : Prop :=
  ∀ (s : State) (c : Channel) (t : Telegram) (p : PartRecord), EndsWrite s c t 8 0 p.bytes → p.Fits → PartRecordOk p →
    let base := (s.written c).updPart fun _ => p
    let holdsForward := fun (tx : Transmitter) => match tx with
      | .sending .forward _ _ | .waiting .forward _ _ => true
      | .free | .sending _ _ _ | .waiting _ _ _ => false
    let kept := fun (l : List Telegram) => l.filter fun x => x.dest != BitVec.ofNat 8 p.own
    let queue := fun (tx : Transmitter) (q : ForwardQueue) =>
      let left := if holdsForward tx then q.items.take 1 ++ kept (q.items.drop 1) else kept q.items
      if p.own = s.cfg.part.own then q
      else { items := left, discards := min 65535 (q.discards + (q.items.length - left.length)) }
    let armed := if p.captureThreshold = s.cfg.part.captureThreshold then s.acct.thresholdArmed
      else decide (s.acct.captures.length < p.captureThreshold)
    exec .writeEntryPart s = .next (({ base with
      lines := { s.lines with ht := queue s.lines.trunkTx s.lines.ht, th := queue s.lines.hallTx s.lines.th }
      acct := { s.acct with thresholdArmed := armed } } : State).replied c t 3 .done [])

/-- A trunk write on a protected point, actuator, scene header, cue or zone, or one whose mark differs from the stored mark, is
answered PROTECTED with PROTECT_FAULT set, and changes no table (R3, R27, R106, R108, R127). Every write whose bytes are too few or
too many is refused BAD_VALUE, and then one whose index is outside the table BAD_INDEX (R166, R167). IN_USE refuses a write on an
actuator that is in use and not DISABLED, on a group or a scene that is running (R105, R106, R108, R109, R127); BAD_VALUE one whose fields break the rules of its table, or
whose codes name no value (R4, R5, R27, R28, R105 to R108, R127, R154, R168, R170). A refused write changes nothing but its
channel's staging record. The model's own choices in it: logs 13 and 14. -/
def Obligations.ProtectedEntriesRefuseTrunkWrites : Prop :=
  (∀ (s : State) (t : Telegram),
    let refusedState := ((s.written .trunk).setProtectFault).replied .trunk t 3 .protectedEntry []
    (∀ (p : PointIx) (e : PointCfg), EndsWrite s .trunk t 0 p.val e.bytes → e.Fits →
      ¬ Unprotected .trunk (s.cfg.points[p]).protectField e.protectField → exec .writeEntryPoint s = .next refusedState) ∧
    (∀ (a : ActIx) (e : ActCfg), EndsWrite s .trunk t 1 a.val e.bytes → e.Fits →
      ¬ Unprotected .trunk (s.cfg.acts[a]).protectField e.protectField → exec .writeEntryActuator s = .next refusedState) ∧
    (∀ (n : SceneIx) (x : SceneHeader), EndsWrite s .trunk t 3 n.val x.bytes → x.cueCount < 65536 →
      ¬ Unprotected .trunk (markByte (s.cfg.headers[n]).protect) (markByte x.protect) →
      exec .writeEntrySceneHeader s = .next refusedState) ∧
    (∀ (n : SceneIx) (i : CueIx) (x : Cue), EndsWrite s .trunk t 4 (n.val * 256 + i.val) x.bytes → x.Fits →
      (s.cfg.headers[n]).protect = true → exec .writeEntryCue s = .next refusedState) ∧
    (∀ (z : ZoneIx) (e : ZoneCfg), EndsWrite s .trunk t 5 z.val e.writeBytes → e.Fits →
      ¬ Unprotected .trunk (markByte (s.cfg.zones[z]).eval.protect) (markByte e.eval.protect) →
      exec .writeEntryZone s = .next refusedState) ∧
    (∀ stored written : Bool, Unprotected .trunk (markByte stored) (markByte written) ↔ stored = false ∧ written = false) ∧
    ∀ (p : PointIx) (a : ActIx), ((s.cfg.points[p]).protect = true ↔ (s.cfg.points[p]).protectField = 1) ∧
      ((s.cfg.acts[a]).protect = true ↔ (s.cfg.acts[a]).protectField = 1)) ∧
  (∀ (s : State) (c : Channel) (t : Telegram) (tid : TableId) (index : Nat) (bytes : List Byte), CarriesEntry tid bytes →
    let table : Byte := BitVec.ofNat 8 (tableOrder.idxOf tid)
    let refused := fun (status : Status) => exec tid.writeRow s = .next ((s.written c).replied c t 3 status [])
    (∀ extra, extra ≠ [] → EndsWrite s c t table index (bytes ++ extra) → refused .badValue) ∧
    (∀ k, k < bytes.length → EndsWrite s c t table index (bytes.take k) → refused .badValue) ∧
    (OutsideTable tid index → EndsWrite s c t table index bytes → refused .badIndex)) ∧
  (∀ (s : State) (n : SceneIx) (g : GroupIx),
    let runs := fun (z : ZoneIx) (m : SceneIx) =>
      ((s.zones[z]).scene.state = .running ∨ (s.zones[z]).scene.state = .settling) ∧ (s.zones[z]).scene.scene = some m
    (s.sceneRunning n = true ↔ ∃ z, runs z n) ∧
    (s.groupRunning g = true ↔ ∃ (z : ZoneIx) (m : SceneIx) (i : CueIx) (run : CueRun), runs z m ∧
      (s.zones[z]).scene.cues[i.val]? = some run ∧ run.status ≠ .withheld ∧ ((s.cfg.cues[m])[i]).target = some (.group g))) ∧
  ∀ (s : State) (c : Channel) (t : Telegram),
    let refused := fun (cmd : Instr) (status : Status) => exec cmd s = .next ((s.written c).replied c t 3 status [])
    (∀ (p : PointIx) (e : PointCfg), e.Fits → Unprotected c (s.cfg.points[p]).protectField e.protectField →
      (EndsWrite s c t 0 p.val e.bytes → e.inUse = true → ¬ PointEntryOk s p e → refused .writeEntryPoint .badValue) ∧
      (∀ b : Byte, 2 ≤ b.toNat → EndsWrite s c t 0 p.val (e.bytes.set 0 b) → refused .writeEntryPoint .badValue)) ∧
    (∀ (a : ActIx) (e : ActCfg), e.Fits → Unprotected c (s.cfg.acts[a]).protectField e.protectField →
      let locked := (s.cfg.acts[a]).inUse = true ∧ (s.acts[a]).control ≠ .disabled
      (EndsWrite s c t 1 a.val e.bytes → locked → refused .writeEntryActuator .inUse) ∧
      (EndsWrite s c t 1 a.val e.bytes → ¬ locked → e.inUse = true → ¬ ActuatorEntryOk s a e →
        refused .writeEntryActuator .badValue) ∧
      (∀ b : Byte, 2 ≤ b.toNat → EndsWrite s c t 1 a.val (e.bytes.set 0 b) → ¬ locked →
        refused .writeEntryActuator .badValue)) ∧
    (∀ (g : GroupIx) (codes : List Byte), codes.length < 256 →
      EndsWrite s c t 2 g.val (BitVec.ofNat 8 codes.length :: codes) →
      (s.groupRunning g = true → refused .writeEntryGroup .inUse) ∧
      (s.groupRunning g = false →
        (16 < codes.length ∨ ¬ codes.Nodup ∨ ∃ b ∈ codes, ∀ a : ActIx, b = BitVec.ofNat 8 a →
          (s.cfg.acts[a]).inUse = false ∨ (s.cfg.acts[a]).kind ≠ .dimmer) → refused .writeEntryGroup .badValue)) ∧
    (∀ (n : SceneIx) (x : SceneHeader), x.cueCount < 65536 → EndsWrite s c t 3 n.val x.bytes →
      Unprotected c (markByte (s.cfg.headers[n]).protect) (markByte x.protect) →
      (s.sceneRunning n = true → refused .writeEntrySceneHeader .inUse) ∧
      (s.sceneRunning n = false → 16 < x.cueCount → refused .writeEntrySceneHeader .badValue)) ∧
    (∀ (n : SceneIx) (i : CueIx) (x : Cue), x.Fits → EndsWrite s c t 4 (n.val * 256 + i.val) x.bytes →
      (c = .service ∨ (s.cfg.headers[n]).protect = false) →
      (s.sceneRunning n = true → refused .writeEntryCue .inUse) ∧
      (s.sceneRunning n = false →
        (x.level < 0 ∨ 1000 < x.level ∨ 6000 < x.fade ∨ 6000 < x.delay ∨ 15 < x.skip ∨
          ∃ a, x.target = some (.actuator a) ∧ ((s.cfg.acts[a]).inUse = false ∨ (s.cfg.acts[a]).kind ≠ .dimmer)) →
        refused .writeEntryCue .badValue)) ∧
    (∀ (z : ZoneIx) (e : ZoneCfg), e.Fits → EndsWrite s c t 5 z.val e.writeBytes →
      Unprotected c (markByte (s.cfg.zones[z]).eval.protect) (markByte e.eval.protect) → ¬ ZoneEntryOk e →
      refused .writeEntryZone .badValue) ∧
    (∀ sat : Vector Nat 17, (∀ i : Nat, (h : i < 17) → sat[i] < 65536) → EndsWrite s c t 6 0 (saturationBytes sat) →
      (sat[0] = 0 ∨ ∃ (i : Nat) (h : i < 16), sat[i + 1] ≤ sat[i]) → refused .writeEntrySaturation .badValue) ∧
    (∀ (i : FilterIx) (f : FilterEntry), f.lo < 65536 → f.hi < 65536 →
      (EndsWrite s c t 7 i.val f.bytes → f.inUse = true → ¬ FilterEntryOk f → refused .writeEntryFilter .badValue) ∧
      (∀ b : Byte, 2 ≤ b.toNat → EndsWrite s c t 7 i.val (f.bytes.set 0 b) → refused .writeEntryFilter .badValue)) ∧
    (∀ p : PartRecord, p.Fits → EndsWrite s c t 8 0 p.bytes → ¬ PartRecordOk p → refused .writeEntryPart .badValue)

/-- READ_ENTRY answers with the table, the index, the segment, the number of segments and up to 25 bytes of the entry, and
changes nothing else; an index outside the table is refused BAD_INDEX. The bytes of an entry are those of its configuration and
then, where it has a runtime, those of its runtime, spelled here field by field: points, actuators, groups, scenes and cues, zones
with the records of evaluation, heating, arbiter, covers, purge and scene engine, filter entries and the PART record. The remaining
time of a timer is a whole number of its unit, an unfinished unit counted or not (R1, R2, R7, R25 to R27, R46, R48, R64, R66, R83,
R85, R98, R105 to R107, R110, R126 to R128, R154, R166, R168, R170, R178, R186). The model's own choices in it: logs 3, 7, 8, 11, 13
and 35. -/
def Obligations.ReadEntryReturnsTheEntry : Prop :=
  (∀ unit ms : Nat, 0 < unit → ms / unit ≤ shownUnits unit ms ∧ shownUnits unit ms ≤ ms / unit + 1 ∧
    (ms % unit = 0 → shownUnits unit ms = ms / unit)) ∧
  ((∀ c : PointCfg, c.bytes = [flagByte c.inUse, c.lineField] ++ numField c.node ++ numField c.channel ++
      [c.kindField, c.zone.wire] ++ numField c.min ++ numField c.max ++ numField c.staleTimeout ++
      presence countField c.persistence ++ presence (fun n : Nat => [BitVec.ofNat 8 n]) c.drive ++
      [c.notifyField, c.protectField]) ∧
    (∀ c : PointCfg, (c.line = some .hall ↔ c.lineField = 0) ∧ (c.line = some .trunk ↔ c.lineField = 1) ∧
      (c.kindField.toNat ≤ 7 → c.kindField = c.kind.wire) ∧ (c.notifyStale = true ↔ c.notifyField = 1) ∧
      (c.protect = true ↔ c.protectField = 1)) ∧
    (∀ r : PointRt, r.bytes = [r.state.wire] ++ presence numField r.value ++ presence (fun b => [flagByte b]) r.contact ++
      presence (fun b => [flagByte b]) r.candidate ++ numField r.run ++ presence wordField r.lastArrival ++
      timerBytes 0 1 1000 r.staleTimer)) ∧
  ((∀ c : ActCfg, c.bytes = [flagByte c.inUse] ++ numField c.node ++ numField c.channel ++ [c.kindField, c.zoneField] ++
      numField c.min ++ numField c.max ++ numField c.deadband ++ numField c.refresh ++ numField c.overrideHold ++
      [c.protectField]) ∧
    (∀ c : ActCfg, (c.kindField.toNat ≤ 7 → c.kindField = c.kind.wire) ∧ (c.protect = true ↔ c.protectField = 1) ∧
      (c.zoneField.toNat ≤ 3 → c.zoneField = BitVec.ofNat 8 c.zone)) ∧
    (∀ r : ActRt, r.bytes = [r.control.wire, r.dispatch.wire] ++ presence numField r.requested ++
      [flagByte r.needsSend, flagByte r.refreshOnly] ++ presence numField r.inFlightValue ++
      presence (fun t : Tag => countField t.val) r.inFlightTag ++ presence numField r.confirmed ++
      presence numField r.rangeRefused ++ [r.health.wire] ++ numField r.timeouts ++ timerBytes 0 1 1000 r.refreshTimer ++
      timerBytes 0 1 1000 r.retryTimer ++ timerBytes 0 1 1000 r.overrideTimer)) ∧
  ((∀ g : List ActIx, groupBytes g = counted indexByte g) ∧
    (∀ x : SceneHeader, x.bytes = numField x.cueCount ++ [flagByte x.protect]) ∧
    (∀ c : Cue, c.bytes = presence CueTarget.wire c.target ++ numField c.level ++ numField c.fade ++ numField c.delay ++
      presence Guard.wire c.guard ++ numField c.skip) ∧
    (∀ sat : Vector Nat 17, saturationBytes sat = sat.toList.flatMap fun p => numField p) ∧
    (∀ f : FilterEntry, f.bytes = [flagByte f.inUse] ++ numField f.lo ++ numField f.hi ++ [f.dirField, f.actionField] ∧
      (f.dir = some .ht ↔ f.dirField = 0) ∧ (f.dir = some .th ↔ f.dirField = 1) ∧ (f.dir = some .both ↔ f.dirField = 2) ∧
      (f.action = .pass ↔ f.actionField = 0)) ∧
    (∀ p : PartRecord,
      let perJob := fun (x : PerJob Nat) => numField x.heat ++ numField x.air ++ numField x.cover ++ numField x.light
      p.bytes = numField p.own ++ numField p.supervisor ++ numField p.ackTimeout ++ perJob p.priority ++ perJob p.maxWait ++
        [match p.filterDefault with | .pass => (0 : Byte) | .block => 1, if p.run then 0 else 1] ++
        (p.accOptions.toList.flatMap fun z => z.toList.flatMap fun o =>
          [flagByte o.enabled, flagByte o.captureOnOverflow, flagByte o.freezeOnOverflow]) ++
        [match p.captureMode with | .wrap => (0 : Byte) | .stop => 1] ++ numField p.captureThreshold ++ [flagByte p.ringFreeze])) ∧
  ((∀ c : ZoneCfg,
      let evaluation := numField c.eval.period ++ numField c.eval.rhOpen ++ numField c.eval.rhNight ++ numField c.eval.krh ++
        numField c.eval.mthr ++ numField c.eval.kc ++ numField c.eval.mcrit ++ [flagByte c.eval.protect]
      let rest := numField c.heat.openOffset ++ numField c.heat.nightOffset ++ numField c.heat.spMin ++ numField c.heat.spMax ++
        numField c.heat.kp ++ numField c.heat.ki ++ numField c.arb.dwell ++ numField c.arb.don ++ numField c.arb.doff ++
        numField c.arb.voff ++ numField c.arb.hvent ++ numField c.arb.fIdle ++ numField c.arb.fNight ++ numField c.arb.fHeat ++
        numField c.arb.fdMin ++ numField c.arb.fdMax ++ numField c.arb.fVent ++ numField c.arb.fPurge ++ numField c.arb.dMin ++
        numField c.arb.dPurge ++ numField c.cover.prep ++ numField c.cover.motion ++ numField c.cover.detect ++
        numField c.cover.settle ++ numField c.cover.waitA ++ numField c.cover.runB ++ numField c.cover.fanLevel ++
        presence indexByte c.cover.openScene ++
        presence indexByte c.cover.coverWorkScene ++
        presence indexByte c.cover.nightScene
      c.readBytes = evaluation ++ [flagByte c.eval.enabled] ++ rest ∧ c.writeBytes = evaluation ++ rest) ∧
    (∀ e : EvalRt, e.bytes = e.ta.wire ++ e.rh.wire ++ e.tw.wire ++ e.tg.wire ++ e.tout.wire ++ presence numField e.tc ++
      presence numField e.psat ++ presence numField e.pv ++ presence numField e.td ++ presence numField e.margin ++
      [setByte e.heldMargin] ++ numField e.dRh ++ numField e.dCond ++ numField e.d ++
      [setByte e.crit, setByte e.noAirData, setByte e.tClamp, setByte e.dewLow] ++ timerBytes 1 0 1000 e.timer ++
      presence wordField e.lastTime) ∧
    (∀ h : HeatRt, h.bytes = presence numField h.spa ++ [setByte h.heldSetpoint] ++ presence numField h.e ++ numField h.h ++
      numField h.i ++ [setByte h.integLimit]) ∧
    (∀ a : ArbRt, a.bytes = [a.granted.wire] ++ presence wordField a.grantTime ++ timerBytes 1 0 1000 a.dwell ++
      presence (fun m : Mode => [m.wire]) a.chosen ++ presence (fun p : Pending => [p.wire]) a.pending ++
      [flagByte a.ventAvailable] ++
      presence (fun c : ModeCause => [c.wire]) a.lastCause ++ presence wordField a.lastDecision) ∧
    (∀ c : CoverRt, c.bytes = [c.state.wire] ++ presence (fun r : FaultReason => [r.wire]) c.reason ++
      counted indexByte c.drives ++ timerBytes 0 1 1000 c.detectTimer ++ timerBytes 0 1 1000 c.prepTimer ++
      timerBytes 0 1 1000 c.motionTimer ++ timerBytes 0 1 1000 c.settleTimer ++
      [flagByte c.lightingReady, flagByte c.workSceneTaken]) ∧
    (∀ (p : PurgeRt) (held : Bool), p.bytes held = [p.state.wire, if p.state = .wait ∧ held = false then 0 else 1] ++
      wordField (BitVec.ofNat 32 (shownUnits 1000 p.remainingWait)) ++ numField (shownUnits 1000 p.remainingRun) ++
      numField (p.runCounted / 1000 : Nat) ++ presence wordField p.runStart) ∧
    (∀ e : SceneRt, e.bytes = [e.state.wire] ++ presence indexByte e.scene ++
      presence (fun o : TakeOrigin => [o.wire]) e.origin ++ presence wordField e.takeTime ++
      counted (fun c : CueRun => c.status.wire) e.cues ++
      counted Touched.wire e.touched ++ timerBytes 0 1 1 e.stepTimer ++ [flagByte e.coverWork] ++
      presence indexByte e.degraded) ∧
    (∀ r : ZoneRt, r.bytes = r.eval.bytes ++ r.heat.bytes ++ r.arb.bytes ++ r.cover.bytes ++ r.purge.bytes r.held ++
      r.scene.bytes ++ presence (fun a : AccIx => [0, BitVec.ofNat 8 a]) r.arming ++ [flagByte r.held] ++
      presence indexByte r.holdCause)) ∧
  (∀ (s : State) (tid : TableId) (index : Nat), s.entryBytes tid index = match tid with
    | .point => if h : index < 128 then some ((s.cfg.points[index]).bytes ++ (s.points[index]).bytes) else none
    | .actuator => if h : index < 96 then some ((s.cfg.acts[index]).bytes ++ (s.acts[index]).bytes) else none
    | .group => if h : index < 16 then some (groupBytes s.cfg.groups[index]) else none
    | .sceneHeader => if h : index < 32 then some (s.cfg.headers[index]).bytes else none
    | .cue =>
      if h : index / 256 < 32 ∧ index % 256 < 16 then some ((s.cfg.cues[index / 256])[index % 256]).bytes else none
    | .zone => if h : index < 4 then some ((s.cfg.zones[index]).readBytes ++ (s.zones[index]).bytes) else none
    | .saturation => if index = 0 then some (saturationBytes s.cfg.saturation) else none
    | .filter => if h : index < 16 then some (s.cfg.filter[index]).bytes else none
    | .part => if index = 0 then some s.cfg.part.bytes else none) ∧
  ∀ (s : State) (c : Channel) (t : Telegram) (tid : TableId) (hi lo seg : Byte),
    NextIs s c t 2 [BitVec.ofNat 8 (tableOrder.idxOf tid), hi, lo, seg] →
    exec .readEntry s = .next (
      match s.entryBytes tid (hi.toNat * 256 + lo.toNat) with
      | none => (s.taken c).replied c t 2 .badIndex []
      | some bytes =>
        if seg.toNat < segmentCount bytes then
          (s.taken c).replied c t 2 .done ([BitVec.ofNat 8 (tableOrder.idxOf tid), hi, lo, seg,
            BitVec.ofNat 8 (segmentCount bytes)] ++ (bytes.drop (25 * seg.toNat)).take 25)
        else (s.taken c).replied c t 2 .badValue [])

/-! ### Lines -/

/-- A telegram of at most 32 payload bytes, sent with its check and heard without error, is read back as that telegram; and a
unit that is read as a telegram is, byte for byte, what sending that telegram sends (R150, R151). -/
def Obligations.TelegramsReadBackAsSent : Prop :=
  (∀ t : Telegram, t.payload.length ≤ 32 → t.dest ≠ 0 →
    judgeUnit true (t.bytes.map fun b => { value := b, stop := true }) = some t) ∧
  (∀ (heard : List RxByte) (t : Telegram), judgeUnit true heard = some t →
    heard = t.bytes.map (fun b => { value := b, stop := true }) ∧ t.payload.length ≤ 32 ∧ t.dest ≠ 0)

/-- A received unit is discarded in exactly the six cases of R151, on the service port in those but for the destination address, and
a telegram with any destination is read back there as it was sent; a discarded unit counts one error of its interface, saturating
at 65535, and has no other effect (R151, R162). The model's own choices in it: log 32. -/
def Obligations.BadUnitsAreDiscardedAndCounted : Prop :=
  ∀ (s : State) (heard : List RxByte), heard ≠ [] →
    let bytes := heard.map RxByte.value
    let len := (bytes.getD 3 0).toNat
    (judgeUnit true heard = none ↔
      (∃ b ∈ heard, b.stop = false) ∨ bytes.length < 6 ∨ 32 < len ∨ bytes.length ≠ 6 + len ∨
        bytes.drop (4 + len) ≠ checkBytes (bytes.take (4 + len)) ∨ bytes.getD 0 0 = 0) ∧
    (judgeUnit false heard = none ↔
      (∃ b ∈ heard, b.stop = false) ∨ bytes.length < 6 ∨ 32 < len ∨ bytes.length ≠ 6 + len ∨
        bytes.drop (4 + len) ≠ checkBytes (bytes.take (4 + len))) ∧
    (∀ t : Telegram, judgeUnit false heard = some t ↔
      t.payload.length ≤ 32 ∧ heard = t.bytes.map fun b => { value := b, stop := true }) ∧
    (judgeUnit true heard = none →
      exec (.receivedUnit .hall heard) s =
        .next { s with lines := { s.lines with hallErrors := min 65535 (s.lines.hallErrors + 1) } } ∧
      exec (.receivedUnit .trunk heard) s =
        .next { s with lines := { s.lines with trunkErrors := min 65535 (s.lines.trunkErrors + 1) } }) ∧
    (judgeUnit false heard = none →
      exec (.serviceUnit heard) s =
        .next { s with mgmt := { s.mgmt with serviceErrors := min 65535 (s.mgmt.serviceErrors + 1) } })

/-- A management request arrives at the tail of its channel's queue, or is discarded with REQUEST_OVERRUN at a queue of 4; on
the service port it restarts the idle timer of held local mode; other telegrams of the service port and requests without a
kind are discarded. A telegram to the own address is discarded, but that it makes its line active, unless it is a READING, on
the trunk a request, or on the hall line an ACK (R153, R162, R172). -/
def Obligations.RequestsArriveAtTheirQueues : Prop :=
  ∀ (s : State) (heard : List RxByte) (t : Telegram), heard ≠ [] →
    (judgeUnit true heard = some t → t.dest = s.own → t.kind = 4 →
      exec (.receivedUnit .trunk heard) s = .next
        (let u := { s with lines := { s.lines with trunkActive := true } }
        if t.payload = [] then u
        else if s.mgmt.trunkRequests.length < 4 then
          { u with mgmt := { s.mgmt with trunkRequests := s.mgmt.trunkRequests ++ [t] } }
        else { u with mgmt := { s.mgmt with flags := { s.mgmt.flags with requestOverrun := true } } }) ∧
      exec (.receivedUnit .hall heard) s = .next { s with lines := { s.lines with hallActive := true } }) ∧
    (judgeUnit true heard = some t → t.dest = s.own → t.kind ≠ 1 →
      (t.kind ≠ 4 → exec (.receivedUnit .trunk heard) s = .next { s with lines := { s.lines with trunkActive := true } }) ∧
      (t.kind ≠ 3 → exec (.receivedUnit .hall heard) s = .next { s with lines := { s.lines with hallActive := true } })) ∧
    (judgeUnit false heard = some t →
      exec (.serviceUnit heard) s = .next
        (if t.kind = 4 then
          let idle := if s.mgmt.localMode then Timer.running 900000 else s.mgmt.idleTimer
          if t.payload = [] then { s with mgmt := { s.mgmt with idleTimer := idle } }
          else if s.mgmt.serviceRequests.length < 4 then
            { s with mgmt := { s.mgmt with idleTimer := idle, serviceRequests := s.mgmt.serviceRequests ++ [t] } }
          else { s with mgmt := { s.mgmt with idleTimer := idle, flags := { s.mgmt.flags with requestOverrun := true } } }
        else s))

/-- The first filter entry in index order that is in use, holds the destination in its range and names the direction or BOTH
decides by its action; with none, the filter default decides (R154). A telegram in transit makes its line active and,
where the filter passes it, joins the tail of its direction's forwarding queue, or is discarded and counted at a queue of
16; nothing else changes. This holds for every kind but READING, which is also inspected, and a COMMAND from the trunk,
which is also judged (R152 to R155). -/
def Obligations.FilteredTelegramsAreForwarded : Prop :=
  (∀ (s : State) (d : Direction) (dest : Nat),
      let fits := fun (f : FilterEntry) => f.inUse = true ∧ f.lo ≤ dest ∧ dest ≤ f.hi ∧
        (f.dir = some .both ∨ (f.dir = some .ht ∧ d = .ht) ∨ (f.dir = some .th ∧ d = .th))
      (∀ i : FilterIx, fits s.cfg.filter[i] → (∀ j : FilterIx, j < i → ¬ fits s.cfg.filter[j]) →
        s.filterAction d dest = (s.cfg.filter[i]).action) ∧
      ((∀ i : FilterIx, ¬ fits s.cfg.filter[i]) → s.filterAction d dest = s.cfg.part.filterDefault)) ∧
  ∀ (s : State) (heard : List RxByte) (t : Telegram), heard ≠ [] → judgeUnit true heard = some t → t.dest ≠ s.own →
    t.kind ≠ 1 →
    let offered := fun (q : ForwardQueue) =>
      if q.items.length < 16 then { q with items := q.items ++ [t] } else { q with discards := min 65535 (q.discards + 1) }
    exec (.receivedUnit .hall heard) s = .next { s with lines := { s.lines with
      hallActive := true, ht := if s.filterAction .ht t.dest.toNat = .pass then offered s.lines.ht else s.lines.ht } } ∧
    (t.kind ≠ 2 → exec (.receivedUnit .trunk heard) s = .next { s with lines := { s.lines with
      trunkActive := true, th := if s.filterAction .th t.dest.toNat = .pass then offered s.lines.th else s.lines.th } })

/-- The first in-use entry in index order with a command's destination and channel is the one it names. A COMMAND from the trunk to
an owned actuator of an enabled zone whose class is not OVERRIDE, and one to destination 255 while a zone is enabled, are
discarded with FOREIGN_BLOCKED set. Every other goes to the filter, and no actuator changes: one that names no entry, a PLAIN one
or one in a disabled zone, one to 255 while no zone is enabled, one whose payload length is not 4, and an OVERRIDE that the filter
blocks, that a full queue discards or that finds its actuator disabled. A forwarded OVERRIDE makes an ENABLED actuator OVERRIDDEN
with its override hold, out of its queue and reported to its scene engine, and restarts the hold of one already OVERRIDDEN (R143,
R144). The model's own choices in it: log 17. -/
def Obligations.ForeignCommandsAreJudged : Prop :=
  (∀ (s : State) (node ch : Nat),
    let named := fun (a : ActIx) =>
      (s.cfg.acts[a]).inUse = true ∧ (s.cfg.acts[a]).node = node ∧ (s.cfg.acts[a]).channel = ch
    (∀ a, named a → (∀ b, b < a → ¬ named b) → s.matchActuator node ch = some a) ∧
    ((∀ a, ¬ named a) → s.matchActuator node ch = none)) ∧
  ∀ (s : State) (heard : List RxByte) (t : Telegram), heard ≠ [] →
    judgeUnit true heard = some t → t.kind = 2 → t.dest ≠ s.own →
    let u : State := { s with lines := { s.lines with trunkActive := true } }
    let offered : State := { s with lines := { s.lines with
      trunkActive := true
      th := if s.filterAction .th t.dest.toNat = .pass then
          if s.lines.th.items.length < 16 then { s.lines.th with items := s.lines.th.items ++ [t] }
          else { s.lines.th with discards := min 65535 (s.lines.th.discards + 1) }
        else s.lines.th } }
    let passed := exec (.receivedUnit .trunk heard) s = .next offered
    (t.payload.length ≠ 4 → passed) ∧
    ∀ ch cls hi lo : Byte, t.payload = [ch, cls, hi, lo] →
    (t.dest = 255 → s.anyEnabled = true →
      exec (.receivedUnit .trunk heard) s =
        .next { u with mgmt := { s.mgmt with flags := { s.mgmt.flags with foreignBlocked := true } } }) ∧
    (t.dest = 255 → (∀ z : ZoneIx, s.enabled z = false) → passed) ∧
    (t.dest ≠ 255 → s.matchActuator t.dest.toNat ch.toNat = none → passed) ∧
    (∀ a : ActIx, t.dest ≠ 255 → s.matchActuator t.dest.toNat ch.toNat = some a →
      ((s.cfg.acts[a]).kind = .plain ∨ (s.cfg.zones[(s.cfg.acts[a]).zone]).eval.enabled = false) → passed) ∧
    (∀ a : ActIx, t.dest ≠ 255 → s.matchActuator t.dest.toNat ch.toNat = some a → (s.cfg.acts[a]).kind ≠ .plain →
      (s.cfg.zones[(s.cfg.acts[a]).zone]).eval.enabled = true →
      (cls ≠ 1 → exec (.receivedUnit .trunk heard) s = .next { u with
        mgmt := { s.mgmt with flags := { s.mgmt.flags with foreignBlocked := true } } }) ∧
      (cls = 1 → s.filterAction .th t.dest.toNat = .block → exec (.receivedUnit .trunk heard) s = .next u) ∧
      (cls = 1 → s.filterAction .th t.dest.toNat = .pass → 16 ≤ s.lines.th.items.length →
        exec (.receivedUnit .trunk heard) s = .next { u with lines := { u.lines with
          th := { s.lines.th with discards := min 65535 (s.lines.th.discards + 1) } } }) ∧
      (cls = 1 → (s.acts[a]).control = .disabled ∨ (s.acts[a]).control = .disabling → passed) ∧
      (cls = 1 → s.filterAction .th t.dest.toNat = .pass → s.lines.th.items.length < 16 →
        let hold := Timer.running ((s.cfg.acts[a]).overrideHold * 60 * 1000)
        ((s.acts[a]).control = .overridden → exec (.receivedUnit .trunk heard) s = .next (offered.updAct a fun r =>
          { r with overrideTimer := hold })) ∧
        ((s.acts[a]).control = .enabled → ∃ w : State, exec (.receivedUnit .trunk heard) s = .next w ∧
          (w.acts[a]).control = .overridden ∧ (w.acts[a]).overrideTimer = hold ∧
          ((s.acts[a]).dispatch = .queued → (w.acts[a]).dispatch = .idle) ∧
          w.lines = { s.lines with trunkActive := true, th := { s.lines.th with items := s.lines.th.items ++ [t] } } ∧
          (∀ z : ZoneIx, z ≠ (s.cfg.acts[a]).zone → w.zones[z] = s.zones[z]) ∧
          let v := (offered.unqueue a).updAct a fun r => { r with control := .overridden, overrideTimer := hold }
          w = if (s.cfg.acts[a]).kind = .dimmer then State.reportScene (s.cfg.acts[a]).zone (v.sceneControl (s.cfg.acts[a]).zone a)
            else v)))

/-- The hall transmitter, when free, takes the oldest command in phase SENDING or the head of the T→H queue; when both wait,
from the source other than the last served; the choice sets the last-served field and begins attempt 1. A dispatch joins
the outstanding table at its tail, so its order is that of dispatch (R135, R156, R157). The model's own choices in it: attempt 1
begins whenever the choice is commanded (log 19), and a command's telegram stands as it was formed at dispatch (log 22). -/
def Obligations.HallTransmitterAlternates : Prop :=
  ∀ s : State,
    (∀ (older younger : List Outstanding) (o : Outstanding), s.lines.hallTx = .free →
      s.disp.outstanding = older ++ o :: younger → (∀ x ∈ older, x.phase ≠ .sending) → o.phase = .sending →
      (s.lines.th.items = [] ∨ s.lines.hallLast = .forward) →
      exec .hallTxChoose s = .next { s with lines := { s.lines with
        hallTx := .sending (.command o.tag) o.telegram 1, hallLast := .command } }) ∧
    (∀ (x : Telegram) (rest : List Telegram), s.lines.hallTx = .free → s.lines.th.items = x :: rest →
      ((∀ o ∈ s.disp.outstanding, o.phase ≠ .sending) ∨ s.lines.hallLast = .command) →
      exec .hallTxChoose s = .next { s with lines := { s.lines with
        hallTx := .sending .forward x 1, hallLast := .forward } }) ∧
    (∀ (j : Job) (a : ActIx) (tag : Tag) (v : Int) (counts : PerJob Nat), ∃ o : Outstanding,
      (s.dispatched j a tag v counts).disp.outstanding = s.disp.outstanding ++ [o] ∧ o.phase = .sending ∧ o.tag = tag)

/-- The trunk transmitter, when free, takes the oldest trunk reply, then the head of the notice queue while the trunk is
active, then the head of the H→T queue, then a pending ANNOUNCE; the head of the H→T queue comes first at a forward-wait
count of 4. A notice's telegram goes to the supervisor address with the notice's code, zone, time stamp and detail (R150, R156, R158,
R159, R173). The model's own choices in it: logs 19 and 20. -/
def Obligations.TrunkTransmitterChoosesInOrder : Prop :=
  ∀ s : State, s.lines.trunkTx = .free →
    let begins := fun (source : TxSource) (x : Telegram) =>
      exec .trunkTxChoose s = .next { s with lines := { s.lines with trunkTx := .sending source x 1 } }
    let noReply := ∀ r ∈ s.mgmt.replies, r.channel ≠ .trunk
    let noNotice := s.lines.trunkActive = false ∨ s.mgmt.notices = []
    (∀ x rest, s.lines.ht.items = x :: rest → s.lines.forwardWait = 4 → begins .forward x) ∧
    (∀ older r younger, s.mgmt.replies = older ++ r :: younger → (∀ x ∈ older, x.channel ≠ .trunk) → r.channel = .trunk →
      (s.lines.ht.items = [] ∨ s.lines.forwardWait ≠ 4) → begins .reply r.telegram) ∧
    (∀ n rest, noReply → s.lines.trunkActive = true → s.mgmt.notices = n :: rest →
      (s.lines.ht.items = [] ∨ s.lines.forwardWait ≠ 4) →
      begins .notice
        { dest := BitVec.ofNat 8 s.cfg.part.supervisor, src := BitVec.ofNat 8 s.cfg.part.own, kind := 6, tag := 0
          payload := [n.kind.wire, n.zone, n.time.extractLsb' 24 8, n.time.extractLsb' 16 8, n.time.extractLsb' 8 8,
            n.time.extractLsb' 0 8] ++ n.detail }) ∧
    (∀ x rest, noReply → noNotice → s.lines.ht.items = x :: rest → begins .forward x) ∧
    (noReply → noNotice → s.lines.ht.items = [] → s.lines.trunkActive = true → s.lines.announcePending = true →
      begins .announce { dest := 255, src := s.own, kind := 7, tag := 0, payload := s.announcePayload }) ∧
    (noReply → noNotice → s.lines.ht.items = [] → (s.lines.trunkActive = false ∨ s.lines.announcePending = false) →
      exec .trunkTxChoose s = .next s)

/-- While a forwarded telegram, a reply, a notice or an ANNOUNCE is being sent: an attempt whose bytes are all read back as
sent ends the telegram and takes it from its queue; a byte that differs, or lacks its stop bit, disturbs the attempt; after the
first and the second disturbed attempt the telegram waits for its next one; a third drops the telegram and takes it from its
queue, counted for a forward and with TX_LOST for a reply, a notice and an ANNOUNCE; the trunk's forward-wait count follows
(R155, R156, R158, R164). The model's own choices in it: logs 19, 20 and 29. -/
def Obligations.AttemptsEnd : Prop :=
  (∀ (c : Channel) (older younger : List Reply) (r : Reply), (∀ x ∈ older, x.channel ≠ c) → r.channel = c →
    removeReply c (older ++ r :: younger) = older ++ younger) ∧
  ∀ (s : State) (t : Telegram) (n : Nat) (heard : List RxByte),
    let clean := t.bytes.map fun b => ({ value := b, stop := true } : RxByte)
    let disturbed := ∃ (k : Nat) (b : RxByte), k < t.bytes.length ∧ heard = clean.take k ++ [b] ∧
      (b.value ≠ t.bytes.getD k 0 ∨ b.stop = false)
    let waitAfter := fun (forwarded : Bool) (queue : List Telegram) =>
      if forwarded = true ∨ queue = [] then 0 else min 4 (s.lines.forwardWait + 1)
    let trunkFree : Lines := { s.lines with trunkTx := .free, forwardWait := waitAfter false s.lines.ht.items }
    let lost : PartFlags := { s.mgmt.flags with txLost := true }
    let trunkReplies := removeReply .trunk s.mgmt.replies
    (s.lines.hallTx = .sending .forward t n → heard = clean →
      exec (.txAttemptEnd .hall heard) s = .next { s with lines := { s.lines with
        hallTx := .free, th := { s.lines.th with items := s.lines.th.items.drop 1 } } }) ∧
    (∀ source, s.lines.hallTx = .sending source t n → disturbed → n < 3 →
      exec (.txAttemptEnd .hall heard) s = .next { s with lines := { s.lines with hallTx := .waiting source t n } }) ∧
    (s.lines.hallTx = .sending .forward t n → disturbed → 3 ≤ n →
      exec (.txAttemptEnd .hall heard) s = .next { s with lines := { s.lines with
        hallTx := .free, th := { items := s.lines.th.items.drop 1, discards := min 65535 (s.lines.th.discards + 1) } } }) ∧
    (∀ source, s.lines.trunkTx = .sending source t n → disturbed → n < 3 →
      exec (.txAttemptEnd .trunk heard) s = .next { s with lines := { s.lines with trunkTx := .waiting source t n } }) ∧
    (s.lines.trunkTx = .sending .forward t n → heard = clean →
      exec (.txAttemptEnd .trunk heard) s = .next { s with lines := { s.lines with
        trunkTx := .free, ht := { s.lines.ht with items := s.lines.ht.items.drop 1 }, forwardWait := 0 } }) ∧
    (s.lines.trunkTx = .sending .forward t n → disturbed → 3 ≤ n →
      exec (.txAttemptEnd .trunk heard) s = .next { s with lines := { s.lines with
        trunkTx := .free, forwardWait := 0
        ht := { items := s.lines.ht.items.drop 1, discards := min 65535 (s.lines.ht.discards + 1) } } }) ∧
    (s.lines.trunkTx = .sending .reply t n → heard = clean →
      exec (.txAttemptEnd .trunk heard) s = .next { s with
        mgmt := { s.mgmt with replies := trunkReplies }, lines := trunkFree }) ∧
    (s.lines.trunkTx = .sending .reply t n → disturbed → 3 ≤ n →
      exec (.txAttemptEnd .trunk heard) s = .next { s with
        mgmt := { s.mgmt with replies := trunkReplies, flags := lost }, lines := trunkFree }) ∧
    (s.lines.trunkTx = .sending .notice t n → heard = clean →
      exec (.txAttemptEnd .trunk heard) s = .next { s with
        mgmt := { s.mgmt with notices := s.mgmt.notices.drop 1 }, lines := trunkFree }) ∧
    (s.lines.trunkTx = .sending .notice t n → disturbed → 3 ≤ n →
      exec (.txAttemptEnd .trunk heard) s = .next { s with
        mgmt := { s.mgmt with notices := s.mgmt.notices.drop 1, flags := lost }, lines := trunkFree }) ∧
    (s.lines.trunkTx = .sending .announce t n → heard = clean →
      exec (.txAttemptEnd .trunk heard) s = .next { s with lines := { s.lines with
        trunkTx := .free, announcePending := false, forwardWait := waitAfter false s.lines.ht.items } }) ∧
    (s.lines.trunkTx = .sending .announce t n → disturbed → 3 ≤ n →
      exec (.txAttemptEnd .trunk heard) s = .next { s with
        mgmt := { s.mgmt with flags := lost }, lines := { s.lines with
        trunkTx := .free, announcePending := false, forwardWait := waitAfter false s.lines.ht.items } })

/-- A disturbed telegram's next attempt begins after 4 + (own address modulo 8) byte times of quiet and not before; a
service-port reply leaves the reply queue when its last byte has been sent; an expired idle timer releases local mode with
a LOCAL_RELEASED notice of detail 1 (R156, R164, R172). The model's own choices in it: log 19. -/
def Obligations.RetriesRepliesAndLocalMode : Prop :=
  ∀ s : State,
    (∀ (source : TxSource) (t : Telegram) (n q : Nat), s.lines.hallTx = .waiting source t n →
      exec (.txRetryAttempt .hall q) s = .next (if 4 + s.cfg.part.own % 8 ≤ q then
        { s with lines := { s.lines with hallTx := .sending source t (n + 1) } } else s)) ∧
    (∀ (source : TxSource) (t : Telegram) (n q : Nat), s.lines.trunkTx = .waiting source t n →
      exec (.txRetryAttempt .trunk q) s = .next (if 4 + s.cfg.part.own % 8 ≤ q then
        { s with lines := { s.lines with trunkTx := .sending source t (n + 1) } } else s)) ∧
    (∀ (older younger : List Reply) (r : Reply), s.mgmt.replies = older ++ r :: younger →
      (∀ x ∈ older, x.channel ≠ .service) → r.channel = .service →
      exec .serviceReplySent s = .next { s with mgmt := { s.mgmt with replies := older ++ younger } }) ∧
    (s.mgmt.idleTimer = .running 0 → s.mgmt.notices.length < 8 →
      exec .localIdleExpiry s = .next { s with mgmt := { s.mgmt with
        localMode := false, idleTimer := .stopped
        notices := s.mgmt.notices ++ [{ kind := .localReleased, zone := 255, time := s.now, detail := [1] }] } }) ∧
    (s.mgmt.idleTimer = .running 0 → 8 ≤ s.mgmt.notices.length →
      exec .localIdleExpiry s = .next { s with mgmt := { s.mgmt with
        localMode := false, idleTimer := .stopped, flags := { s.mgmt.flags with noticeLost := true } } })

/-! ### Requests: the choice and the common checks -/

/-- A request may be taken while its channel is not occupied by a commit, the reply queue has room and no accepted RESTART
waits; where both channels have one, it is taken from the channel other than the last served (R163, R190). A request that
the common checks refuse is answered with their status, first row first, and changes nothing else, but that a WRITE_ENTRY
empties its channel's staging record; a READ_FLAGS refused RESERVED carries the flags of its selector, and clears none. The request
kinds with their codes, the parameters that each kind and action requires, and the changing requests are spelled here; a request
that no row refuses passes, one of the service port in held local mode among them (R150, R165, R167, R171, R174, R179, R182 to
R184). The model's own choices in it: logs 9, 10, 14 and 15. -/
def Obligations.RequestsAreTakenInTurnAndChecked : Prop :=
  ∀ s : State,
    let free := fun (c : Channel) => (∀ k, s.mgmt.commit = some k → k.channel ≠ c) ∧ s.mgmt.restartPending = false ∧
      s.mgmt.replies.length + (if s.mgmt.commit = none then 0 else 1) < 4
    (∀ c t, s.mgmt.next = some (c, t) ↔ free c ∧ (s.mgmt.requests c).head? = some t ∧
      (c = s.mgmt.lastServed → free c.other → s.mgmt.requests c.other = [])) ∧
    (∀ (c : Channel) (t : Telegram) (kind : Byte) (params : List Byte) (status : Status), s.mgmt.next = some (c, t) →
      t.payload = kind :: params → s.commonCheck (.of c t) = some status → kind ≠ 3 → kind ≠ 7 →
      exec (Request.of c t).row s = .next ((s.taken c).replied c t kind status [])) ∧
    (∀ (c : Channel) (t : Telegram) (params : List Byte) (status : Status), s.mgmt.next = some (c, t) →
      t.payload = 3 :: params → s.commonCheck (.of c t) = some status →
      exec (Request.of c t).row s = .next ((s.written c).replied c t 3 status [])) ∧
    (∀ (c : Channel) (t : Telegram) (params : List Byte) (status : Status), s.mgmt.next = some (c, t) →
      t.payload = 7 :: params → s.commonCheck (.of c t) = some status →
      (status ≠ .reserved → exec .readFlags s = .next ((s.taken c).replied c t 7 status [])) ∧
      (∀ selector mask : Byte, status = .reserved → params = [selector, mask] →
        (selector = 255 → exec .readFlags s = .next ((s.taken c).replied c t 7 .reserved [s.mgmt.flags.byte])) ∧
        (∀ z : ZoneIx, selector = BitVec.ofNat 8 z → exec .readFlags s = .next ((s.taken c).replied c t 7 .reserved
          [(s.zones[z]).stickyByte, (s.zones[z]).indicatorByte, (s.zones[z]).heldByte])))) ∧
    (∀ (r : Request) (k : ReqKind), r.kind = some k ↔ r.kindByte = k.wire) ∧
    (∀ (c : Channel) (t : Telegram), let r := Request.of c t
      r.channel = c ∧ (∀ (b : Byte) (l : List Byte), t.payload = b :: l → r.kindByte = b ∧ r.params = l)) ∧
    (∀ (k : ReqKind) (l : List Byte), shapeOk k l = true ↔ match k with
      | .identify | .commitImage | .restart | .takeLocal | .releaseLocal => l = []
      | .readEntry => l.length = 4
      | .writeEntry => 6 ≤ l.length ∧ l.length ≤ 31
      | .zoneCommand => l.length = 3
      | .sceneRequest | .actuatorControl | .readFlags => l.length = 2
      | .lineStatus => l.length = 1
      | .accumulator => ∃ (action : Byte) (rest : List Byte), l = action :: rest ∧
        ((action = 0 ∧ rest.length = 2) ∨ (action = 1 ∧ rest.length = 6) ∨ (action = 2 ∧ rest.length = 1))
      | .capture => ∃ (action : Byte) (rest : List Byte), l = action :: rest ∧
        ((action = 0 ∧ rest.length = 1) ∨ (action = 1 ∧ rest = []) ∨ (action = 2 ∧ rest.length = 1))
      | .ring => ∃ (action : Byte) (rest : List Byte), l = action :: rest ∧
        ((action = 0 ∧ rest.length = 2) ∨ (action = 1 ∧ rest = []))
      | .watch => (∃ w seg : Byte, l = [0, w, seg]) ∨ (∃ w : Byte, l = [2, w] ∨ l = [3, w]) ∨
        ∃ (w armed form index on act : Byte) (condition : List Byte), l = [1, w, armed, form, index, on] ++ condition ++ [act] ∧
          form.toNat ≤ 1 ∧ (condition = [0] ∨ ∃ side hi lo : Byte, condition = [1, side, hi, lo] ∧ side.toNat ≤ 1)) ∧
    (∀ (r : Request) (k : ReqKind), r.kind = some k → shapeOk k r.params = true → (r.changing = true ↔ match k with
      | .writeEntry | .zoneCommand | .sceneRequest | .actuatorControl | .commitImage | .restart | .releaseLocal => True
      | .identify | .readEntry | .lineStatus | .takeLocal => False
      | .readFlags => ∃ selector mask : Byte, r.params = [selector, mask] ∧
        ((selector = 255 ∧ ∃ i : Nat, i < 6 ∧ mask.getLsbD i = true) ∨
          (selector.toNat < 4 ∧ ∃ i : Nat, i < 3 ∧ mask.getLsbD i = true))
      | .accumulator => ∃ rest : List Byte, r.params = 1 :: rest ∨ r.params = 2 :: rest
      | .capture => ∃ rest : List Byte, r.params = 0 :: rest ∨ r.params = 2 :: rest
      | .ring => r.params = [1]
      | .watch => ∃ rest : List Byte, r.params = 1 :: rest ∨ r.params = 2 :: rest ∨ r.params = 3 :: rest)) ∧
    (∀ (r : Request) (k : ReqKind), r.kind = some k →
      (shapeOk k r.params = false → s.commonCheck r = some .badValue) ∧
      (shapeOk k r.params = true → s.mgmt.localMode = true → r.channel = .trunk → r.changing = true →
        s.commonCheck r = some .reserved) ∧
      (shapeOk k r.params = true → (s.mgmt.localMode = false ∨ r.channel = .service ∨ r.changing = false) →
        (∃ m, s.mgmt.commit = some m ∧ m.channel ≠ r.channel) → (k = .writeEntry ∨ k = .commitImage ∨ k = .restart) →
        s.commonCheck r = some .busy) ∧
      (shapeOk k r.params = true → (s.mgmt.localMode = false ∨ r.channel = .service ∨ r.changing = false) →
        ((∀ m, s.mgmt.commit = some m → m.channel = r.channel) ∨ (k ≠ .writeEntry ∧ k ≠ .commitImage ∧ k ≠ .restart)) →
        s.configured = false → (∀ z : ZoneIx, s.enabled z = false) →
        (k = .sceneRequest ∨ (k = .zoneCommand ∧ r.params.getD 1 0 ≠ 0)) → s.commonCheck r = some .unconfigured) ∧
      (shapeOk k r.params = true → (s.mgmt.localMode = false ∨ r.channel = .service ∨ r.changing = false) →
        ((∀ m, s.mgmt.commit = some m → m.channel = r.channel) ∨ (k ≠ .writeEntry ∧ k ≠ .commitImage ∧ k ≠ .restart)) →
        (s.configured = true ∨ (∃ z : ZoneIx, s.enabled z = true) ∨
          (k ≠ .sceneRequest ∧ (k = .zoneCommand → r.params.getD 1 0 = 0))) → s.commonCheck r = none)) ∧
    (∀ r : Request, (∀ k : ReqKind, r.kindByte ≠ k.wire) → s.commonCheck r = some .unknownRequest)

/-! ### Start-up, restart and commit -/

/-- POWER_ON with a blank image, with one that fails its check, or in the middle of a commit starts the part unconfigured, as
it is after reset; with an image that passes, every configuration field takes its stored value and the enabled zones start, in
DETECT or without working drives in OPEN_IDLE (R188, R189). The model's own choices in it: logs 5, 18 and 23. -/
def Obligations.PowerOnStartsThePart : Prop :=
  ∀ s : State,
    (s.mgmt.commit = none → s.image = .blank → exec .powerOn s = .next { State.reset with pending := s.pending }) ∧
    (s.mgmt.commit ≠ none →
      exec .powerOn s = .next { State.reset with image := .torn, imageState := .failed, pending := s.pending }) ∧
    (s.mgmt.commit = none → (s.image = .torn ∨ ∃ c k, s.image = .stored c k ∧ imageCheck c ≠ k) →
      exec .powerOn s = .next { State.reset with image := s.image, imageState := .failed, pending := s.pending }) ∧
    (∀ c, s.mgmt.commit = none → s.image = .stored c (imageCheck c) →
      ∃ u, exec .powerOn s = .next u ∧ StartsFrom (s.loadedFrom s.image c false) u)

/-- The restart begins when the DONE of an accepted RESTART has left the reply queue; it goes as power-on does, but the trunk
line-active flag keeps its value and the image is reloaded as it stands (R190). At the end of a commit its copy and the
copy's check are the image, its reply DONE takes its reserved place, a COMMIT_DONE notice with the check is raised, and
the commit is no longer in flight (R188). The model's own choices in it: logs 18, 23 and 28. -/
def Obligations.RestartsReloadAndCommitsEnd : Prop :=
  (∀ (s : State) (k : Commit), s.mgmt.commit = some k →
      let reply : Reply :=
        { channel := k.channel, restart := false
          telegram := { dest := k.requester, src := s.own, kind := 5, tag := k.tag, payload := [13, 0] } }
      let notice : Notice := { kind := .commitDone, zone := 255, time := s.now, detail := wordField (imageCheck k.copy) }
      exec .commitComplete s = .next (
        if s.mgmt.notices.length < 8 then
          { s with
            image := .stored k.copy (imageCheck k.copy)
            mgmt := { s.mgmt with commit := none, replies := s.mgmt.replies ++ [reply], notices := s.mgmt.notices ++ [notice] } }
        else
          { s with
            image := .stored k.copy (imageCheck k.copy)
            mgmt := { s.mgmt with
              commit := none, replies := s.mgmt.replies ++ [reply], flags := { s.mgmt.flags with noticeLost := true } } })) ∧
  ∀ s : State, s.mgmt.restartPending = true →
    let lines := { State.reset.lines with trunkActive := s.lines.trunkActive }
    ((∃ r ∈ s.mgmt.replies, r.restart = true) → exec .restartBegin s = .next s) ∧
    ((∀ r ∈ s.mgmt.replies, r.restart = false) →
      (s.image = .blank → exec .restartBegin s = .next { State.reset with lines := lines, pending := s.pending }) ∧
      ((s.image = .torn ∨ ∃ c k, s.image = .stored c k ∧ imageCheck c ≠ k) → exec .restartBegin s =
        .next { State.reset with lines := lines, image := s.image, imageState := .failed, pending := s.pending }) ∧
      (∀ c, s.image = .stored c (imageCheck c) →
        ∃ u, exec .restartBegin s = .next u ∧ StartsFrom (s.loadedFrom s.image c s.lines.trunkActive) u))

/-! ### Points -/

/-- A READING heard on a line is inspected item by item, in payload order, before it is forwarded; a payload of another length
than 4, 8, 12 or 16 has no items (R8, R9, R153). -/
def Obligations.ReadingsAreTakenItemByItem : Prop :=
  (∀ (s : State) (line : Line) (heard : List RxByte) (t : Telegram), heard ≠ [] → judgeUnit true heard = some t →
    t.kind = 1 →
    let items := if t.payload.length ∈ [4, 8, 12, 16] then readingItems t.payload else []
    let u := items.foldl (State.takeItem line t.src.toNat) (s.setLineActive line)
    exec (.receivedUnit line heard) s = .next (
      if t.dest = s.own then u
      else match line with
        | .hall => u.offerFilter .ht t
        | .trunk => u.offerFilter .th t)) ∧
  (∀ (ch q hi lo : Byte) (rest : List Byte), readingItems (ch :: q :: hi :: lo :: rest) =
    { channel := ch, quality := q, value := (hi ++ lo).toInt } :: readingItems rest) ∧ readingItems [] = []

/-- An item that matches no entry changes nothing. A matched item of quality GOOD within the plausible limits is stored, makes
the point FRESH, restarts its stale timer and passes a contact's filter; one outside the limits or of quality FAULT makes
it FAULT, and nothing is stored. A change of what is known of a contact is then told to the cover sequencer, and an accepted
reading is offered to the watches; nothing else follows (R9 to R15, R185). -/
def Obligations.ItemsAreAcceptedOrFaulty : Prop :=
  ∀ (s : State) (line : Line) (node : Nat) (item : ReadingItem),
    let keyed := fun (p : PointIx) => (s.cfg.points[p]).inUse = true ∧ (s.cfg.points[p]).line = some line ∧
      (s.cfg.points[p]).node = node ∧ (s.cfg.points[p]).channel = item.channel.toNat
    ((∀ p, ¬ keyed p) → State.takeItem line node s item = s) ∧
    (∀ p, keyed p → (∀ q, q < p → ¬ keyed q) →
      let c := s.cfg.points[p]
      let r := s.points[p]
      let contact := c.kind = .coverClosed ∨ c.kind = .coverOpen
      let fresh : PointRt := { r with
        value := some item.value, state := .fresh, lastArrival := some s.now, staleTimer := .running (c.staleTimeout * 1000) }
      let faulty : PointRt := { r with state := .fault, staleTimer := .stopped, candidate := none, run := 0 }
      (item.quality = 0 → c.min ≤ item.value → item.value ≤ c.max →
        let r' := if contact then fresh.filter (c.persistence.getD 1) (decide (item.value = 1)) else fresh
        AnyZoneWork (s.updPoint p fun _ => r') (State.takeItem line node s item) ∧
        State.takeItem line node s item =
          (State.told (s.updPoint p fun _ => r') p c (toldOf r.contactKnown r'.contactKnown)).offerWatches
            { on := .arrival, target := .point p, value := item.value } ∧
        (¬ contact → (∀ w : WatchIx, (s.cfg.watches[w]).armed = false) →
          State.takeItem line node s item = s.updPoint p fun _ => fresh)) ∧
      ((item.quality ≠ 0 ∨ item.value < c.min ∨ c.max < item.value) →
        ZoneWork (fun z => c.zone = .zone z) (s.updPoint p fun _ => faulty) (State.takeItem line node s item) ∧
        State.takeItem line node s item = State.told (s.updPoint p fun _ => faulty) p c (toldOf r.contactKnown none) ∧
        (¬ contact → State.takeItem line node s item = s.updPoint p fun _ => faulty)))

/-- The persistence filter takes each accepted value of a contact entry after it has been stored: an absent contact state
becomes the value, an equal one empties the candidate, and a differing one counts a run that makes the value the contact
state when it reaches the persistence count. The run stays below that count, so it never exceeds 15; a FAULT reading and a
stale expiry empty the candidate (R14). -/
def Obligations.ContactFilterCountsARun : Prop :=
  (∀ (r : PointRt) (c : PointCfg) (now : Stamp) (v : Int), c.kind = .coverClosed ∨ c.kind = .coverOpen → v = 0 ∨ v = 1 →
    r.accept c now v = PointRt.filter { r with
      value := some v, state := .fresh, lastArrival := some now, staleTimer := .running (c.staleTimeout * 1000) }
      (c.persistence.getD 1) (decide (v = 1))) ∧
  (∀ (r : PointRt) (persistence : Nat) (v : Bool),
    (r.contact = none → r.filter persistence v = { r with contact := some v, candidate := none, run := 0 }) ∧
    (r.contact = some v → r.filter persistence v = { r with candidate := none, run := 0 }) ∧
    (r.contact = some (!v) → r.candidate = some v → r.filter persistence v =
      if persistence ≤ r.run + 1 then { r with contact := some v, candidate := none, run := 0 }
      else { r with run := r.run + 1 }) ∧
    (r.contact = some (!v) → r.candidate ≠ some v → r.filter persistence v =
      if persistence ≤ 1 then { r with contact := some v, candidate := none, run := 0 }
      else { r with candidate := some v, run := 1 }) ∧
    (1 ≤ persistence → persistence ≤ 15 → r.run < persistence →
      (r.filter persistence v).run < persistence ∧ (r.filter persistence v).run ≤ 15)) ∧
  (∀ r : PointRt, (r.fail.candidate = none ∧ r.fail.run = 0 ∧ r.fail.contact = r.contact) ∧
    (r.expire.candidate = none ∧ r.expire.run = 0 ∧ r.expire.contact = r.contact))

/-- At expiry of its stale timer a point becomes STALE with its value kept; that a known contact is unknown now is told to the
cover sequencer, and a POINT_STALE notice is raised if the entry asks for it (R15, R18). The model's own choices in it: log
7. -/
def Obligations.StalePointsAreReported : Prop :=
  ∀ (s : State) (p : PointIx), (s.points[p]).staleTimer = .running 0 →
    let c := s.cfg.points[p]
    let base := s.updPoint p fun r => { r with state := .stale, staleTimer := .stopped, candidate := none, run := 0 }
    let zone : Byte := match c.zone with
      | .zone z => BitVec.ofNat 8 z
      | .all => 255
      | .unlisted n => BitVec.ofNat 8 (4 + n.val)
    let detail := BitVec.ofNat 8 p :: match (s.points[p]).value with | some v => numField v | none => []
    let reported := fun (u : State) => if c.notifyStale then u.raise .pointStale zone detail else u
    (∃ u, exec (.staleExpiry p) s = .next (reported u) ∧ ZoneWork (fun z => c.zone = .zone z) base u) ∧
    exec (.staleExpiry p) s = .next (reported (State.told base p c (toldOf (s.points[p]).contactKnown none))) ∧
    ((c.kind ≠ .coverClosed ∧ c.kind ≠ .coverOpen) ∨ (s.points[p]).state ≠ .fresh ∨ (s.points[p]).contact = none →
      exec (.staleExpiry p) s = .next (reported base))

/-- A notice joins the tail of the notice queue with its kind, zone, time and detail; with 8 waiting it is dropped and
NOTICE_LOST is set (R173). -/
def Obligations.NoticesWaitInTheirQueue : Prop :=
  ∀ (s : State) (kind : NoticeKind) (zone : Byte) (detail : List Byte),
    (s.mgmt.notices.length < 8 → s.raise kind zone detail = { s with mgmt := { s.mgmt with
      notices := s.mgmt.notices ++ [{ kind := kind, zone := zone, time := s.now, detail := detail }] } }) ∧
    (8 ≤ s.mgmt.notices.length →
      s.raise kind zone detail = { s with mgmt := { s.mgmt with flags := { s.mgmt.flags with noticeLost := true } } })

/-! ### Zone evaluation and heating -/

/-- An evaluation forms its results stage by stage and restarts its timer; where it enters CRIT it raises CONDENSATION; it
requests the zone's heating valves, the arbiter decides, and H, D and, below Mthr, the seconds of the expired period are offered
to the accumulators; an armed capture is then taken with its reason and the arming clears; nothing else happens (R30, R31, R34
to R41, R49 to R57, R67, R176 to R178, R180). -/
def Obligations.EvaluationFormsItsResults : Prop :=
  ∀ (s : State) (z : ZoneIx), (s.zones[z]).eval.timer = .running 0 →
    ∃ (u v : State) (e : EvalRt) (h : HeatRt), exec (.evaluation z) s = .next u ∧ EvaluationForms s z e h ∧
      OneZoneWork z (s.withEvaluation z e h) u ∧ (u.zones[z]).arming = none ∧ (u.zones[z]).arb.lastDecision = some s.now ∧
      (∀ a : ActIx, (s.cfg.acts[a]).inUse = true → (s.cfg.acts[a]).kind = .heatValve → (s.cfg.acts[a]).zone = z →
        (u.acts[a]).requested = some ((s.cfg.acts[a]).limited
          ((s.cfg.acts[a]).min + (((s.cfg.acts[a]).max - (s.cfg.acts[a]).min) * h.h).tdiv 1000))) ∧
      let carried := fun (x : Option Int) => match x with
        | some n => numField n
        | none => []
      let noticed := if e.crit = true ∧ (s.zones[z]).eval.crit = false then
          (s.withEvaluation z e h).raise .condensation (BitVec.ofNat 8 z)
            (carried e.td ++ carried e.tg.last ++ carried e.margin ++ numField (s.cfg.zones[z]).eval.mcrit)
        else s.withEvaluation z e h
      let summed := ((v.takeDecision z false).offer z 0 h.h.toNat).offer z 1 e.d.toNat
      let closed := match e.margin with
        | some m => if m < (s.cfg.zones[z]).eval.mthr then summed.offer z 2 (s.zones[z]).eval.startedPeriod else summed
        | none => summed
      v = { noticed with acts := v.acts, disp := { noticed.disp with queues := v.disp.queues } } ∧ OneZoneWork z noticed v ∧
      (∀ a : ActIx, (s.cfg.acts[a]).kind ≠ .heatValve → v.acts[a] = s.acts[a]) ∧
      u = match (closed.zones[z]).arming with
        | none => closed
        | some a => (closed.capture z (.accOverflow a)).updZone z fun r => { r with arming := none }

/-- Stage 3: the vapour pressure is the product to the nearest pascal, halves upward; it lies in 0..psat, is psat at 1000 and
0 at 0, and is stored in the zone record. A mean of readings in 0..1000 lies in 0..1000 (R36). -/
def Obligations.VapourPressureIsRounded : Prop :=
  (∀ psat rh : Int, 0 ≤ psat → psat ≤ 65535 → 0 ≤ rh → rh ≤ 1000 →
    vapourPressure psat rh = (psat * rh + 500).tdiv 1000 ∧
    psat * rh - 500 < 1000 * vapourPressure psat rh ∧ 1000 * vapourPressure psat rh ≤ psat * rh + 500 ∧
    psat * rh ≤ 65535 * 1000 ∧ 0 ≤ vapourPressure psat rh ∧ vapourPressure psat rh ≤ psat ∧
    vapourPressure psat 1000 = psat ∧ vapourPressure psat 0 = 0) ∧
  (∀ (sat : Vector Nat 17) (ta rh : Int) (e : EvalRt), ∃ psat, (stages2to4 sat ta rh e).psat = some psat ∧
    (stages2to4 sat ta rh e).pv = some (vapourPressure psat rh)) ∧
  (∀ (readings : List Int) (m : Int), (∀ x ∈ readings, 0 ≤ x ∧ x ≤ 1000) → mean readings = some m → 0 ≤ m ∧ m ≤ 1000)

/-- Stages 2 and 4 under a strictly increasing table: the saturation pressure lies between the entries of its segment; the dew
point is interpolated between the temperatures whose entries enclose the vapour pressure, and is an end of the table where none do;
it lies in −200..600 and never exceeds the clamped air temperature; with saturated air it equals a temperature of the table, and,
where the table's segments span 50 Pa or more, lies at most one tenth below any other and equals one whose saturation pressure is an
entry (R35, R37, R38). -/
def Obligations.DewPointStaysBelowTheAir : Prop :=
  ∀ (sat : Vector Nat 17) (tc rh : Int), (∀ i : Nat, (h : i < 16) → sat[i] < sat[i + 1]) → -200 ≤ tc → tc ≤ 600 →
    0 ≤ rh → rh ≤ 1000 →
    let psat := saturationPressure sat tc
    let td := dewPoint sat (vapourPressure psat rh)
    (∃ (i : Nat) (f : Int), i < 16 ∧ 0 ≤ f ∧ f ≤ 50 ∧ tc = -200 + 50 * (i : Int) + f ∧ satAt sat i ≤ psat ∧
      psat ≤ satAt sat (i + 1) ∧ psat = satAt sat i + ((satAt sat (i + 1) - satAt sat i) * f).tdiv 50) ∧
    -200 ≤ td ∧ td ≤ 600 ∧ td ≤ tc ∧
    (vapourPressure psat rh < satAt sat 0 → td = -200) ∧
    (satAt sat 16 ≤ vapourPressure psat rh → td = 600 ∧ tc = 600 ∧ vapourPressure psat rh = psat) ∧
    (∀ (pv : Int) (j : Nat), j < 16 → satAt sat j ≤ pv → pv < satAt sat 16 → (∀ k : Nat, j < k → k < 16 → pv < satAt sat k) →
      dewPoint sat pv = -200 + 50 * (j : Int) + ((pv - satAt sat j) * 50).tdiv (satAt sat (j + 1) - satAt sat j)) ∧
    (∀ pv : Int, (pv < satAt sat 0 → dewPoint sat pv = -200) ∧ (satAt sat 16 ≤ pv → dewPoint sat pv = 600)) ∧
    (rh = 1000 → (∃ i : Nat, i < 17 ∧ tc = -200 + 50 * (i : Int)) → td = tc) ∧
    (rh = 1000 → (∀ i : Nat, (h : i < 16) → sat[i] + 50 ≤ sat[i + 1]) → tc - 1 ≤ td ∧
      ((∃ i : Nat, i < 17 ∧ psat = satAt sat i) → td = tc))

/-- Stage 8 withdraws the candidate that would push the demand further beyond its range and keeps it otherwise; an error or a
Ki of 0 leaves the integrator and its share I/64 of the demand as they are (R54). -/
def Obligations.ConditionalIntegration : Prop :=
  ∀ (i formed pterm e : Int),
    let u := pterm + formed.tdiv 64
    ((1000 < u ∧ 0 < e) → candidateKept i formed pterm e = i) ∧
    ((u < 0 ∧ e < 0) → candidateKept i formed pterm e = i) ∧
    (¬ (1000 < u ∧ 0 < e) → ¬ (u < 0 ∧ e < 0) → candidateKept i formed pterm e = formed) ∧
    (∀ ki : Int, e = 0 ∨ ki = 0 → candidateKept i (i + ki * e) pterm e = i ∧
      pterm + (i + ki * e).tdiv 64 = pterm + i.tdiv 64)

/-! ### The air handler -/

/-- A decision takes the first row that holds and stores the choice; a different mode takes effect if it passes the tests of
dwell and hold, with its cause, its grant time and a new dwell, and is pending otherwise; in an enabled zone the granted
mode's outputs are then requested. A change to PURGE starts a requested run, or resumes a suspended one with its remainder and run
start, and requests the purge fans' level; a change away from PURGE withdraws a run, which is suspended with its remainder or, with
none left, waits anew, the fans requested 0 and its seconds accounted; no other decision touches the purge timer or its fans (R67
to R74, R76, R77, R98, R100, R101). The model's own choices in it: log 4. -/
def Obligations.DecisionsGrantTheFirstRow : Prop :=
  ∀ (s : State) (z : ZoneIx) (release : Bool) (row : ChoiceRow) (mode : Mode), Chooses s z row mode →
    let u := s.takeDecision z release
    let before := (s.zones[z]).arb
    let after := (u.zones[z]).arb
    let purge := (s.zones[z]).purge
    let effective := mode ≠ before.granted ∧ PassesDwell s z row release ∧ PassesHold s z row release
    let granted := effective ∧ mode = .purge ∧ (purge.state = .request ∨ purge.state = .suspended)
    let withdrawn := effective ∧ before.granted = .purge ∧ purge.state = .run
    (granted → PurgeGranted s u z) ∧ (withdrawn → PurgeWithdrawn s u z) ∧
    (¬ granted → ¬ withdrawn → (u.zones[z]).purge = purge ∧ FansStand s u) ∧
    OneZoneWork z s u ∧ after.chosen = some mode ∧ (after.ventAvailable = true ↔ VentAvailable s z) ∧
    after.lastDecision = some s.now ∧
    (mode = before.granted → after = { before with
      pending := none, chosen := after.chosen, ventAvailable := after.ventAvailable, lastDecision := after.lastDecision }) ∧
    (mode ≠ before.granted → ¬ PassesDwell s z row release → after.granted = before.granted ∧ after.dwell = before.dwell ∧
      after.pending = some .dwell) ∧
    (mode ≠ before.granted → PassesDwell s z row release → ¬ PassesHold s z row release →
      after.granted = before.granted ∧ after.dwell = before.dwell ∧ after.pending = some .hold) ∧
    (mode ≠ before.granted → PassesDwell s z row release → PassesHold s z row release →
      after.granted = mode ∧ after.grantTime = some s.now ∧ after.dwell = .running ((s.cfg.zones[z]).arb.dwell * 1000) ∧
      after.pending = none ∧ after.lastCause = some (causeOf s z row release) ∧
      (s.acct.frozen = false →
        ({ time := s.now, zone := z, entry := .ahu before.granted mode (causeOf s z row release) } : RingRecord) ∈ u.acct.ring)) ∧
    (s.enabled z = true → ∀ (a : ActIx) (v : Int), (s.cfg.acts[a]).inUse = true → (s.cfg.acts[a]).zone = z →
      airOutput s z after.granted (s.cfg.acts[a]).kind = some v → (u.acts[a]).requested = some ((s.cfg.acts[a]).limited v))

/-- A dwell timer that expires is satisfied, and nothing else changes (R70). An expired detect, prep or motion timer takes the
cover sequencer into FAULT with its reason, with the drives in motion stopped and a COVER_FAULT notice (R86, R87, R89, R92, R94).
So do a working drive's contact that becomes unknown in motion, one that leaves its end at rest or in a prep state, a drive that
fails in motion or while settling, and a cover-work scene that completes degraded; any other report of these changes nothing, and
a cover-work scene that completes leads into motion or, in a held zone, is remembered. A FAULT from COVERED ends a purge (R15, R75,
R84, R89 to R93, R95, R101, R102). The model's own choices in it: logs 4, 11, 12, 18 and 31. -/
def Obligations.CoverTimeoutsEndInFault : Prop :=
  ∀ (s : State) (z : ZoneIx),
    let cover := (s.zones[z]).cover
    let faults := fun (cmd : Instr) (reason : FaultReason) => ∃ u, exec cmd s = .next u ∧ CoversFail s u z reason 255
    let moving := cover.state = .deploying ∨ cover.state = .retracting
    let atClosed := cover.state = .settle ∨ cover.state = .covered ∨ cover.state = .prepOpen
    let atOpen := cover.state = .openIdle ∨ cover.state = .prepClose
    let prep := cover.state = .prepClose ∨ cover.state = .prepOpen
    ((s.zones[z]).arb.dwell = .running 0 →
      exec (.dwellExpiry z) s = .next (s.updZone z fun r => { r with arb := { r.arb with dwell := .stopped } })) ∧
    (cover.detectTimer = .running 0 → faults (.detectTimeout z) .unknownPosition) ∧
    (cover.prepTimer = .running 0 → faults (.prepTimeout z) .lighting) ∧
    (cover.motionTimer = .running 0 → faults (.motionTimeout z) .timeout) ∧
    (∀ (p : PointIx) (c : PointCfg) (report : ContactReport),
      let u := s.coverContact p c report
      let left := report = .known false ∨ report = .changed false
      ((∀ w : ZoneIx, ¬ ReportsDrive s w c) → u = s) ∧
      (ReportsDrive s z c →
        (cover.state = .disabled ∨ cover.state = .fault → u = s) ∧
        (moving → report = .unknown → CoversFail s u z .contactLost p.val) ∧
        (atClosed → c.kind = .coverClosed → left → CoversFail s u z .coverMoved p.val) ∧
        (atClosed → ¬ (c.kind = .coverClosed ∧ left) → u = s) ∧
        (atOpen → c.kind = .coverOpen → left → CoversFail s u z .coverMoved p.val) ∧
        (atOpen → ¬ (c.kind = .coverOpen ∧ left) → u = s))) ∧
    (∀ (a : ActIx) (outcome : CommandOutcome),
      let failed := (moving ∨ cover.state = .settle) ∧ a ∈ cover.drives ∧
        ((s.acts[a]).health ≠ .ok ∨ outcome = .refusedRange)
      (failed → CoversFail s (s.coverDrive z a outcome) z .drive a.val) ∧
      (¬ failed → s.coverDrive z a outcome = s)) ∧
    (∀ outcome : SceneState,
      let u := s.coverScene z outcome
      let reported := prep ∧ (s.zones[z]).scene.origin = some .coverWork
      (reported → outcome = .completeDegraded → CoversFail s u z .lighting 255) ∧
      (reported → outcome = .complete → (s.zones[z]).held = true →
        u = s.updZone z fun r => { r with cover := { r.cover with lightingReady := true } }) ∧
      (reported → outcome = .complete → (s.zones[z]).held = false → DrivesReady s z → OneZoneWork z s u ∧
        (cover.state = .prepClose → CoversMove s u z .deploying 1 cover.workSceneTaken) ∧
        (cover.state = .prepOpen → CoversMove s u z .retracting 2 cover.workSceneTaken)) ∧
      (reported → outcome = .complete → (s.zones[z]).held = false → ¬ DrivesReady s z → MotionRefused s u z) ∧
      (¬ reported ∨ (outcome ≠ .complete ∧ outcome ≠ .completeDegraded) → u = s))

/-! ### Covers and purge -/

/-- An expired settle timer brings the covers to COVERED, with the night scene taken and counted, and the purge timer to PURGE_WAIT
with its full wait (R91, R99, R112). A report
of a working drive's contact in motion, once every drive stands at its end, stops the drives and leads to SETTLE or, without a
settle time, to COVERED, or to OPEN_IDLE; in DETECT it leads to the rest state that the drives show; it changes nothing before
that (R15, R84, R86, R87, R91). -/
def Obligations.SettledCoversStartThePurgeWait : Prop :=
  ∀ (s : State) (z : ZoneIx),
    let cover := (s.zones[z]).cover
    let settle := (s.cfg.zones[z]).cover.settle
    (cover.settleTimer = .running 0 → ∃ u, exec (.settleExpiry z) s = .next u ∧ CoversClosed s u z .settled) ∧
    (∀ (p : PointIx) (c : PointCfg) (report : ContactReport), ReportsDrive s z c →
      let u := s.coverContact p c report
      (cover.state = .deploying → report ≠ .unknown →
        (AllClosed s z cover.drives → settle = 0 → CoversClosed s u z .endReached ∧ DrivesRequested s u z 0) ∧
        (AllClosed s z cover.drives → settle ≠ 0 → OneZoneWork z s u ∧ DrivesRequested s u z 0 ∧
          (u.zones[z]).cover =
            { state := .settle, reason := none, drives := cover.drives, detectTimer := .stopped, prepTimer := .stopped
              motionTimer := .stopped, lightingReady := false, workSceneTaken := false
              settleTimer := if (s.zones[z]).held then .paused (settle * 1000) else .running (settle * 1000) } ∧
          (u.zones[z]).scene = { (s.zones[z]).scene with coverWork := false } ∧
          (s.acct.frozen = false → ({ time := s.now, zone := z, entry := .cover .deploying .settle .endReached } : RingRecord) ∈
            u.acct.ring) ∧ (u.zones[z]).arb.lastDecision = some s.now) ∧
        (¬ AllClosed s z cover.drives → u = s)) ∧
      (cover.state = .retracting → report ≠ .unknown →
        (AllOpen s z cover.drives → CoversOpened s u z .endReached ∧ DrivesRequested s u z 0) ∧
        (¬ AllOpen s z cover.drives → u = s)) ∧
      (cover.state = .detect →
        (AllClosed s z cover.drives → CoversClosed s u z .positionFound) ∧
        (¬ AllClosed s z cover.drives → AllOpen s z cover.drives → CoversOpened s u z .positionFound) ∧
        (¬ AllClosed s z cover.drives → ¬ AllOpen s z cover.drives → u = s)))

/-- The end of the purge wait makes PURGE_REQUEST, which the arbiter grants at once where the covers are COVERED, CRIT is
clear and the dwell satisfied; the end of the run leaves PURGE with cause PURGE_END, stops the fans and accounts the
seconds run (R75, R99 to R101). A change of the covers out of COVERED, other than by disabling, makes the purge timer INACTIVE, from
PURGE_RUN with the fans requested 0 and its seconds accounted and otherwise with nothing requested, and releases a PURGE grant
with cause PURGE_END whatever dwell and hold (R75, R101, R102). The model's own choices in it: logs 4 and 18. -/
def Obligations.PurgeTimerExpiriesAct : Prop :=
  (∀ (s : State) (z : ZoneIx) (next : CoverState) (cause : CoverCause) (index : Nat),
    (s.zones[z]).cover.state = .covered → next ≠ .covered → next ≠ .disabled →
    LeavesCovered s (s.coverChange z next cause index) z) ∧
  ∀ (s : State) (z : ZoneIx), (s.zones[z]).held = false →
    let r := s.zones[z]
    (r.purge.state = .wait → r.purge.remainingWait = 0 → ∃ u, exec (.purgeWaitExpiry z) s = .next u ∧ OneZoneWork z s u ∧
      (u.zones[z]).arb.lastDecision = some s.now ∧
      (s.enabled z = true → r.eval.crit = false → r.cover.state = .covered → r.arb.dwell = .stopped →
        r.arb.granted ≠ .purge → (u.zones[z]).arb.granted = .purge ∧ (u.zones[z]).arb.lastCause = some .purge ∧
        (u.zones[z]).purge = { state := .run, remainingWait := 0, runCounted := 0, runStart := some s.now
                               remainingRun := (s.cfg.zones[z]).cover.runB * 60 * 1000 } ∧
        FansRequested s u z (s.cfg.zones[z]).cover.fanLevel) ∧
      (s.enabled z = false ∨ r.eval.crit = true ∨ r.cover.state ≠ .covered →
        (u.zones[z]).purge = { r.purge with state := .request })) ∧
    (r.purge.state = .run → r.purge.remainingRun = 0 → s.enabled z = true → r.arb.granted = .purge →
      ∃ u, exec (.purgeRunExpiry z) s = .next u ∧ OneZoneWork z s u ∧ (u.zones[z]).arb.granted ≠ .purge ∧
      (u.zones[z]).arb.lastCause = some .purgeEnd ∧
      (u.zones[z]).purge = { state := .wait, remainingWait := (s.cfg.zones[z]).cover.waitA * 60 * 1000, remainingRun := 0
                             runCounted := 0, runStart := none } ∧
      PurgeRunLeft s u z)

/-! ### Scenes -/

/-- A cue that starts claims its channels in expansion order, but for those owned by a cue of higher index; a fade that another
cue had on a claimed channel ends, and the cue's own begins: from the requested value, or else the confirmed one, in (2F + 4) / 5
steps of which none is taken, the step timer started with 250 ms if it is stopped; with a fade time of 0, or with neither value
present, the level is requested at once (R115 to R117). At expiry of its delay the lowest due cue starts; at expiry of the step
timer every fade of a channel that its cue lists once takes its next step: the level requested, and the fade ended at its last
(R115, R117). When the last cue has started and the last fade has ended, and in SETTLING at a report of a touched channel,
completion is judged: degraded by the lowest degraded channel, complete when every channel is settled, settling otherwise; the
outcome goes to the cover sequencer (R118 to R120). The model's own choices in it: logs 30 and 34. -/
def Obligations.SceneTimersAct : Prop :=
  (∀ (s : State) (z : ZoneIx),
    let scene := (s.zones[z]).scene
    (∀ (c : Cue) (a : ActIx),
      let start := match (s.acts[a]).requested with
        | some v => some v
        | none => (s.acts[a]).confirmed
      (∀ ls, start = some ls → c.fade ≠ 0 → s.beginFade z c a = s.updZone z fun r => { r with scene := { r.scene with
        touched := r.scene.touched.map fun t =>
          if t.act = a then { t with fade := some { ls := ls, lt := c.level, n := (2 * c.fade + 4) / 5, k := 0 } } else t
        stepTimer := if r.scene.stepTimer = .stopped then .running 250 else r.scene.stepTimer } }) ∧
      (start = none ∨ c.fade = 0 → s.beginFade z c a = s.jobRequest .dimmer z a c.level)) ∧
    (∀ (i : Nat) (c : Cue) (a : ActIx),
      (scene.touched.find? (fun t => t.act == a) = none → s.claim z i c a = s) ∧
      (∀ t, scene.touched.find? (fun t => t.act == a) = some t →
        (∀ j, t.owner = some j → i < j → s.claim z i c a = s) ∧
        ((∀ j, t.owner = some j → j ≤ i) → s.claim z i c a = State.beginFade (s.updZone z fun r =>
          { r with scene := { r.scene with touched := r.scene.touched.map fun t =>
            if t.act = a then { t with owner := some i, fade := none } else t } }) z c a))) ∧
    (∀ i : CueIx,
      (∀ run n, scene.cues[i.val]? = some run → scene.scene = some n →
        let begun := s.updZone z fun r => { r with scene := { r.scene with
          cues := r.scene.cues.modify i.val fun c => { c with status := .started } } }
        let claimed := run.channels.foldl (fun u a => u.claim z i.val ((s.cfg.cues[n])[i]) a) begun
        s.startCue z i.val =
          if (claimed.zones[z]).scene.touched.any (fun t => t.fade.isSome) then claimed
          else claimed.updZone z fun r => { r with scene := { r.scene with stepTimer := .stopped } }) ∧
      (scene.cues[i.val]? = none ∨ scene.scene = none → s.startCue z i.val = s)) ∧
    (∃ (state : SceneState) (degraded : Option ActIx), Finding s z state degraded ∧ s.sceneJudge z =
      (s.updZone z fun r => { r with scene := { r.scene with state := state, degraded := degraded } },
        if state = .settling then none else some state)) ∧
    (scene.state = .running → ¬ AtWork scene → s.judgeIfDone z = s.sceneJudge z) ∧
    (scene.state ≠ .running ∨ AtWork scene → s.judgeIfDone z = (s, none)) ∧
    (∀ (a : ActIx) (outcome : CommandOutcome),
      let touches := ∃ t ∈ scene.touched, t.act = a
      let marked := s.updZone z fun r => { r with scene := { r.scene with touched := r.scene.touched.map fun t =>
        if t.act = a ∧ outcome = .refusedRange then { t with rangeRefused := true }
        else if t.act = a ∧ outcome = .applied then { t with rangeRefused := false } else t } }
      (touches → scene.state = .running → s.sceneOutcome z a outcome = (marked, none)) ∧
      (touches → scene.state = .settling → s.sceneOutcome z a outcome = marked.sceneJudge z ∧
        s.sceneControl z a = s.sceneJudge z) ∧
      (¬ touches ∨ scene.state = .idle ∨ scene.state = .complete ∨ scene.state = .completeDegraded →
        s.sceneOutcome z a outcome = (s, none)) ∧
      (¬ touches ∨ scene.state ≠ .settling → s.sceneControl z a = (s, none))) ∧
    State.reportScene z (s, none) = s ∧ ∀ outcome, State.reportScene z (s, some outcome) = s.coverScene z outcome) ∧
  ∀ (s : State) (z : ZoneIx),
    let scene := (s.zones[z]).scene
    (∀ (i : CueIx) (n : SceneIx), (s.zones[z]).held = false → scene.scene = some n → scene.dueCue = some i.val →
      ∃ u, exec (.cueDelayExpiry z i) s = .next u ∧ OneZoneWork z s u ∧
      (∃ v, v = s.startCue z i.val ∧ u = State.reportScene z (v.judgeIfDone z) ∧ OneZoneWork z s v ∧ v.mgmt = s.mgmt ∧
        v.acct = s.acct ∧ v.zones[z] = { s.zones[z] with scene := { scene with
          cues := scene.cues.modify i.val (fun c => { c with status := .started })
          touched := (v.zones[z]).scene.touched, stepTimer := (v.zones[z]).scene.stepTimer } }) ∧
      (u.zones[z]).scene.cues = scene.cues.modify i.val (fun c => { c with status := .started }) ∧
      (∀ run, scene.cues[i.val]? = some run → ∀ a ∈ run.channels, ∀ t ∈ scene.touched, t.act = a →
        (∀ x ∈ scene.touched, x.act = a → ∀ j, x.owner = some j → j ≤ i.val) →
        ∃ x ∈ (u.zones[z]).scene.touched, x.act = a ∧ x.owner = some i.val)) ∧
    (scene.stepTimer = .running 0 → ∃ u, exec (.fadeStep z) s = .next u ∧ OneZoneWork z s u ∧
      (∃ v, u = State.reportScene z (v.judgeIfDone z) ∧ OneZoneWork z s v ∧ v.mgmt = s.mgmt ∧ v.acct = s.acct ∧
        v.zones[z] = { s.zones[z] with scene := { scene with
          touched := (v.zones[z]).scene.touched
          stepTimer := if (v.zones[z]).scene.touched.any (fun x => x.fade.isSome) then .running 250 else .stopped } }) ∧
      (∀ (a : ActIx) (t : Touched) (j : CueIx) (f : Fade) (run : CueRun),
        scene.touched.find? (fun x => x.act == a) = some t → t.owner = some j.val → t.fade = some f →
        scene.cues[j.val]? = some run → run.channels.count a = 1 →
        (∃ x, (u.zones[z]).scene.touched.find? (fun x => x.act == a) = some x ∧ x.owner = some j.val ∧
          x.fade = if f.k + 1 < f.n then some { f with k := f.k + 1 } else none) ∧
        ((s.cfg.acts[a]).inUse = true → (s.cfg.acts[a]).kind = .dimmer → (s.cfg.acts[a]).zone = z →
          (u.acts[a]).requested = some ((s.cfg.acts[a]).limited
            (f.ls + ((f.lt - f.ls) * ((f.k : Int) + 1)).tdiv (f.n : Int))))))

/-! ### The dispatcher -/

/-- A job request stores its value within the entry's limits, and sets needs-send where the deadband test asks for it; an
eligible actuator joins the tail of its owner job's queue, and no other does (R129, R130). The model's own choices in it:
log 16, and that a request to an entry which is not in use, or not of the block's kind and zone, changes nothing (log 25). -/
def Obligations.RequestsAreTestedAndQueued : Prop :=
  ∀ (s : State) (a : ActIx),
    (∀ (kind : ActKind) (z : ZoneIx) (v : Int),
      let c := s.cfg.acts[a]
      let r := s.acts[a]
      let w := c.limited v
      let reference := if r.dispatch = .inFlight then r.inFlightValue else r.confirmed
      let send := r.control ≠ .overridden ∧ r.rangeRefused ≠ some w ∧
        ∀ x, reference = some x → w ≠ x ∧ c.deadband ≤ (w - x).natAbs
      s.jobRequest kind z a v =
        if c.inUse = true ∧ c.kind = kind ∧ c.zone = z then
          (s.updAct a fun r =>
            if send then { r with requested := some w, needsSend := true, refreshOnly := false }
            else { r with requested := some w }).join a
        else s) ∧
    (∀ j : Job, (s.cfg.acts[a]).kind.job = some j → MayQueue s a → s.join a = { s with
      disp := { s.disp with queues := s.disp.queues.set j (s.disp.queues.get j ++ [a]) }
      acts := s.acts.set a { s.acts[a] with dispatch := .queued } }) ∧
    (¬ MayQueue s a → s.join a = s)

/-- A refresh expiry queues an idle actuator with nothing to send and a requested value, refresh-only; a retry expiry lets it
join its queue again; an override that ends makes the actuator ENABLED with no confirmed value and its requested value to
be sent, so that it joins its queue where it may, and a dimmer's return is reported to its scene engine (R130, R132, R141, R145). -/
def Obligations.ActuatorTimersAct : Prop :=
  ∀ (s : State) (a : ActIx),
    let r := s.acts[a]
    (r.refreshTimer = .running 0 → exec (.refreshExpiry a) s = .next (
      if r.dispatch = .idle ∧ r.needsSend = false ∧ r.requested ≠ none then
        (s.updAct a fun r => { r with refreshTimer := .stopped, needsSend := true, refreshOnly := true }).join a
      else s.updAct a fun r => { r with refreshTimer := .stopped })) ∧
    (r.retryTimer = .running 0 →
      exec (.retryExpiry a) s = .next ((s.updAct a fun r => { r with retryTimer := .stopped }).join a)) ∧
    (r.overrideTimer = .running 0 →
      let ended := s.updAct a fun r =>
        { r with
          control := .enabled, confirmed := none, overrideTimer := .stopped, needsSend := r.needsSend || r.requested.isSome }
      (∃ u, exec (.overrideHoldExpiry a) s = .next u ∧ OneZoneWork (s.cfg.acts[a]).zone ended u) ∧
      exec (.overrideHoldExpiry a) s = .next (
        if (s.cfg.acts[a]).kind = .dimmer then
          State.reportScene (s.cfg.acts[a]).zone ((ended.join a).sceneControl (s.cfg.acts[a]).zone a)
        else ended.join a))

/-- A command whose telegram has been sent awaits its acknowledgement; it ends at its acknowledgement, at the expiry of its
timer, and at a third disturbed attempt. Its end frees the tag and changes the actuator's record by its outcome; a timeout
is accounted; the actuator's notice is raised, the actuator joins its queue again where it may, and the outcome is reported to
the scene engine or the cover sequencer; nothing else changes. An acknowledgement that matches no entry, by its tag, the entry's
phase, its source, its channel, its value or its status, is discarded, but that it makes the line active (R84, R120, R130, R136 to
R140, R152, R156). The model's own choices in it: log 29. -/
def Obligations.CommandsEnd : Prop :=
  (∀ (s : State) (heard : List RxByte) (t : Telegram), heard ≠ [] → judgeUnit true heard = some t → t.dest = s.own → t.kind = 3 →
    (∀ o ∈ s.disp.outstanding, t.tag ≠ BitVec.ofNat 4 o.tag ∨ o.phase = .sending ∨ t.src ≠ o.node ∨
      ∀ status hi lo : Byte, t.payload = [o.channel, status, hi, lo] → (hi ++ lo).toInt = o.value → 2 < status.toNat) →
    exec (.receivedUnit .hall heard) s = .next { s with lines := { s.lines with hallActive := true } }) ∧
  ∀ (s : State) (older younger : List Outstanding) (o : Outstanding), s.disp.outstanding = older ++ o :: younger →
    (∀ x ∈ older, x.tag ≠ o.tag) →
    let zone := (s.cfg.acts[o.act]).zone
    let accounted := fun (u : State) => ((s.cfg.part.accOptions[zone])[4]).enabled = true → s.cfg.part.run = true →
      ((u.acct.accs[zone])[4]).value = ((s.acct.accs[zone])[4]).value + 1
    (∀ (t : Telegram) (n : Nat), s.lines.hallTx = .sending (.command o.tag) t n →
      exec (.txAttemptEnd .hall (t.bytes.map fun b => { value := b, stop := true })) s = .next { s with
        lines := { s.lines with hallTx := .free }
        disp := { s.disp with outstanding := s.disp.outstanding.map fun x =>
          if x.tag = o.tag then { x with phase := .awaitingAck (.running s.cfg.part.ackTimeout) } else x } }) ∧
    (∀ (t : Telegram) (n k : Nat) (b : RxByte), s.lines.hallTx = .sending (.command o.tag) t n → 3 ≤ n →
      k < t.bytes.length → (b.value ≠ t.bytes.getD k 0 ∨ b.stop = false) →
      ∃ u, exec (.txAttemptEnd .hall ((t.bytes.take k).map (fun x => { value := x, stop := true }) ++ [b])) s = .next u ∧
        u = State.commandReported { s with lines := { s.lines with hallTx := .free } } o .timeout ∧ accounted u ∧
        OneZoneWork zone (({ s with lines := { s.lines with hallTx := .free } } : State).commandEnded o .timeout) u) ∧
    (o.phase = .awaitingAck (.running 0) → ∃ u, exec (.ackTimeout o.tag) s = .next u ∧
      u = s.commandReported o .timeout ∧ accounted u ∧
      OneZoneWork zone (s.commandEnded o .timeout) u) ∧
    (∀ (timer : Timer) (heard : List RxByte) (t : Telegram) (status hi lo : Byte) (outcome : CommandOutcome),
      o.phase = .awaitingAck timer → heard ≠ [] → judgeUnit true heard = some t → t.dest = s.own → t.kind = 3 →
      t.tag = BitVec.ofNat 4 o.tag → t.src = o.node → t.payload = [o.channel, status, hi, lo] → (hi ++ lo).toInt = o.value →
      (status = 0 ∧ outcome = .applied ∨ status = 1 ∧ outcome = .refusedHand ∨ status = 2 ∧ outcome = .refusedRange) →
      ∃ u, exec (.receivedUnit .hall heard) s = .next u ∧
        u = State.commandReported { s with lines := { s.lines with hallActive := true } } o outcome ∧
        OneZoneWork zone (({ s with lines := { s.lines with hallActive := true } } : State).commandEnded o outcome) u)

/-- An arbitration hands the first free tag after the last one to the oldest dispatchable entry of the job that wins, and the
dispatch is offered to the watches; without a free tag or a dispatchable entry it changes nothing. The value sent is the
requested value; where none is requested it is STOP to a cover drive (R90), and to any other actuator it is left open within
the actuator's limits (R129, R134, R135, R185). The model's own choices in it: logs 22 and 33. -/
def Obligations.ArbitrationHandsOutOneTag : Prop :=
  ∀ s : State,
    ((∀ t : Tag, ∃ o ∈ s.disp.outstanding, o.tag = t) → exec .arbitration s = .next s) ∧
    ((∀ j, ¬ Competes s j) → exec .arbitration s = .next s) ∧
    (∀ (j : Job) (t : Tag) (older younger : List ActIx) (a : ActIx) (counts : PerJob Nat), Wins s j →
      NextFreeTag s t → s.disp.queues.get j = older ++ a :: younger → (∀ x ∈ older, s.dispatchable x = false) →
      s.dispatchable a = true → (s.cfg.acts[a]).kind.job = some j → (s.acts[a]).dispatch = .queued →
      (∀ k, k ≠ j → Competes s k → counts.get k = min 15 (s.disp.waitCounts.get k + 1)) →
      (∀ k, k = j ∨ ¬ Competes s k → counts.get k = 0) →
      ∃ v : Int,
        (∀ w, (s.acts[a]).requested = some w → v = w) ∧
        ((s.acts[a]).requested = none → (s.cfg.acts[a]).min ≤ (s.cfg.acts[a]).max →
          (s.cfg.acts[a]).min ≤ v ∧ v ≤ (s.cfg.acts[a]).max) ∧
        ((s.acts[a]).requested = none → (s.cfg.acts[a]).kind = .coverDrive → (s.cfg.acts[a]).min ≤ (s.cfg.acts[a]).max →
          v = (s.cfg.acts[a]).limited 0) ∧
        exec .arbitration s = .next ((s.dispatched j a t v counts).offerWatches
          { on := .dispatch, target := .actuator a, value := v }) ∧
        (∃ u, exec .arbitration s = .next u ∧ AnyZoneWork (s.dispatched j a t v counts) u) ∧
        ((∀ w : WatchIx, (s.cfg.watches[w]).armed = false) →
          exec .arbitration s = .next (s.dispatched j a t v counts)))

/-! ### Zone commands, scenes, actuators, captures -/

/-- ENABLE and DISABLE of a zone that is so already, and of one whose mark protects it from the trunk, change no zone. ENABLE
of a disabled zone resets evaluation, heating and the actuators' requests, forms the working drives, and leaves the covers in DETECT
with its timer running or, with its scene, notice and ring record, in the rest state that their contacts show: OPEN_IDLE where there
is no working drive or all stand at their open ends, COVERED where all stand at their closed ends; the arbiter decides. DISABLE
stops evaluation, grants IDLE, requests STOP of drives in motion, ends covers, scene and purge, a run with its fans requested 0 and
its seconds accounted, stops the actuators' timers and takes them out of their queues (R32, R81, R84, R86, R87, R96, R99, R101,
R102, R123, R148, R169). The model's own choices in it: logs 4, 18 and 26. -/
def Obligations.ZonesAreEnabledAndDisabled : Prop :=
  ∀ (s : State) (c : Channel) (t : Telegram) (z : ZoneIx) (force : Byte), force.toNat ≤ 1 →
    let setEnabled := fun (b : Bool) => (s.taken c).updCfg fun k =>
      { k with zones := k.zones.set z { k.zones[z] with eval := { (k.zones[z]).eval with enabled := b } } }
    let kept := (s.taken c).replied c t 4 .done []
    let open_ := c = .service ∨ (s.cfg.zones[z]).eval.protect = false
    let record := fun (next : CoverState) (cause : CoverCause) =>
      ({ time := s.now, zone := z, entry := .cover (s.zones[z]).cover.state next cause } : RingRecord)
    (NextIs s c t 4 [BitVec.ofNat 8 z, 0, force] →
      (¬ open_ → exec .zoneEnable s = .next ((s.taken c).setProtectFault.replied c t 4 .protectedEntry [])) ∧
      (open_ → s.enabled z = true → exec .zoneEnable s = .next kept) ∧
      (open_ → s.enabled z = false → ∃ u, exec .zoneEnable s = .next (u.replied c t 4 .done []) ∧
        let base := ((setEnabled true).updActs (s.actuatorsOf z) ActRt.zoneEnabled).updZone z fun r =>
          { r with eval := EvalRt.reset { (s.cfg.zones[z]).eval with enabled := true }, heat := HeatRt.reset }
        let drives := s.formDrives z
        let detecting : CoverRt :=
          { state := .detect, reason := none, drives := drives
            detectTimer := .running ((s.cfg.zones[z]).cover.detect * 1000), prepTimer := .stopped, motionTimer := .stopped
            settleTimer := .stopped, lightingReady := false, workSceneTaken := false }
        let entered := base.updZone z fun r => { r with cover := detecting }
        let resting := fun (next : CoverState) => { detecting with state := next, detectTimer := .stopped }
        OneZoneWork z base u ∧ (u.zones[z]).arb.lastDecision = some s.now ∧
        (s.acct.frozen = false → record .detect .zoneEnabled ∈ u.acct.ring) ∧
        ((drives = [] ∨ (¬ AllClosed s z drives ∧ AllOpen s z drives)) → (u.zones[z]).cover = resting .openIdle ∧
          ((s.zones[z]).cover.state = .disabled → CoversOpened entered u z .positionFound)) ∧
        (drives ≠ [] → AllClosed s z drives → (u.zones[z]).cover = resting .covered ∧
          ((s.zones[z]).cover.state = .disabled → CoversClosed entered u z .positionFound)) ∧
        (¬ AllClosed s z drives → ¬ AllOpen s z drives → (u.zones[z]).cover = detecting))) ∧
    (NextIs s c t 4 [BitVec.ofNat 8 z, 1, force] →
      (¬ open_ → exec .zoneDisable s = .next ((s.taken c).setProtectFault.replied c t 4 .protectedEntry [])) ∧
      (open_ → s.enabled z = false → exec .zoneDisable s = .next kept) ∧
      (open_ → s.enabled z = true → ∃ u, exec .zoneDisable s = .next (u.replied c t 4 .done []) ∧
        OneZoneWork z (((setEnabled false).updActs (s.actuatorsOf z) ActRt.zoneDisabled).updZone z fun r =>
          { r with eval := { r.eval with timer := .stopped } }) u ∧
        (u.zones[z]).cover =
          { state := .disabled, reason := none, drives := (s.zones[z]).cover.drives, detectTimer := .stopped
            prepTimer := .stopped, motionTimer := .stopped, settleTimer := .stopped, lightingReady := false
            workSceneTaken := false } ∧
        ((s.zones[z]).cover.state = .deploying ∨ (s.zones[z]).cover.state = .retracting → DrivesRequested s u z 0) ∧
        (s.acct.frozen = false → record .disabled .zoneDisabled ∈ u.acct.ring) ∧
        (∀ a ∈ s.actuatorsOf z, (s.cfg.acts[a]).kind ≠ .plain → (u.acts[a]).dispatch ≠ .queued) ∧
        (u.zones[z]).arb.granted = .idle ∧ (u.zones[z]).arb.dwell = .stopped ∧ (u.zones[z]).scene = SceneRt.reset ∧
        ((s.zones[z]).cover.state = .covered → (u.zones[z]).purge = PurgeRt.reset ∧
          ((s.zones[z]).purge.state = .run → PurgeRunLeft s u z))))

/-- CLOSE_COVERS and OPEN_COVERS of covers at rest, in a zone that is not held, lead with FORCE or without a cover-work scene into
motion with the drives requested, where the drive check passes, and to FAULT where it fails. Without FORCE and with a cover-work
scene that scene is taken, and the covers stand in the prep state with its timer running; only where the scene completes at its
take they go on into motion, and to FAULT where it completes degraded. Covers that leave COVERED end a purge. In another state or a
held zone the commands are refused, and so is FORCE from the trunk. CLEAR_FAULT leads from FAULT to DETECT, with its timer running,
or to the rest state the contacts of the working drives show, OPEN_IDLE where there is none (R75, R84 to R90, R101, R102, R112,
R169). The model's own choices in it: logs 4, 18 and 31. -/
def Obligations.CoverCommandsAct : Prop :=
  ∀ (s : State) (c : Channel) (t : Telegram) (z : ZoneIx) (force : Byte), force.toNat ≤ 1 →
    let cover := (s.zones[z]).cover
    let direct := force = 1 ∨ (s.cfg.zones[z]).cover.coverWorkScene = none
    let ready := s.formDrives z ≠ [] ∧ ∀ a ∈ s.formDrives z, (s.acts[a]).control = .enabled ∧ (s.acts[a]).health = .ok ∧
      (s.cfg.acts[a]).min = 0 ∧ (s.cfg.acts[a]).max = 2 ∧ (s.cfg.acts[a]).deadband = 0
    let refused := fun (cmd : Instr) (status : Status) => exec cmd s = .next ((s.taken c).replied c t 4 status [])
    let accepted := fun (cmd : Instr) (prep motion : CoverState) (v : Int) =>
      ∃ u, exec cmd s = .next (u.replied c t 4 .done []) ∧ OneZoneWork z (s.taken c) u ∧
        (cover.state = .covered → LeavesCovered s u z) ∧
        (direct → ready → (u.zones[z]).cover =
            { state := motion, reason := none, drives := s.formDrives z, detectTimer := .stopped, prepTimer := .stopped
              motionTimer := .running ((s.cfg.zones[z]).cover.motion * 1000), settleTimer := .stopped
              lightingReady := false, workSceneTaken := false } ∧
          ∀ a ∈ s.formDrives z, (u.acts[a]).requested = some v) ∧
        (direct → ¬ ready → (u.zones[z]).cover.state = .fault ∧ (u.zones[z]).cover.reason = some .drive) ∧
        (¬ direct → (u.zones[z]).cover.state = prep ∨ (u.zones[z]).cover.state = motion ∨ (u.zones[z]).cover.state = .fault) ∧
        (∀ n, ¬ direct → (s.cfg.zones[z]).cover.coverWorkScene = some n →
          let scene := (u.zones[z]).scene
          scene.scene = some n ∧ scene.origin = some .coverWork ∧ scene.takeTime = some s.now ∧ scene.state ≠ .idle ∧
          (s.acct.frozen = false →
            ({ time := s.now, zone := z, entry := .cover cover.state prep .command } : RingRecord) ∈ u.acct.ring) ∧
          (scene.state = .running ∨ scene.state = .settling → scene.coverWork = true ∧ (u.zones[z]).cover =
            { state := prep, reason := none, drives := cover.drives, detectTimer := .stopped
              prepTimer := .running ((s.cfg.zones[z]).cover.prep * 1000), motionTimer := .stopped, settleTimer := .stopped
              lightingReady := false, workSceneTaken := true }) ∧
          (scene.state = .complete → ready → scene.coverWork = true ∧ CoversMove s u z motion v true) ∧
          (scene.state = .complete → ¬ ready → (u.zones[z]).cover.state = .fault ∧ (u.zones[z]).cover.reason = some .drive) ∧
          (scene.state = .completeDegraded → (u.zones[z]).cover.state = .fault ∧ (u.zones[z]).cover.reason = some .lighting) ∧
          ((s.cfg.headers[n]).cueCount = 0 → scene.state = .complete) ∧
          ((∃ run ∈ (s.updZone z fun r => { r with cover := { r.cover with state := prep } }).takeCues z n, ∃ ms,
            run.status = .pending ms ∧ 0 < ms) → scene.state = .running))
    (NextIs s c t 4 [BitVec.ofNat 8 z, 2, force] →
      (c = .trunk → force = 1 → refused .closeCovers .badValue) ∧
      (c = .service ∨ force = 0 →
        (cover.state ≠ .openIdle ∨ (s.zones[z]).held = true → refused .closeCovers .wrongState) ∧
        (cover.state = .openIdle → (s.zones[z]).held = false → cover.drives = [] → refused .closeCovers .badValue) ∧
        (cover.state = .openIdle → (s.zones[z]).held = false → cover.drives ≠ [] →
          accepted .closeCovers .prepClose .deploying 1))) ∧
    (NextIs s c t 4 [BitVec.ofNat 8 z, 3, force] →
      (c = .trunk → force = 1 → refused .openCovers .badValue) ∧
      (c = .service ∨ force = 0 →
        (cover.state ≠ .covered ∨ (s.zones[z]).held = true → refused .openCovers .wrongState) ∧
        (cover.state = .covered → (s.zones[z]).held = false → accepted .openCovers .prepOpen .retracting 2))) ∧
    (NextIs s c t 4 [BitVec.ofNat 8 z, 4, force] →
      (cover.state ≠ .fault → refused .clearFault .wrongState) ∧
      (cover.state = .fault → ∃ u, exec .clearFault s = .next (u.replied c t 4 .done []) ∧ OneZoneWork z (s.taken c) u ∧
        ((u.zones[z]).cover.state = .detect ∨ (u.zones[z]).cover.state = .openIdle ∨
          (u.zones[z]).cover.state = .covered) ∧ (u.zones[z]).cover.reason = none ∧
        (u.zones[z]).cover.drives = s.formDrives z ∧
        (s.formDrives z = [] → (u.zones[z]).cover.state = .openIdle) ∧
        (s.formDrives z ≠ [] → AllClosed s z (s.formDrives z) → (u.zones[z]).cover.state = .covered) ∧
        (¬ AllClosed s z (s.formDrives z) → AllOpen s z (s.formDrives z) → (u.zones[z]).cover.state = .openIdle) ∧
        (¬ AllClosed s z (s.formDrives z) → ¬ AllOpen s z (s.formDrives z) →
          (u.zones[z]).cover.state = .detect ∧
          (u.zones[z]).cover.detectTimer = .running ((s.cfg.zones[z]).cover.detect * 1000)))) ∧
    (∃ l : List ActIx, l.Pairwise (· < ·) ∧ s.formDrives z = l.take 2 ∧
      ∀ a, a ∈ l ↔ DriveOf s z a ∧ ∃ p, NamesDrive s z .coverClosed a p ∨ NamesDrive s z .coverOpen a p)

/-- RESUME clears the zone's hold and keeps its cause, and in an enabled zone the arbiter then decides. RESET_CONTROL first resets
evaluation, heating and the arbiter, withdraws the grant of a running purge and clears the capture's arming; in a zone not held
nothing follows. At the clearing the actuators that may queue join their queues in ascending index; the cover sequencer's timers run
on, drives in motion are requested again, and a preparation whose lighting is ready goes on into motion; the step timer runs on, the
cues with no delay left start in ascending index, and the engine judges if that was its last work (R32, R67, R81, R90, R95, R101,
R122, R147, R178, R186). The model's own choices in it: logs 4, 18 and 27. -/
def Obligations.HoldsAreCleared : Prop :=
  ∀ (s : State) (c : Channel) (t : Telegram) (z : ZoneIx) (force : Byte), force.toNat ≤ 1 →
    (NextIs s c t 4 [BitVec.ofNat 8 z, 6, force] → ∃ v u, exec .resume s = .next (u.replied c t 4 .done []) ∧
      HoldCleared (s.taken c) v z ∧ (s.enabled z = true → u = v.takeDecision z false) ∧ (s.enabled z = false → u = v) ∧
      OneZoneWork z (s.taken c) u ∧ (u.zones[z]).held = false ∧ (u.zones[z]).holdCause = (s.zones[z]).holdCause ∧
      (s.enabled z = true → (u.zones[z]).arb.lastDecision = some s.now) ∧
      (s.enabled z = false → (s.zones[z]).held = false → u = s.taken c)) ∧
    (NextIs s c t 4 [BitVec.ofNat 8 z, 5, force] → ∃ v u, exec .resetControl s = .next (u.replied c t 4 .done []) ∧
      (let base := (s.taken c).updZone z fun r =>
        { r with eval := EvalRt.reset (s.cfg.zones[z]).eval, heat := HeatRt.reset, arb := ArbRt.reset }
      let running := (s.zones[z]).purge.state = .run ∧ (s.zones[z]).arb.granted = .purge
      (¬ running → v = base) ∧
      (running → PurgeWithdrawn base v z ∧ OneZoneWork z base v ∧
        v.zones[z] = { base.zones[z] with purge := (v.zones[z]).purge, arming := (v.zones[z]).arming }) ∧
      HoldCleared (v.updZone z fun r => { r with arming := none }) u z) ∧
      OneZoneWork z ((s.taken c).updZone z fun r =>
        { r with eval := EvalRt.reset (s.cfg.zones[z]).eval, heat := HeatRt.reset }) u ∧
      (u.zones[z]).held = false ∧ (u.zones[z]).holdCause = (s.zones[z]).holdCause ∧ (u.zones[z]).arming = none ∧
      ((s.zones[z]).held = false → (u.zones[z]).arb = ArbRt.reset) ∧
      ((s.zones[z]).purge.state = .run → (s.zones[z]).arb.granted = .purge → (u.zones[z]).purge.state ≠ .run))

/-- SCENE_REQUEST takes the scene afresh in an enabled zone without cover work, and is refused otherwise (R111). A take, whatever its
origin, cancels the one before it, sets the engine's record, appends its record to the ring and offers 1 to SCENE_CHANGES; in a
zone not held the cues without delay then start in ascending index, and the engine judges if no work is left (R112). At a take a
cue whose guard is false is withheld, and so are the cues that it skips, whose guards are not judged; every other cue pends with
its delay and the in-use dimmers of the zone in its target, or has started where it has none; the channels touched are those of the
cues, each once, in the order of first appearance (R113, R114). In a zone not held the cues without delay have started, and the
engine is RUNNING while it is at work and holds the finding of its judgement otherwise; in a held zone every cue still pends (R112,
R119, R122). -/
def Obligations.SceneRequestsTakeTheScene : Prop :=
  (∀ (s : State) (z : ZoneIx),
    (∀ guard : Option Guard, s.guardHolds z guard = true ↔ GuardTrue s z guard) ∧
    (∀ cues : List Cue, Walk s z 0 cues (appliedCues (s.guardHolds z) 0 cues)) ∧
    (∀ (n : SceneIx) (origin : TakeOrigin), s.takeScene z n origin = State.judgeIfDone
      (if (s.zones[z]).held then s.takeBegun z n origin else (s.takeBegun z n origin).cuesStarted z) z) ∧
    (∀ n : SceneIx,
      let cues := (s.cfg.cues[n]).toList.take (s.cfg.headers[n]).cueCount
      s.takeCues z n = List.zipWith (cueTaken s z) (appliedCues (s.guardHolds z) 0 cues) cues)) ∧
  ∀ (s : State) (c : Channel) (t : Telegram) (z : ZoneIx) (n : SceneIx),
    NextIs s c t 5 [BitVec.ofNat 8 z, BitVec.ofNat 8 n] →
    (s.enabled z = false → exec .sceneRequest s = .next ((s.taken c).replied c t 5 .wrongState [])) ∧
    (s.enabled z = true → (s.zones[z]).scene.coverWork = true →
      exec .sceneRequest s = .next ((s.taken c).replied c t 5 .interlocked [])) ∧
    (s.enabled z = true → (s.zones[z]).scene.coverWork = false →
      ∃ u, exec .sceneRequest s = .next (u.replied c t 5 .done []) ∧ OneZoneWork z (s.taken c) u ∧
        u = State.reportScene z ((s.taken c).takeScene z n .request) ∧ Accounted s u z 5 1 ∧
        (u.zones[z]).scene.scene = some n ∧ (u.zones[z]).scene.origin = some .request ∧
        (u.zones[z]).scene.takeTime = some s.now ∧
        (u.zones[z]).scene.cues.map CueRun.channels = (s.takeCues z n).map CueRun.channels ∧
        (u.zones[z]).scene.touched.map Touched.act = ((s.takeCues z n).flatMap CueRun.channels).eraseDups ∧
        ((s.zones[z]).held = false → ∀ run ∈ (u.zones[z]).scene.cues, run.status ≠ .pending 0) ∧
        ((s.zones[z]).held = true → (u.zones[z]).scene.cues = s.takeCues z n) ∧
        (AtWork (u.zones[z]).scene → (u.zones[z]).scene.state = .running) ∧
        (¬ AtWork (u.zones[z]).scene → Finding u z (u.zones[z]).scene.state (u.zones[z]).scene.degraded) ∧
        ((s.cfg.headers[n]).cueCount = 0 → (u.zones[z]).scene.state = .complete) ∧
        (s.acct.frozen = false → u.acct.ring.getLast? =
          some { time := s.now, zone := z, entry := .scene (s.zones[z]).scene.scene n .request }))

/-- ACTUATOR_CONTROL DISABLE takes a queued actuator out of its queue and stops its sends and timers; ENABLE lets a DISABLED one send
again or ends an override, and the actuator joins its queue where it may; one still DISABLING becomes ENABLED; each change of a
dimmer's control is reported to its scene engine. Both leave an actuator that is so already, and refuse an entry not in use, and a
protected one from the trunk (R130, R131, R145, R146). The model's own choices in it: log 26. -/
def Obligations.ActuatorControlActs : Prop :=
  (∀ (s : State) (a : ActIx),
    (∀ j : Job, (s.cfg.acts[a]).kind.job = some j → (s.acts[a]).dispatch = .queued → s.unqueue a = { s with
      disp := { s.disp with queues := s.disp.queues.set j ((s.disp.queues.get j).erase a) }
      acts := s.acts.set a { s.acts[a] with dispatch := .idle } }) ∧
    ((s.acts[a]).dispatch ≠ .queued → s.unqueue a = s)) ∧
  ∀ (s : State) (c : Channel) (t : Telegram) (a : ActIx) (action : Byte), NextIs s c t 6 [BitVec.ofNat 8 a, action] →
    action.toNat ≤ 1 →
    let cmd := if action = 0 then Instr.actuatorDisable else .actuatorEnable
    let r := s.acts[a]
    let zone := (s.cfg.acts[a]).zone
    let changed := fun (f : ActRt → ActRt) => ∃ u, exec cmd s = .next (u.replied c t 6 .done []) ∧
      OneZoneWork zone ((s.taken c).updAct a f) u
    let becomes := fun (v : State) => exec cmd s = .next
      ((if (s.cfg.acts[a]).kind = .dimmer then State.reportScene zone (v.sceneControl zone a) else v).replied c t 6 .done [])
    let ended := fun (r : ActRt) => { r with
      control := .enabled, confirmed := none, overrideTimer := .stopped, needsSend := r.needsSend || r.requested.isSome }
    ((s.cfg.acts[a]).inUse = false → exec cmd s = .next ((s.taken c).replied c t 6 .wrongState [])) ∧
    ((s.cfg.acts[a]).inUse = true → c = .trunk → (s.cfg.acts[a]).protect = true →
      exec cmd s = .next ((s.taken c).setProtectFault.replied c t 6 .protectedEntry [])) ∧
    ((s.cfg.acts[a]).inUse = true → (c = .service ∨ (s.cfg.acts[a]).protect = false) →
      (action = 0 → (r.control = .enabled ∨ r.control = .overridden) →
        changed ActRt.disabled ∧ becomes (((s.taken c).unqueue a).updAct a ActRt.disabled)) ∧
      (action = 0 → (r.control = .disabled ∨ r.control = .disabling) →
        exec cmd s = .next ((s.taken c).replied c t 6 .done [])) ∧
      (action = 1 → r.control = .enabled → exec cmd s = .next ((s.taken c).replied c t 6 .done [])) ∧
      (action = 1 → (r.control = .disabled ∨ r.control = .disabling) →
        changed fun r => { r with control := .enabled }) ∧
      (action = 1 → r.control = .disabled → becomes (((s.taken c).updAct a fun r => { r with control := .enabled }).join a)) ∧
      (action = 1 → r.control = .disabling → becomes ((s.taken c).updAct a fun r => { r with control := .enabled })) ∧
      (action = 1 → r.control = .overridden → changed ended ∧ becomes (((s.taken c).updAct a ended).join a)))

/-- CAPTURE TAKE records the zone as it stands: the record joins the buffer, at 32 replaces the oldest in WRAP or is dropped
with CAPTURE_FULL in STOP, and each capture freezes the ring where the part is set to it; the count that reaches the
threshold raises a notice. A capture of an armed evaluation or of a watch is made likewise, with its reason (R180 to R182). -/
def Obligations.CapturesRecordTheZone : Prop :=
  (∀ (s : State) (z : ZoneIx) (reason : CaptureReason),
    let r := s.zones[z]
    let captured : CaptureRecord :=
      { time := s.now, zone := z, reason := reason, ta := r.eval.ta.last, rh := r.eval.rh.last, tw := r.eval.tw.last
        tg := r.eval.tg.last, td := r.eval.td, margin := r.eval.margin, h := r.heat.h, d := r.eval.d, i := r.heat.i
        mode := r.arb.granted, cover := r.cover.state, purge := r.purge.state, scene := r.scene.scene }
    let count := s.acct.captures.length
    let reaches := s.acct.thresholdArmed = true ∧ count + 1 = s.cfg.part.captureThreshold
    let stored := fun (captures : List CaptureRecord) => s.updAcct fun k =>
      { k with captures := captures, frozen := k.frozen || s.cfg.part.ringFreeze }
    (count < 32 → ¬ reaches → s.capture z reason = stored (s.acct.captures ++ [captured])) ∧
    (count < 32 → reaches → s.capture z reason =
      ((stored (s.acct.captures ++ [captured])).updAcct fun k => { k with thresholdArmed := false }).raise .captureThreshold 255
        [BitVec.ofNat 8 (count + 1), match s.cfg.part.captureMode with | .wrap => 0 | .stop => 1]) ∧
    (32 ≤ count → s.cfg.part.captureMode = .wrap → s.capture z reason = stored (s.acct.captures.drop 1 ++ [captured])) ∧
    (32 ≤ count → s.cfg.part.captureMode = .stop → s.capture z reason = (stored s.acct.captures).setCaptureFull)) ∧
  ∀ (s : State) (c : Channel) (t : Telegram) (z : ZoneIx), NextIs s c t 10 [0, BitVec.ofNat 8 z] →
    let r := s.zones[z]
    let captured : CaptureRecord :=
      { time := s.now, zone := z, reason := .requested, ta := r.eval.ta.last, rh := r.eval.rh.last, tw := r.eval.tw.last
        tg := r.eval.tg.last, td := r.eval.td, margin := r.eval.margin, h := r.heat.h, d := r.eval.d, i := r.heat.i
        mode := r.arb.granted, cover := r.cover.state, purge := r.purge.state, scene := r.scene.scene }
    let count := s.acct.captures.length
    let reaches := s.acct.thresholdArmed = true ∧ count + 1 = s.cfg.part.captureThreshold
    let stored := fun (captures : List CaptureRecord) => (s.taken c).updAcct fun k =>
      { k with captures := captures, frozen := k.frozen || s.cfg.part.ringFreeze }
    (count < 32 → ¬ reaches →
      exec .captureTake s = .next ((stored (s.acct.captures ++ [captured])).replied c t 10 .done [])) ∧
    (count < 32 → reaches → exec .captureTake s = .next
      ((((stored (s.acct.captures ++ [captured])).updAcct fun k => { k with thresholdArmed := false }).raise
        .captureThreshold 255 [BitVec.ofNat 8 (count + 1), match s.cfg.part.captureMode with | .wrap => 0 | .stop => 1]).replied
        c t 10 .done [])) ∧
    (32 ≤ count → s.cfg.part.captureMode = .wrap →
      exec .captureTake s = .next ((stored (s.acct.captures.drop 1 ++ [captured])).replied c t 10 .done [])) ∧
    (32 ≤ count → s.cfg.part.captureMode = .stop →
      exec .captureTake s = .next ((stored s.acct.captures).setCaptureFull.replied c t 10 .done []))

/-! ### Laws that every step keeps -/

/-- The laws hold right after reset. The model's own choices in it: log 5. -/
def Obligations.LawsHoldAtReset : Prop :=
  WithinSizes State.reset ∧ TagLaw State.reset ∧
    ∀ z : ZoneIx, DemandsInRange State.reset.zones[z] ∧ CoverLaw (State.reset.enabled z) State.reset.zones[z]

/-- Every step keeps every queue, buffer and saturating count within its size. -/
def Obligations.StepsKeepTheSizes : Prop :=
  ∀ s t : State, WithinSizes s → step s = .next t → WithinSizes t

/-- Every step keeps every zone's demands, integrator and temperatures in their ranges. -/
def Obligations.StepsKeepDemandsInRange : Prop :=
  ∀ s t : State, (∀ z : ZoneIx, DemandsInRange s.zones[z]) → step s = .next t → ∀ z : ZoneIx, DemandsInRange t.zones[z]

/-- Every step keeps tags, outstanding entries and actuators in flight together: no tag is held for two actuators, no actuator
holds two tags, and no actuator waits twice or in a queue of another job. -/
def Obligations.StepsKeepTheTagLaw : Prop :=
  ∀ s t : State, TagLaw s → step s = .next t → TagLaw t

/-- Every step keeps the laws of covers and purge: a purge runs under closed covers and a PURGE grant alone, and PURGE is granted
only while a purge is requested, running or suspended under closed covers. -/
def Obligations.StepsKeepTheCoverLaw : Prop :=
  ∀ s t : State, (∀ z : ZoneIx, CoverLaw (s.enabled z) s.zones[z]) → step s = .next t →
    ∀ z : ZoneIx, CoverLaw (t.enabled z) t.zones[z]
end

