-- ==== Sys2Proof/Laws/State.lean ====
section
/-! SUPPORT. What each update of the state leaves and sets, field by field. -/

namespace Sys2Proof.Machine.State

variable (s : State)

/-! ### updMgmt -/

@[simp] theorem updMgmt_cfg (f : Management → Management) : (s.updMgmt f).cfg = s.cfg := rfl
@[simp] theorem updMgmt_points (f : Management → Management) : (s.updMgmt f).points = s.points := rfl
@[simp] theorem updMgmt_acts (f : Management → Management) : (s.updMgmt f).acts = s.acts := rfl
@[simp] theorem updMgmt_zones (f : Management → Management) : (s.updMgmt f).zones = s.zones := rfl
@[simp] theorem updMgmt_disp (f : Management → Management) : (s.updMgmt f).disp = s.disp := rfl
@[simp] theorem updMgmt_lines (f : Management → Management) : (s.updMgmt f).lines = s.lines := rfl
@[simp] theorem updMgmt_mgmt (f : Management → Management) : (s.updMgmt f).mgmt = f s.mgmt := rfl
@[simp] theorem updMgmt_acct (f : Management → Management) : (s.updMgmt f).acct = s.acct := rfl
@[simp] theorem updMgmt_image (f : Management → Management) : (s.updMgmt f).image = s.image := rfl
@[simp] theorem updMgmt_imageState (f : Management → Management) : (s.updMgmt f).imageState = s.imageState := rfl
@[simp] theorem updMgmt_configured (f : Management → Management) : (s.updMgmt f).configured = s.configured := rfl
@[simp] theorem updMgmt_now (f : Management → Management) : (s.updMgmt f).now = s.now := rfl
@[simp] theorem updMgmt_millis (f : Management → Management) : (s.updMgmt f).millis = s.millis := rfl
@[simp] theorem updMgmt_pending (f : Management → Management) : (s.updMgmt f).pending = s.pending := rfl

/-! ### updLines -/

@[simp] theorem updLines_cfg (f : Lines → Lines) : (s.updLines f).cfg = s.cfg := rfl
@[simp] theorem updLines_points (f : Lines → Lines) : (s.updLines f).points = s.points := rfl
@[simp] theorem updLines_acts (f : Lines → Lines) : (s.updLines f).acts = s.acts := rfl
@[simp] theorem updLines_zones (f : Lines → Lines) : (s.updLines f).zones = s.zones := rfl
@[simp] theorem updLines_disp (f : Lines → Lines) : (s.updLines f).disp = s.disp := rfl
@[simp] theorem updLines_lines (f : Lines → Lines) : (s.updLines f).lines = f s.lines := rfl
@[simp] theorem updLines_mgmt (f : Lines → Lines) : (s.updLines f).mgmt = s.mgmt := rfl
@[simp] theorem updLines_acct (f : Lines → Lines) : (s.updLines f).acct = s.acct := rfl
@[simp] theorem updLines_image (f : Lines → Lines) : (s.updLines f).image = s.image := rfl
@[simp] theorem updLines_imageState (f : Lines → Lines) : (s.updLines f).imageState = s.imageState := rfl
@[simp] theorem updLines_configured (f : Lines → Lines) : (s.updLines f).configured = s.configured := rfl
@[simp] theorem updLines_now (f : Lines → Lines) : (s.updLines f).now = s.now := rfl
@[simp] theorem updLines_millis (f : Lines → Lines) : (s.updLines f).millis = s.millis := rfl
@[simp] theorem updLines_pending (f : Lines → Lines) : (s.updLines f).pending = s.pending := rfl

/-! ### updDisp -/

@[simp] theorem updDisp_cfg (f : Dispatcher → Dispatcher) : (s.updDisp f).cfg = s.cfg := rfl
@[simp] theorem updDisp_points (f : Dispatcher → Dispatcher) : (s.updDisp f).points = s.points := rfl
@[simp] theorem updDisp_acts (f : Dispatcher → Dispatcher) : (s.updDisp f).acts = s.acts := rfl
@[simp] theorem updDisp_zones (f : Dispatcher → Dispatcher) : (s.updDisp f).zones = s.zones := rfl
@[simp] theorem updDisp_disp (f : Dispatcher → Dispatcher) : (s.updDisp f).disp = f s.disp := rfl
@[simp] theorem updDisp_lines (f : Dispatcher → Dispatcher) : (s.updDisp f).lines = s.lines := rfl
@[simp] theorem updDisp_mgmt (f : Dispatcher → Dispatcher) : (s.updDisp f).mgmt = s.mgmt := rfl
@[simp] theorem updDisp_acct (f : Dispatcher → Dispatcher) : (s.updDisp f).acct = s.acct := rfl
@[simp] theorem updDisp_image (f : Dispatcher → Dispatcher) : (s.updDisp f).image = s.image := rfl
@[simp] theorem updDisp_imageState (f : Dispatcher → Dispatcher) : (s.updDisp f).imageState = s.imageState := rfl
@[simp] theorem updDisp_configured (f : Dispatcher → Dispatcher) : (s.updDisp f).configured = s.configured := rfl
@[simp] theorem updDisp_now (f : Dispatcher → Dispatcher) : (s.updDisp f).now = s.now := rfl
@[simp] theorem updDisp_millis (f : Dispatcher → Dispatcher) : (s.updDisp f).millis = s.millis := rfl
@[simp] theorem updDisp_pending (f : Dispatcher → Dispatcher) : (s.updDisp f).pending = s.pending := rfl

/-! ### updAcct -/

@[simp] theorem updAcct_cfg (f : Accounting → Accounting) : (s.updAcct f).cfg = s.cfg := rfl
@[simp] theorem updAcct_points (f : Accounting → Accounting) : (s.updAcct f).points = s.points := rfl
@[simp] theorem updAcct_acts (f : Accounting → Accounting) : (s.updAcct f).acts = s.acts := rfl
@[simp] theorem updAcct_zones (f : Accounting → Accounting) : (s.updAcct f).zones = s.zones := rfl
@[simp] theorem updAcct_disp (f : Accounting → Accounting) : (s.updAcct f).disp = s.disp := rfl
@[simp] theorem updAcct_lines (f : Accounting → Accounting) : (s.updAcct f).lines = s.lines := rfl
@[simp] theorem updAcct_mgmt (f : Accounting → Accounting) : (s.updAcct f).mgmt = s.mgmt := rfl
@[simp] theorem updAcct_acct (f : Accounting → Accounting) : (s.updAcct f).acct = f s.acct := rfl
@[simp] theorem updAcct_image (f : Accounting → Accounting) : (s.updAcct f).image = s.image := rfl
@[simp] theorem updAcct_imageState (f : Accounting → Accounting) : (s.updAcct f).imageState = s.imageState := rfl
@[simp] theorem updAcct_configured (f : Accounting → Accounting) : (s.updAcct f).configured = s.configured := rfl
@[simp] theorem updAcct_now (f : Accounting → Accounting) : (s.updAcct f).now = s.now := rfl
@[simp] theorem updAcct_millis (f : Accounting → Accounting) : (s.updAcct f).millis = s.millis := rfl
@[simp] theorem updAcct_pending (f : Accounting → Accounting) : (s.updAcct f).pending = s.pending := rfl

/-! ### updCfg -/

@[simp] theorem updCfg_cfg (f : ConfigData → ConfigData) : (s.updCfg f).cfg = f s.cfg := rfl
@[simp] theorem updCfg_points (f : ConfigData → ConfigData) : (s.updCfg f).points = s.points := rfl
@[simp] theorem updCfg_acts (f : ConfigData → ConfigData) : (s.updCfg f).acts = s.acts := rfl
@[simp] theorem updCfg_zones (f : ConfigData → ConfigData) : (s.updCfg f).zones = s.zones := rfl
@[simp] theorem updCfg_disp (f : ConfigData → ConfigData) : (s.updCfg f).disp = s.disp := rfl
@[simp] theorem updCfg_lines (f : ConfigData → ConfigData) : (s.updCfg f).lines = s.lines := rfl
@[simp] theorem updCfg_mgmt (f : ConfigData → ConfigData) : (s.updCfg f).mgmt = s.mgmt := rfl
@[simp] theorem updCfg_acct (f : ConfigData → ConfigData) : (s.updCfg f).acct = s.acct := rfl
@[simp] theorem updCfg_image (f : ConfigData → ConfigData) : (s.updCfg f).image = s.image := rfl
@[simp] theorem updCfg_imageState (f : ConfigData → ConfigData) : (s.updCfg f).imageState = s.imageState := rfl
@[simp] theorem updCfg_configured (f : ConfigData → ConfigData) : (s.updCfg f).configured = s.configured := rfl
@[simp] theorem updCfg_now (f : ConfigData → ConfigData) : (s.updCfg f).now = s.now := rfl
@[simp] theorem updCfg_millis (f : ConfigData → ConfigData) : (s.updCfg f).millis = s.millis := rfl
@[simp] theorem updCfg_pending (f : ConfigData → ConfigData) : (s.updCfg f).pending = s.pending := rfl

/-! ### updZone -/

@[simp] theorem updZone_cfg (z : ZoneIx) (f : ZoneRt → ZoneRt) : (s.updZone z f).cfg = s.cfg := rfl
@[simp] theorem updZone_points (z : ZoneIx) (f : ZoneRt → ZoneRt) : (s.updZone z f).points = s.points := rfl
@[simp] theorem updZone_acts (z : ZoneIx) (f : ZoneRt → ZoneRt) : (s.updZone z f).acts = s.acts := rfl
theorem updZone_zones (z : ZoneIx) (f : ZoneRt → ZoneRt) : (s.updZone z f).zones = s.zones.set z (f s.zones[z]) := rfl
@[simp] theorem updZone_disp (z : ZoneIx) (f : ZoneRt → ZoneRt) : (s.updZone z f).disp = s.disp := rfl
@[simp] theorem updZone_lines (z : ZoneIx) (f : ZoneRt → ZoneRt) : (s.updZone z f).lines = s.lines := rfl
@[simp] theorem updZone_mgmt (z : ZoneIx) (f : ZoneRt → ZoneRt) : (s.updZone z f).mgmt = s.mgmt := rfl
@[simp] theorem updZone_acct (z : ZoneIx) (f : ZoneRt → ZoneRt) : (s.updZone z f).acct = s.acct := rfl
@[simp] theorem updZone_image (z : ZoneIx) (f : ZoneRt → ZoneRt) : (s.updZone z f).image = s.image := rfl
@[simp] theorem updZone_imageState (z : ZoneIx) (f : ZoneRt → ZoneRt) : (s.updZone z f).imageState = s.imageState := rfl
@[simp] theorem updZone_configured (z : ZoneIx) (f : ZoneRt → ZoneRt) : (s.updZone z f).configured = s.configured := rfl
@[simp] theorem updZone_now (z : ZoneIx) (f : ZoneRt → ZoneRt) : (s.updZone z f).now = s.now := rfl
@[simp] theorem updZone_millis (z : ZoneIx) (f : ZoneRt → ZoneRt) : (s.updZone z f).millis = s.millis := rfl
@[simp] theorem updZone_pending (z : ZoneIx) (f : ZoneRt → ZoneRt) : (s.updZone z f).pending = s.pending := rfl

/-! ### updPoint -/

@[simp] theorem updPoint_cfg (p : PointIx) (f : PointRt → PointRt) : (s.updPoint p f).cfg = s.cfg := rfl
theorem updPoint_points (p : PointIx) (f : PointRt → PointRt) : (s.updPoint p f).points = s.points.set p (f s.points[p]) := rfl
@[simp] theorem updPoint_acts (p : PointIx) (f : PointRt → PointRt) : (s.updPoint p f).acts = s.acts := rfl
@[simp] theorem updPoint_zones (p : PointIx) (f : PointRt → PointRt) : (s.updPoint p f).zones = s.zones := rfl
@[simp] theorem updPoint_disp (p : PointIx) (f : PointRt → PointRt) : (s.updPoint p f).disp = s.disp := rfl
@[simp] theorem updPoint_lines (p : PointIx) (f : PointRt → PointRt) : (s.updPoint p f).lines = s.lines := rfl
@[simp] theorem updPoint_mgmt (p : PointIx) (f : PointRt → PointRt) : (s.updPoint p f).mgmt = s.mgmt := rfl
@[simp] theorem updPoint_acct (p : PointIx) (f : PointRt → PointRt) : (s.updPoint p f).acct = s.acct := rfl
@[simp] theorem updPoint_image (p : PointIx) (f : PointRt → PointRt) : (s.updPoint p f).image = s.image := rfl
@[simp] theorem updPoint_imageState (p : PointIx) (f : PointRt → PointRt) : (s.updPoint p f).imageState = s.imageState := rfl
@[simp] theorem updPoint_configured (p : PointIx) (f : PointRt → PointRt) : (s.updPoint p f).configured = s.configured := rfl
@[simp] theorem updPoint_now (p : PointIx) (f : PointRt → PointRt) : (s.updPoint p f).now = s.now := rfl
@[simp] theorem updPoint_millis (p : PointIx) (f : PointRt → PointRt) : (s.updPoint p f).millis = s.millis := rfl
@[simp] theorem updPoint_pending (p : PointIx) (f : PointRt → PointRt) : (s.updPoint p f).pending = s.pending := rfl

/-! ### updAct -/

@[simp] theorem updAct_cfg (a : ActIx) (f : ActRt → ActRt) : (s.updAct a f).cfg = s.cfg := rfl
@[simp] theorem updAct_points (a : ActIx) (f : ActRt → ActRt) : (s.updAct a f).points = s.points := rfl
theorem updAct_acts (a : ActIx) (f : ActRt → ActRt) : (s.updAct a f).acts = s.acts.set a (f s.acts[a]) := rfl
@[simp] theorem updAct_zones (a : ActIx) (f : ActRt → ActRt) : (s.updAct a f).zones = s.zones := rfl
@[simp] theorem updAct_disp (a : ActIx) (f : ActRt → ActRt) : (s.updAct a f).disp = s.disp := rfl
@[simp] theorem updAct_lines (a : ActIx) (f : ActRt → ActRt) : (s.updAct a f).lines = s.lines := rfl
@[simp] theorem updAct_mgmt (a : ActIx) (f : ActRt → ActRt) : (s.updAct a f).mgmt = s.mgmt := rfl
@[simp] theorem updAct_acct (a : ActIx) (f : ActRt → ActRt) : (s.updAct a f).acct = s.acct := rfl
@[simp] theorem updAct_image (a : ActIx) (f : ActRt → ActRt) : (s.updAct a f).image = s.image := rfl
@[simp] theorem updAct_imageState (a : ActIx) (f : ActRt → ActRt) : (s.updAct a f).imageState = s.imageState := rfl
@[simp] theorem updAct_configured (a : ActIx) (f : ActRt → ActRt) : (s.updAct a f).configured = s.configured := rfl
@[simp] theorem updAct_now (a : ActIx) (f : ActRt → ActRt) : (s.updAct a f).now = s.now := rfl
@[simp] theorem updAct_millis (a : ActIx) (f : ActRt → ActRt) : (s.updAct a f).millis = s.millis := rfl
@[simp] theorem updAct_pending (a : ActIx) (f : ActRt → ActRt) : (s.updAct a f).pending = s.pending := rfl

/-! ### updates of a part of a record -/

theorem updPart_eq (f : PartRecord → PartRecord) :
    s.updPart f = s.updCfg fun c => { c with part := f c.part } := rfl
theorem updCover_eq (z : ZoneIx) (f : CoverRt → CoverRt) :
    s.updCover z f = s.updZone z fun r => { r with cover := f r.cover } := rfl
theorem updPurge_eq (z : ZoneIx) (f : PurgeRt → PurgeRt) :
    s.updPurge z f = s.updZone z fun r => { r with purge := f r.purge } := rfl
theorem updScene_eq (z : ZoneIx) (f : SceneRt → SceneRt) :
    s.updScene z f = s.updZone z fun r => { r with scene := f r.scene } := rfl
theorem updArb_eq (z : ZoneIx) (f : ArbRt → ArbRt) :
    s.updArb z f = s.updZone z fun r => { r with arb := f r.arb } := rfl
theorem updEval_eq (z : ZoneIx) (f : EvalRt → EvalRt) :
    s.updEval z f = s.updZone z fun r => { r with eval := f r.eval } := rfl
theorem updHeat_eq (z : ZoneIx) (f : HeatRt → HeatRt) :
    s.updHeat z f = s.updZone z fun r => { r with heat := f r.heat } := rfl

/-! ### reading back what was set -/

@[simp] theorem updZone_same (z : ZoneIx) (f : ZoneRt → ZoneRt) : (s.updZone z f).zones[z] = f s.zones[z] := by
  simp [updZone]

theorem updZone_other {z w : ZoneIx} (h : w ≠ z) (f : ZoneRt → ZoneRt) : (s.updZone z f).zones[w] = s.zones[w] := by
  have : (z : Nat) ≠ w := fun e => h (Fin.ext e.symm)
  simp [updZone, this]

@[simp] theorem updAct_same (a : ActIx) (f : ActRt → ActRt) : (s.updAct a f).acts[a] = f s.acts[a] := by
  simp [updAct]

theorem updAct_other {a b : ActIx} (h : b ≠ a) (f : ActRt → ActRt) : (s.updAct a f).acts[b] = s.acts[b] := by
  have : (a : Nat) ≠ b := fun e => h (Fin.ext e.symm)
  simp [updAct, this]

@[simp] theorem updPoint_same (p : PointIx) (f : PointRt → PointRt) : (s.updPoint p f).points[p] = f s.points[p] := by
  simp [updPoint]

theorem updPoint_other {p q : PointIx} (h : q ≠ p) (f : PointRt → PointRt) : (s.updPoint p f).points[q] = s.points[q] := by
  have : (p : Nat) ≠ q := fun e => h (Fin.ext e.symm)
  simp [updPoint, this]

end Sys2Proof.Machine.State
end

