-- ==== Sys2Proof/Laws/Work.lean ====
section
/-! SUPPORT. Every operation of the zone blocks and the dispatcher is zone work: one lemma per operation. -/

namespace Sys2Proof.Machine

variable {zs : ZoneIx → Prop} {s t u : State}

/-! ### The relation -/

theorem SameButQueued.refl (r : ActRt) : SameButQueued r r := ⟨rfl, Iff.rfl⟩

theorem SameButQueued.trans {r₁ r₂ r₃ : ActRt} (h₁ : SameButQueued r₁ r₂) (h₂ : SameButQueued r₂ r₃) :
    SameButQueued r₁ r₃ where
  record := by
    have h := h₂.record
    rw [h₁.record] at h
    exact h
  flight := h₂.flight.trans h₁.flight

theorem ZoneWork.refl (zs : ZoneIx → Prop) (s : State) : ZoneWork zs s s := by
  constructor <;> first | rfl | (intros; rfl) | exact id | exact fun _ => .refl _

theorem ZoneWork.zoneOf (h : ZoneWork zs s t) (a : ActIx) : (t.cfg.acts[a]).zone = (s.cfg.acts[a]).zone := by
  rw [h.cfg]

theorem ZoneWork.acts (h : ZoneWork zs s t) : t.cfg.acts = s.cfg.acts := by rw [h.cfg]

theorem ZoneWork.zonesCfg (h : ZoneWork zs s t) : t.cfg.zones = s.cfg.zones := by rw [h.cfg]

theorem ZoneWork.pointsCfg (h : ZoneWork zs s t) : t.cfg.points = s.cfg.points := by rw [h.cfg]

theorem ZoneWork.trans (h₁ : ZoneWork zs s t) (h₂ : ZoneWork zs t u) : ZoneWork zs s u where
  points := h₂.points.trans h₁.points
  lines := h₂.lines.trans h₁.lines
  image := h₂.image.trans h₁.image
  imageState := h₂.imageState.trans h₁.imageState
  configured := h₂.configured.trans h₁.configured
  now := h₂.now.trans h₁.now
  millis := h₂.millis.trans h₁.millis
  pending := h₂.pending.trans h₁.pending
  cfg := by
    have h := h₂.cfg
    rw [h₁.cfg] at h
    exact h
  mgmt := by
    have h := h₂.mgmt
    rw [h₁.mgmt] at h
    exact h
  disp := by
    have h := h₂.disp
    rw [h₁.disp] at h
    exact h
  trunkReadOut := h₂.trunkReadOut.trans h₁.trunkReadOut
  serviceReadOut := h₂.serviceReadOut.trans h₁.serviceReadOut
  eval := fun z => (h₂.eval z).trans (h₁.eval z)
  heat := fun z => (h₂.heat z).trans (h₁.heat z)
  zone := fun z hz => (h₂.zone z hz).trans (h₁.zone z hz)
  act := fun a ha => (h₂.act a (by rw [h₁.zoneOf]; exact ha)).trans (h₁.act a ha)
  record := fun a => (h₁.record a).trans (h₂.record a)
  bounds := h₂.bounds ∘ h₁.bounds

theorem ZoneWork.mono {zs' : ZoneIx → Prop} (hsub : ∀ z, zs z → zs' z) (h : ZoneWork zs s t) : ZoneWork zs' s t :=
  { h with zone := fun z hz => h.zone z fun hz' => hz (hsub z hz'), act := fun a ha => h.act a fun ha' => ha (hsub _ ha') }

theorem ZoneWork.any (h : ZoneWork zs s t) : AnyZoneWork s t := h.mono fun _ _ => trivial

theorem ZoneWork.foldl {α : Type} (f : State → α → State) (l : List α) :
    (∀ s a, a ∈ l → ZoneWork zs s (f s a)) → ∀ s, ZoneWork zs s (l.foldl f s) := by
  induction l with
  | nil => intro _ s; exact .refl _ s
  | cons a l ih =>
    intro h s
    exact (h s a (List.mem_cons_self ..)).trans (ih (fun s b hb => h s b (List.mem_cons_of_mem _ hb)) _)

/-- A fold whose steps are work as long as the configuration's actuators stand. -/
theorem ZoneWork.foldl_of {α : Type} (p : State → α → Prop) (f : State → α → State) (l : List α)
    (hp : ∀ s t a, ZoneWork zs s t → p s a → p t a) (h : ∀ s a, p s a → ZoneWork zs s (f s a)) :
    ∀ s, (∀ a ∈ l, p s a) → ZoneWork zs s (l.foldl f s) := by
  induction l with
  | nil => intro s _; exact .refl _ s
  | cons a l ih =>
    intro s hl
    have h₁ := h s a (hl a (List.mem_cons_self ..))
    exact h₁.trans (ih _ fun b hb => hp s _ b h₁ (hl b (List.mem_cons_of_mem _ hb)))

/-! ### Single updates -/

theorem zoneWork_updZone (z : ZoneIx) (f : ZoneRt → ZoneRt) (hz : zs z) (he : (f s.zones[z]).eval = (s.zones[z]).eval)
    (hh : (f s.zones[z]).heat = (s.zones[z]).heat) : ZoneWork zs s (s.updZone z f) := by
  constructor <;> try first | rfl | (intros; rfl) | exact fun _ => .refl _
  case eval =>
    intro w
    by_cases hw : w = z
    · subst hw; rw [State.updZone_same]; exact he
    · rw [State.updZone_other s hw]
  case heat =>
    intro w
    by_cases hw : w = z
    · subst hw; rw [State.updZone_same]; exact hh
    · rw [State.updZone_other s hw]
  case zone =>
    intro w hw
    exact State.updZone_other s (fun e : w = z => hw (e ▸ hz)) f
  case bounds => exact fun h => ⟨h.notices, h.captures, h.ring⟩

theorem zoneWork_updAct (a : ActIx) (f : ActRt → ActRt) (hz : zs (s.cfg.acts[a]).zone)
    (hr : SameButQueued s.acts[a] (f s.acts[a])) : ZoneWork zs s (s.updAct a f) := by
  constructor <;> try first | rfl | (intros; rfl)
  case act =>
    intro b hb
    exact State.updAct_other s (fun e : b = a => hb (e ▸ hz)) f
  case record =>
    intro b
    by_cases hb : b = a
    · subst hb; rw [State.updAct_same]; exact hr
    · rw [State.updAct_other s hb]; exact .refl _
  case bounds => exact fun h => ⟨h.notices, h.captures, h.ring⟩

theorem zoneWork_updDisp (f : Dispatcher → Dispatcher) (h : f s.disp = { s.disp with queues := (f s.disp).queues }) :
    ZoneWork zs s (s.updDisp f) := by
  constructor <;> try first | rfl | (intros; rfl) | exact h | exact fun _ => .refl _
  case bounds => exact fun h => ⟨h.notices, h.captures, h.ring⟩

/-- Work carries over to states in which the outstanding table and the records of some actuators are changed alike. -/
theorem ZoneWork.updDisp (h : ZoneWork zs s t) (f : Dispatcher → Dispatcher)
    (hf : ∀ d q, f { d with queues := q } = { f d with queues := q }) : ZoneWork zs (s.updDisp f) (t.updDisp f) :=
  { h with
    disp := by
      show f t.disp = { f s.disp with queues := (f t.disp).queues }
      rw [h.disp, hf]
    bounds := fun hb => let b := h.bounds ⟨hb.notices, hb.captures, hb.ring⟩; ⟨b.notices, b.captures, b.ring⟩ }

theorem ZoneWork.updAct (h : ZoneWork zs s t) (a : ActIx) (f : ActRt → ActRt) (hz : zs (s.cfg.acts[a]).zone)
    (hf : ∀ r r', SameButQueued r r' → SameButQueued (f r) (f r')) : ZoneWork zs (s.updAct a f) (t.updAct a f) :=
  { h with
    act := fun b hb => by
      have : b ≠ a := fun e => hb (e ▸ hz)
      rw [State.updAct_other t this, State.updAct_other s this]
      exact h.act b hb
    record := fun b => by
      by_cases hb : b = a
      · subst hb; rw [State.updAct_same, State.updAct_same]; exact hf _ _ (h.record b)
      · rw [State.updAct_other t hb, State.updAct_other s hb]; exact h.record b
    bounds := fun hb => let b := h.bounds ⟨hb.notices, hb.captures, hb.ring⟩; ⟨b.notices, b.captures, b.ring⟩ }

theorem zoneWork_updAcct (f : Accounting → Accounting) (ht : (f s.acct).trunkReadOut = s.acct.trunkReadOut)
    (hr : (f s.acct).serviceReadOut = s.acct.serviceReadOut)
    (hc : s.acct.captures.length ≤ 32 → (f s.acct).captures.length ≤ 32)
    (hl : s.acct.ring.length ≤ 16 → (f s.acct).ring.length ≤ 16) : ZoneWork zs s (s.updAcct f) := by
  constructor <;> try first | rfl | (intros; rfl) | exact fun _ => .refl _ | assumption
  case bounds => exact fun h => ⟨h.notices, hc h.captures, hl h.ring⟩

theorem zoneWork_updMgmt (f : Management → Management)
    (h : f s.mgmt = { s.mgmt with notices := (f s.mgmt).notices, flags := (f s.mgmt).flags })
    (hn : s.mgmt.notices.length ≤ 8 → (f s.mgmt).notices.length ≤ 8) : ZoneWork zs s (s.updMgmt f) := by
  constructor <;> try first | rfl | (intros; rfl) | exact fun _ => .refl _ | assumption
  case bounds => exact fun h => ⟨hn h.notices, h.captures, h.ring⟩

theorem zoneWork_updCfg (f : ConfigData → ConfigData)
    (h : f s.cfg = { s.cfg with part := { s.cfg.part with run := (f s.cfg).part.run }, watches := (f s.cfg).watches }) :
    ZoneWork zs s (s.updCfg f) := by
  constructor <;> try first | rfl | (intros; rfl) | exact fun _ => .refl _ | assumption
  case bounds => exact fun h => ⟨h.notices, h.captures, h.ring⟩

/-! ### Ops -/

theorem zoneWork_setNoticeLost (s : State) : ZoneWork zs s s.setNoticeLost := zoneWork_updMgmt _ rfl id
theorem zoneWork_setCaptureFull (s : State) : ZoneWork zs s s.setCaptureFull := zoneWork_updMgmt _ rfl id

theorem zoneWork_raise (s : State) (k : NoticeKind) (z : Byte) (d : List Byte) : ZoneWork zs s (s.raise k z d) := by
  unfold State.raise
  split
  · exact zoneWork_updMgmt _ rfl (by simp; omega)
  · exact zoneWork_setNoticeLost s

theorem zoneWork_appendRing (s : State) (z : ZoneIx) (e : RingEntry) : ZoneWork zs s (s.appendRing z e) := by
  unfold State.appendRing
  split
  · exact .refl _ s
  · refine zoneWork_updAcct _ rfl rfl id ?_
    intro h
    dsimp only
    split <;> simp <;> omega

theorem zoneWork_captureThreshold (s : State) : ZoneWork zs s s.captureThreshold := by
  unfold State.captureThreshold
  split
  · exact (zoneWork_updAcct _ rfl rfl id id).trans (zoneWork_raise ..)
  · exact .refl _ s

theorem zoneWork_storeCapture (s : State) (r : CaptureRecord) : ZoneWork zs s (s.storeCapture r) := by
  unfold State.storeCapture
  split
  · exact (zoneWork_updAcct _ rfl rfl (by simp; omega) id).trans (zoneWork_captureThreshold _)
  · split
    · exact zoneWork_updAcct _ rfl rfl (by simp; omega) id
    · exact zoneWork_setCaptureFull s

theorem zoneWork_capture (s : State) (z : ZoneIx) (r : CaptureReason) : ZoneWork zs s (s.capture z r) := by
  unfold State.capture
  dsimp only
  split
  · exact (zoneWork_storeCapture ..).trans (zoneWork_updAcct _ rfl rfl id id)
  · exact zoneWork_storeCapture ..

theorem zoneWork_setAcc (s : State) (z : ZoneIx) (a : AccIx) (x : Accumulator) : ZoneWork zs s (s.setAcc z a x) :=
  zoneWork_updAcct _ rfl rfl id id

theorem zoneWork_accOverflow (s : State) (z : ZoneIx) (a : AccIx) (v : BitVec 32) (hz : zs z) :
    ZoneWork zs s (s.accOverflow z a v) := by
  unfold State.accOverflow
  dsimp only
  have h₁ := zoneWork_raise (zs := zs) s .accOverflow (zoneByte z) (byteField a.val ++ wordField v)
  have h₂ (t : State) (b : Bool) : ZoneWork zs t (if b then t.updPart fun p => { p with run := false } else t) := by
    split
    · exact zoneWork_updCfg _ rfl
    · exact .refl _ t
  have h₃ (t : State) (b : Bool) : ZoneWork zs t (if b then
      t.updZone z fun r => { r with arming := match r.arming with | some first => some first | none => some a } else t) := by
    split
    · exact zoneWork_updZone z _ hz rfl rfl
    · exact .refl _ t
  exact (h₁.trans (h₂ _ _)).trans (h₃ _ _)

theorem zoneWork_offer (s : State) (z : ZoneIx) (a : AccIx) (n : Nat) (hz : zs z) : ZoneWork zs s (s.offer z a n) := by
  unfold State.offer
  split
  · dsimp only
    split
    · exact zoneWork_setAcc ..
    · exact (zoneWork_setAcc ..).trans (zoneWork_accOverflow _ z a _ hz)
  · exact .refl _ s

/-! ### The dispatcher -/

theorem zoneWork_join (s : State) (a : ActIx) (hz : zs (s.cfg.acts[a]).zone) : ZoneWork zs s (s.join a) := by
  unfold State.join
  split
  · exact .refl _ s
  · split
    · rename_i h
      refine (zoneWork_updDisp _ rfl).trans (zoneWork_updAct a _ hz ⟨rfl, ?_⟩)
      unfold State.eligible at h
      simp only [Bool.and_eq_true, beq_iff_eq] at h
      have hi := h.1.1.1.1.2
      show DispatchState.queued = .inFlight ↔ (s.acts[a]).dispatch = .inFlight
      rw [hi]
      exact ⟨(fun e => nomatch e), (fun e => nomatch e)⟩
    · exact .refl _ s

theorem zoneWork_unqueue (s : State) (a : ActIx) (hz : zs (s.cfg.acts[a]).zone) : ZoneWork zs s (s.unqueue a) := by
  unfold State.unqueue
  split
  · exact .refl _ s
  · split
    · rename_i h
      refine (zoneWork_updDisp _ rfl).trans (zoneWork_updAct a _ hz ⟨rfl, ?_⟩)
      show DispatchState.idle = .inFlight ↔ (s.acts[a]).dispatch = .inFlight
      rw [beq_iff_eq.mp h]
      exact ⟨(fun e => nomatch e), (fun e => nomatch e)⟩
    · exact .refl _ s

theorem sameButQueued_request (r : ActRt) (c : ActCfg) (v : Int) : SameButQueued r (r.request c v) := by
  unfold ActRt.request
  dsimp only
  split
  · exact ⟨rfl, Iff.rfl⟩
  all_goals split <;> exact ⟨rfl, Iff.rfl⟩

theorem zoneWork_jobRequest (s : State) (k : ActKind) (z : ZoneIx) (a : ActIx) (v : Int) (hz : zs z) :
    ZoneWork zs s (s.jobRequest k z a v) := by
  unfold State.jobRequest
  dsimp only
  split
  · rename_i h
    have hz' : zs (s.cfg.acts[a]).zone := by
      simp only [Bool.and_eq_true, beq_iff_eq] at h
      rw [h.2]; exact hz
    exact (zoneWork_updAct a _ hz' (sameButQueued_request ..)).trans (zoneWork_join _ a hz')
  · exact .refl _ s

theorem zoneWork_requestAll (s : State) (k : ActKind) (z : ZoneIx) (v : ActCfg → Int) (hz : zs z) :
    ZoneWork zs s (s.requestAll k z v) :=
  ZoneWork.foldl _ _ (fun s a _ => zoneWork_jobRequest s k z a _ hz) s

theorem zoneWork_raiseActuator (s : State) (k : NoticeKind) (a : ActIx) (v : Int) :
    ZoneWork zs s (s.raiseActuator k a v) := zoneWork_raise ..

/-! ### Commands that end, overrides, controls: work on a record that has been changed -/

theorem updAct_updAct (s : State) (a : ActIx) (f g : ActRt → ActRt) :
    (s.updAct a f).updAct a g = s.updAct a fun r => g (f r) := by
  unfold State.updAct
  simp

theorem updAct_congr (s : State) (a : ActIx) (f g : ActRt → ActRt) (h : f s.acts[a] = g s.acts[a]) :
    s.updAct a f = s.updAct a g := by
  unfold State.updAct
  rw [h]

theorem zoneWork_raiseIf (s : State) (b : Bool) (k : NoticeKind) (a : ActIx) (v : Int) :
    ZoneWork zs s (if b then s.raiseActuator k a v else s) := by
  split
  · exact zoneWork_raiseActuator ..
  · exact .refl _ s

/-- The effect of an outcome is the record of R138 and R140, with notices and the account of timeouts. -/
theorem zoneWork_applyOutcome (s : State) (a : ActIx) (v : Int) (o : CommandOutcome) (hz : zs (s.cfg.acts[a]).zone) :
    ZoneWork zs (s.updAct a fun r => r.afterOutcome (s.cfg.acts[a]) v o) (s.applyOutcome a v o) := by
  cases o
  · exact zoneWork_raiseIf ..
  · unfold State.applyOutcome State.ackRefusedHand
    dsimp only
    split
    · exact .refl _ _
    · exact zoneWork_raiseActuator ..
  · unfold State.applyOutcome State.ackRefusedRange
    dsimp only
    exact (zoneWork_raiseActuator ..).trans (zoneWork_raiseIf ..)
  · unfold State.applyOutcome State.commandTimeout
    dsimp only
    have h₁ : ZoneWork zs (s.updAct a fun r => { r with timeouts := min 3 (r.timeouts + 1) })
        ((s.updAct a fun r => { r with timeouts := min 3 (r.timeouts + 1) }).offer (s.cfg.acts[a]).zone accTimeouts 1) :=
      zoneWork_offer _ _ accTimeouts 1 hz
    have h₂ := h₁.updAct a (fun r => { r with needsSend := r.needsSend || r.requested.isSome }) hz
      (fun r r' h => ⟨by have e := h.record; rw [e], h.flight⟩)
    have ht : (s.acts[a].afterOutcome (s.cfg.acts[a]) v .timeout).timeouts = min 3 ((s.acts[a]).timeouts + 1) := rfl
    generalize ((s.updAct a fun r => { r with timeouts := min 3 (r.timeouts + 1) }).offer (s.cfg.acts[a]).zone accTimeouts 1).updAct
      a (fun r => { r with needsSend := r.needsSend || r.requested.isSome }) = t at h₂
    rw [updAct_updAct] at h₂
    have hto : (t.acts[a]).timeouts = min 3 ((s.acts[a]).timeouts + 1) := by
      rw [(h₂.record a).record, State.updAct_same]
    rw [hto]
    split
    · rename_i h3
      have h₃ := h₂.updAct a (fun r => { r with retryTimer := .seconds 30, health := .unresponsive }) hz
        (fun r r' h => ⟨by have e := h.record; rw [e], h.flight⟩)
      rw [updAct_updAct] at h₃
      rw [updAct_congr s a (fun r => r.afterOutcome (s.cfg.acts[a]) v .timeout)
        (fun r => { r with
          timeouts := min 3 (r.timeouts + 1), needsSend := r.needsSend || r.requested.isSome
          retryTimer := .seconds 30, health := .unresponsive })
        (by unfold ActRt.afterOutcome; dsimp only; rw [if_pos h3, if_pos h3]; rfl)]
      split
      · exact h₃
      · exact h₃.trans (zoneWork_raiseActuator ..)
    · rename_i h3
      rw [updAct_congr s a (fun r => r.afterOutcome (s.cfg.acts[a]) v .timeout)
        (fun r => { r with timeouts := min 3 (r.timeouts + 1), needsSend := r.needsSend || r.requested.isSome })
        (by unfold ActRt.afterOutcome; dsimp only; rw [if_neg h3, if_neg h3])]
      exact h₂

/-- A command's end is its entry freed and its record changed, with what follows from the outcome. -/
theorem zoneWork_freeCommand (s t : State) (o : Outstanding) (outcome : CommandOutcome)
    (h : ZoneWork zs (s.updAct o.act fun r => r.afterOutcome (s.cfg.acts[o.act]) o.value outcome) t)
    (hz : zs (s.cfg.acts[o.act]).zone) : ZoneWork zs (s.commandEnded o outcome) (t.freeCommand o.act o.tag) := by
  unfold State.freeCommand State.commandEnded State.freed
  dsimp only
  have h₁ := (h.updDisp (fun d => { d with outstanding := d.outstanding.filter fun x => x.tag != o.tag })
    (fun _ _ => rfl)).updAct o.act ActRt.freed hz (fun r r' h => ⟨by have e := h.record; rw [e]; rfl, Iff.rfl⟩)
  have e : ((s.updAct o.act fun r => r.afterOutcome (s.cfg.acts[o.act]) o.value outcome).updDisp fun d =>
      { d with outstanding := d.outstanding.filter fun x => x.tag != o.tag }).updAct o.act ActRt.freed =
      (s.updDisp fun d => { d with outstanding := d.outstanding.filter fun x => x.tag != o.tag }).updAct o.act fun r =>
        (r.afterOutcome (s.cfg.acts[o.act]) o.value outcome).freed := by
    exact (updAct_updAct (s.updDisp fun d => { d with outstanding := d.outstanding.filter fun x => x.tag != o.tag }) o.act
      (fun r => r.afterOutcome (s.cfg.acts[o.act]) o.value outcome) ActRt.freed)
  rw [e] at h₁
  exact h₁.trans (zoneWork_join _ o.act (by rw [h₁.zoneOf]; exact hz))

theorem zoneWork_overrideEffect (s : State) (a : ActIx) (hz : zs (s.cfg.acts[a]).zone)
    (hc : (s.acts[a]).control = .enabled ∨ (s.acts[a]).control = .overridden) :
    ZoneWork zs (s.updAct a fun r =>
      { r with control := .overridden, overrideTimer := .running ((s.cfg.acts[a]).overrideHold * 60 * 1000) })
      (s.overrideEffect a).1 := by
  unfold State.overrideEffect
  dsimp only
  split <;> rename_i h
  · exact (zoneWork_unqueue s a hz).updAct a _ hz (fun r r' h => ⟨by have e := h.record; rw [e], h.flight⟩)
  · rw [updAct_congr s a _ (fun r => { r with overrideTimer := Timer.seconds ((s.cfg.acts[a]).overrideHold * 60) })
      (by rw [← h]; rfl)]
    exact .refl _ _
  all_goals rw [h] at hc; rcases hc with hc | hc <;> cases hc

theorem zoneWork_disableActuator (s : State) (a : ActIx) (hz : zs (s.cfg.acts[a]).zone)
    (hc : (s.acts[a]).control = .enabled ∨ (s.acts[a]).control = .overridden) :
    ZoneWork zs (s.updAct a ActRt.disabled) (s.disableActuator a).1 := by
  unfold State.disableActuator
  dsimp only
  have h := (zoneWork_unqueue s a hz).updAct a ActRt.disabled hz (fun r r' h =>
    ⟨by have e := h.record; unfold ActRt.disabled; rw [if_congr h.flight rfl rfl, e], h.flight⟩)
  split <;> rename_i hcc
  · exact h
  · exact h
  all_goals rw [hcc] at hc; rcases hc with hc | hc <;> cases hc

theorem mem_zoneActuators {s : State} {z : ZoneIx} {a : ActIx} (h : a ∈ s.zoneActuators z) : (s.cfg.acts[a]).zone = z := by
  unfold State.zoneActuators at h
  simp only [List.mem_filter, Bool.and_eq_true, beq_iff_eq] at h
  exact h.2.2

theorem zoneWork_foldActs (f : State → ActIx → State)
    (h : ∀ (s : State) a, zs (s.cfg.acts[a]).zone → ZoneWork zs s (f s a)) (s : State) (l : List ActIx)
    (hl : ∀ a ∈ l, zs (s.cfg.acts[a]).zone) : ZoneWork zs s (l.foldl f s) :=
  ZoneWork.foldl_of (fun s a => zs (s.cfg.acts[a]).zone) f l
    (fun _ _ a hw hp => (congrArg zs (hw.zoneOf a)).mpr hp) h s hl

theorem zoneWork_dispatcherClearHold (s : State) (z : ZoneIx) (hz : zs z) : ZoneWork zs s (s.dispatcherClearHold z) :=
  zoneWork_foldActs _ (fun s a h => zoneWork_join s a h) s _ fun _ ha => by rw [mem_zoneActuators ha]; exact hz

theorem getElem_changeAll (v : Vector ActRt 96) (l : List ActIx) (f : ActRt → ActRt) (a : ActIx) :
    (changeAll v l f)[a] = if a ∈ l then f v[a] else v[a] := by
  unfold changeAll
  simp

theorem changeAll_nil (v : Vector ActRt 96) (f : ActRt → ActRt) : changeAll v [] f = v := by
  apply Vector.ext
  intro i hi
  exact (getElem_changeAll v [] f ⟨i, hi⟩).trans (if_neg (List.not_mem_nil))

theorem changeAll_cons (v : Vector ActRt 96) (a : ActIx) (l : List ActIx) (f : ActRt → ActRt) (ha : a ∉ l) :
    changeAll (v.set a (f v[a])) l f = changeAll v (a :: l) f := by
  apply Vector.ext
  intro i hi
  refine (getElem_changeAll _ l f ⟨i, hi⟩).trans (Eq.trans ?_ (getElem_changeAll v (a :: l) f ⟨i, hi⟩).symm)
  by_cases hia : a.val = i
  · subst hia
    simp [ha]
  · have : (⟨i, hi⟩ : ActIx) ≠ a := fun e => hia (by rw [← e])
    simp [hia, this]

theorem updActs_acts (s : State) (l : List ActIx) (f : ActRt → ActRt) (a : ActIx) :
    (s.updActs l f).acts[a] = if a ∈ l then f s.acts[a] else s.acts[a] := getElem_changeAll s.acts l f a

theorem updActs_cons (s : State) (a : ActIx) (l : List ActIx) (f : ActRt → ActRt) (ha : a ∉ l) :
    (s.updAct a f).updActs l f = s.updActs (a :: l) f := by
  have := changeAll_cons s.acts a l f ha
  unfold State.updActs
  rw [← this]
  rfl

theorem ZoneWork.updActs (h : ZoneWork zs s t) (l : List ActIx) (f : ActRt → ActRt)
    (hl : ∀ a ∈ l, zs (s.cfg.acts[a]).zone)
    (hf : ∀ r r', SameButQueued r r' → SameButQueued (f r) (f r')) : ZoneWork zs (s.updActs l f) (t.updActs l f) :=
  { h with
    act := fun b hb => by
      have : b ∉ l := fun e => hb (hl b e)
      rw [updActs_acts, updActs_acts, if_neg this, if_neg this]
      exact h.act b hb
    record := fun b => by
      rw [updActs_acts, updActs_acts]
      split
      · exact hf _ _ (h.record b)
      · exact h.record b
    bounds := fun hb => let b := h.bounds ⟨hb.notices, hb.captures, hb.ring⟩; ⟨b.notices, b.captures, b.ring⟩ }

/-- A fold that changes the records of a list of actuators one by one. -/
theorem zoneWork_foldRecords (f : ActRt → ActRt) (g : State → ActIx → State)
    (hf : ∀ r r', SameButQueued r r' → SameButQueued (f r) (f r'))
    (h : ∀ (s : State) a, zs (s.cfg.acts[a]).zone → ZoneWork zs (s.updAct a f) (g s a)) (l : List ActIx) (hn : l.Nodup) :
    ∀ s : State, (∀ a ∈ l, zs (s.cfg.acts[a]).zone) → ZoneWork zs (s.updActs l f) (l.foldl g s) := by
  induction l with
  | nil =>
    intro s _
    have : s.updActs [] f = s := by unfold State.updActs; rw [changeAll_nil]
    rw [this]
    exact .refl _ s
  | cons a l ih =>
    intro s hl
    have hz := hl a (List.mem_cons_self ..)
    have h₁ := h s a hz
    have hl' : ∀ b ∈ l, zs (s.cfg.acts[b]).zone := fun b hb => hl b (List.mem_cons_of_mem _ hb)
    have h₂ := ih (List.nodup_cons.mp hn).2 (g s a) (fun b hb => by rw [h₁.zoneOf]; exact hl' b hb)
    have h₃ := h₁.updActs l f hl' hf
    rw [updActs_cons s a l f (List.nodup_cons.mp hn).1] at h₃
    exact h₃.trans h₂

theorem sameButQueued_zoneDisabled (r r' : ActRt) (h : SameButQueued r r') : SameButQueued r.zoneDisabled r'.zoneDisabled := by
  have e := h.record
  have hc : r'.control = r.control := by rw [e]
  unfold ActRt.zoneDisabled
  rw [hc]
  split
  · exact ⟨by rw [e], h.flight⟩
  · exact ⟨by rw [e], h.flight⟩

theorem zoneWork_zoneDisableActuator (s : State) (a : ActIx) (hz : zs (s.cfg.acts[a]).zone) :
    ZoneWork zs (s.updAct a ActRt.zoneDisabled) (s.zoneDisableActuator a) := by
  unfold State.zoneDisableActuator
  exact (zoneWork_unqueue s a hz).updAct a ActRt.zoneDisabled hz sameButQueued_zoneDisabled

theorem zoneActuators_nodup (s : State) (z : ZoneIx) : (s.zoneActuators z).Nodup :=
  (List.nodup_finRange 96).filter _

theorem zoneWork_dispatcherDisable (s : State) (z : ZoneIx) (hz : zs z) :
    ZoneWork zs (s.updActs (s.actuatorsOf z) ActRt.zoneDisabled) (s.dispatcherDisable z) :=
  zoneWork_foldRecords _ _ sameButQueued_zoneDisabled (fun s a h => zoneWork_zoneDisableActuator s a h) _
    (zoneActuators_nodup s z) s fun _ ha => by rw [mem_zoneActuators ha]; exact hz

theorem sameButQueued_zoneEnabled (r r' : ActRt) (h : SameButQueued r r') : SameButQueued r.zoneEnabled r'.zoneEnabled := by
  refine ⟨?_, h.flight⟩
  have e := h.record
  unfold ActRt.zoneEnabled
  rw [e]

theorem zoneWork_dispatcherEnable (s : State) (z : ZoneIx) (hz : zs z) :
    ZoneWork zs (s.updActs (s.actuatorsOf z) ActRt.zoneEnabled) (s.dispatcherEnable z) :=
  zoneWork_foldRecords ActRt.zoneEnabled _ sameButQueued_zoneEnabled
    (fun s a _ => ZoneWork.refl zs (s.updAct a ActRt.zoneEnabled)) _ (zoneActuators_nodup s z) s
    fun a ha => by rw [mem_zoneActuators ha]; exact hz

/-! ### The purge timer and the arbiter -/

theorem zoneWork_updPurge (s : State) (z : ZoneIx) (f : PurgeRt → PurgeRt) (hz : zs z) : ZoneWork zs s (s.updPurge z f) :=
  zoneWork_updZone z _ hz rfl rfl

theorem zoneWork_updArb (s : State) (z : ZoneIx) (f : ArbRt → ArbRt) (hz : zs z) : ZoneWork zs s (s.updArb z f) :=
  zoneWork_updZone z _ hz rfl rfl

theorem zoneWork_updCover (s : State) (z : ZoneIx) (f : CoverRt → CoverRt) (hz : zs z) : ZoneWork zs s (s.updCover z f) :=
  zoneWork_updZone z _ hz rfl rfl

theorem zoneWork_updScene (s : State) (z : ZoneIx) (f : SceneRt → SceneRt) (hz : zs z) : ZoneWork zs s (s.updScene z f) :=
  zoneWork_updZone z _ hz rfl rfl

theorem zoneWork_requestFans (s : State) (z : ZoneIx) (v : Int) (hz : zs z) : ZoneWork zs s (s.requestFans z v) :=
  zoneWork_requestAll s _ z _ hz

theorem zoneWork_purgeEnterWait (s : State) (z : ZoneIx) (hz : zs z) : ZoneWork zs s (s.purgeEnterWait z) :=
  zoneWork_updPurge s z _ hz

theorem zoneWork_purgeGranted (s : State) (z : ZoneIx) (hz : zs z) : ZoneWork zs s (s.purgeGranted z) := by
  unfold State.purgeGranted
  dsimp only
  exact (zoneWork_updPurge s z _ hz).trans (zoneWork_requestFans _ z _ hz)

theorem zoneWork_purgeLeaveRun (s : State) (z : ZoneIx) (hz : zs z) : ZoneWork zs s (s.purgeLeaveRun z) := by
  unfold State.purgeLeaveRun
  dsimp only
  exact ((zoneWork_requestFans s z 0 hz).trans (zoneWork_offer _ z _ _ hz)).trans (zoneWork_updPurge _ z _ hz)

theorem zoneWork_purgeWithdrawn (s : State) (z : ZoneIx) (hz : zs z) : ZoneWork zs s (s.purgeWithdrawn z) := by
  unfold State.purgeWithdrawn
  dsimp only
  have h := zoneWork_purgeLeaveRun s z hz
  split
  · split
    · exact h.trans (zoneWork_purgeEnterWait _ z hz)
    · exact h.trans (zoneWork_updPurge _ z _ hz)
  · exact .refl _ s

theorem zoneWork_tellPurge (s : State) (z : ZoneIx) (l g : Mode) (hz : zs z) : ZoneWork zs s (s.tellPurge z l g) := by
  unfold State.tellPurge
  dsimp only
  split
  · exact zoneWork_purgeGranted s z hz
  · split
    · exact zoneWork_purgeWithdrawn s z hz
    · exact .refl _ s

theorem zoneWork_changeMode (s : State) (z : ZoneIx) (m : Mode) (c : ModeCause) (hz : zs z) :
    ZoneWork zs s (s.changeMode z m c) := by
  unfold State.changeMode
  dsimp only
  exact ((zoneWork_updArb s z _ hz).trans (zoneWork_appendRing ..)).trans (zoneWork_tellPurge _ z _ _ hz)

theorem zoneWork_airRequest (s : State) (z : ZoneIx) (m : Mode) (n : Bool) (d : Int) (a : ActIx) (hz : zs z) :
    ZoneWork zs s (s.airRequest z m n d a) := by
  unfold State.airRequest
  dsimp only
  split <;> first | with_reducible exact zoneWork_jobRequest s _ z a _ hz | with_reducible exact .refl _ s

theorem zoneWork_airOutputs (s : State) (z : ZoneIx) (hz : zs z) : ZoneWork zs s (s.airOutputs z) :=
  ZoneWork.foldl _ _ (fun s a _ => zoneWork_airRequest s z _ _ _ a hz) s

theorem zoneWork_arbitrateMode (s : State) (z : ZoneIx) (r : Bool) (hz : zs z) : ZoneWork zs s (s.arbitrateMode z r) := by
  unfold State.arbitrateMode
  dsimp only
  have h := zoneWork_updArb (zs := zs) s z (fun a => { a with
    ventAvailable := s.ventAvailable z, chosen := some ((s.choiceRow z).mode (s.ventAvailable z))
    lastDecision := some s.now }) hz
  split
  · exact h.trans (zoneWork_updArb _ z _ hz)
  · split
    · exact h.trans (zoneWork_updArb _ z _ hz)
    · split
      · exact h.trans (zoneWork_updArb _ z _ hz)
      · exact h.trans (zoneWork_changeMode _ z _ _ hz)

theorem zoneWork_takeDecision (s : State) (z : ZoneIx) (r : Bool) (hz : zs z) : ZoneWork zs s (s.takeDecision z r) := by
  unfold State.takeDecision
  dsimp only
  have h := zoneWork_arbitrateMode s z r hz
  split
  · exact h.trans (zoneWork_airOutputs _ z hz)
  · exact h

theorem zoneWork_arbiterDisable (s : State) (z : ZoneIx) (hz : zs z) : ZoneWork zs s (s.arbiterDisable z) := by
  unfold State.arbiterDisable
  exact (zoneWork_takeDecision s z false hz).trans (zoneWork_updArb _ z _ hz)

theorem zoneWork_purgeRunEnd (s : State) (z : ZoneIx) (hz : zs z) : ZoneWork zs s (s.purgeRunEnd z) := by
  unfold State.purgeRunEnd
  exact ((zoneWork_purgeLeaveRun s z hz).trans (zoneWork_purgeEnterWait _ z hz)).trans (zoneWork_takeDecision _ z true hz)

theorem zoneWork_purgeInactive (s : State) (z : ZoneIx) (hz : zs z) : ZoneWork zs s (s.purgeInactive z) := by
  unfold State.purgeInactive
  dsimp only
  split
  · have h := (zoneWork_purgeLeaveRun s z hz).trans (zoneWork_updPurge _ z (fun p =>
      { p with state := .inactive, remainingWait := 0, remainingRun := 0, runCounted := 0, runStart := none }) hz)
    split
    · exact h.trans (zoneWork_takeDecision _ z true hz)
    · exact h
  · exact zoneWork_updPurge s z _ hz

/-! ### Scenes -/

theorem zoneWork_beginFade (s : State) (z : ZoneIx) (c : Cue) (a : ActIx) (hz : zs z) : ZoneWork zs s (s.beginFade z c a) := by
  unfold State.beginFade
  dsimp only
  split
  · exact zoneWork_jobRequest s _ z a _ hz
  · split
    · exact zoneWork_jobRequest s _ z a _ hz
    · exact zoneWork_updScene s z _ hz

theorem zoneWork_claim (s : State) (z : ZoneIx) (i : Nat) (c : Cue) (a : ActIx) (hz : zs z) :
    ZoneWork zs s (s.claim z i c a) := by
  unfold State.claim
  split
  · exact .refl _ s
  · dsimp only
    split <;> split <;> first | with_reducible exact .refl _ s | with_reducible exact (zoneWork_updScene s z _ hz).trans (zoneWork_beginFade _ z c a hz)

theorem zoneWork_restStepTimer (s : State) (z : ZoneIx) (hz : zs z) : ZoneWork zs s (s.restStepTimer z) :=
  zoneWork_updScene s z _ hz

theorem zoneWork_startCue (s : State) (z : ZoneIx) (i : Nat) (hz : zs z) : ZoneWork zs s (s.startCue z i) := by
  unfold State.startCue
  split
  · exact ((zoneWork_updScene s z _ hz).trans (ZoneWork.foldl _ _ (fun s a _ => zoneWork_claim s z i _ a hz) _)).trans
      (zoneWork_restStepTimer _ z hz)
  · exact .refl _ s

theorem zoneWork_startDueCues (s : State) (z : ZoneIx) (hz : zs z) : ZoneWork zs s (s.startDueCues z) := by
  refine ZoneWork.foldl _ _ (fun s i _ => ?_) s
  split
  · exact zoneWork_startCue s z i hz
  · exact .refl _ s

theorem zoneWork_stepChannel (s : State) (z : ZoneIx) (a : ActIx) (f : Fade) (hz : zs z) :
    ZoneWork zs s (s.stepChannel z a f) := by
  unfold State.stepChannel
  dsimp only
  exact (zoneWork_jobRequest s _ z a _ hz).trans (zoneWork_updScene _ z _ hz)

theorem zoneWork_stepOwned (s : State) (z : ZoneIx) (i : Nat) (a : ActIx) (hz : zs z) :
    ZoneWork zs s (s.stepOwned z i a) := by
  unfold State.stepOwned
  split
  · split
    · exact zoneWork_stepChannel s z a _ hz
    · exact .refl _ s
  · exact .refl _ s

theorem zoneWork_stepFades (s : State) (z : ZoneIx) (hz : zs z) : ZoneWork zs s (s.stepFades z) := by
  unfold State.stepFades
  refine ZoneWork.trans (ZoneWork.foldl _ _ (fun s i _ => ?_) s) (zoneWork_updScene _ z _ hz)
  split
  · exact ZoneWork.foldl _ _ (fun s a _ => zoneWork_stepOwned s z i a hz) s
  · exact .refl _ s

theorem zoneWork_sceneJudge (s : State) (z : ZoneIx) (hz : zs z) : ZoneWork zs s (s.sceneJudge z).1 := by
  unfold State.sceneJudge
  split
  · dsimp only
    exact zoneWork_updScene s z _ hz
  · split <;> dsimp only <;> exact zoneWork_updScene s z _ hz

theorem zoneWork_judgeIfDone (s : State) (z : ZoneIx) (hz : zs z) : ZoneWork zs s (s.judgeIfDone z).1 := by
  unfold State.judgeIfDone
  dsimp only
  split
  · exact zoneWork_sceneJudge s z hz
  · exact .refl _ s

theorem zoneWork_takeRecord (s : State) (z : ZoneIx) (n : SceneIx) (o : TakeOrigin) (hz : zs z) :
    ZoneWork zs s (s.takeRecord z n o) := by
  unfold State.takeRecord
  dsimp only
  exact ((zoneWork_updScene s z _ hz).trans (zoneWork_appendRing ..)).trans (zoneWork_offer _ z _ _ hz)

theorem zoneWork_takeScene (s : State) (z : ZoneIx) (n : SceneIx) (o : TakeOrigin) (hz : zs z) :
    ZoneWork zs s (s.takeScene z n o).1 := by
  unfold State.takeScene
  dsimp only
  have h := zoneWork_takeRecord s z n o hz
  split
  · exact h.trans (zoneWork_judgeIfDone _ z hz)
  · exact (h.trans (zoneWork_startDueCues _ z hz)).trans (zoneWork_judgeIfDone _ z hz)

theorem zoneWork_sceneOutcome (s : State) (z : ZoneIx) (a : ActIx) (o : CommandOutcome) (hz : zs z) :
    ZoneWork zs s (s.sceneOutcome z a o).1 := by
  unfold State.sceneOutcome
  dsimp only
  split
  · split
    · dsimp only
      exact zoneWork_updScene s z _ hz
    · exact (zoneWork_updScene s z _ hz).trans (zoneWork_sceneJudge _ z hz)
    all_goals exact .refl _ s
  · exact .refl _ s

theorem zoneWork_sceneControl (s : State) (z : ZoneIx) (a : ActIx) (hz : zs z) : ZoneWork zs s (s.sceneControl z a).1 := by
  unfold State.sceneControl
  dsimp only
  split
  · exact zoneWork_sceneJudge s z hz
  · exact .refl _ s

theorem zoneWork_sceneClearHold (s : State) (z : ZoneIx) (hz : zs z) : ZoneWork zs s (s.sceneClearHold z).1 := by
  unfold State.sceneClearHold
  dsimp only
  exact ((zoneWork_updScene s z _ hz).trans (zoneWork_startDueCues _ z hz)).trans (zoneWork_judgeIfDone _ z hz)

/-! ### Covers -/

theorem zoneWork_requestDrives (s : State) (z : ZoneIx) (v : Int) (hz : zs z) : ZoneWork zs s (s.requestDrives z v) :=
  ZoneWork.foldl _ _ (fun s a _ => zoneWork_jobRequest s _ z a v hz) s

theorem zoneWork_coverDriveStep (s : State) (z : ZoneIx) (n : CoverState) (hz : zs z) :
    ZoneWork zs s (s.coverDriveStep z n) := by
  unfold State.coverDriveStep
  split <;> first | with_reducible exact zoneWork_requestDrives s z _ hz | with_reducible exact .refl _ s

theorem zoneWork_coverPurgeStep (s : State) (z : ZoneIx) (l n : CoverState) (hz : zs z) :
    ZoneWork zs s (s.coverPurgeStep z l n) := by
  unfold State.coverPurgeStep
  split
  · exact zoneWork_purgeEnterWait s z hz
  · split
    · exact zoneWork_purgeInactive s z hz
    · exact .refl _ s

theorem zoneWork_coverSceneStep (s : State) (z : ZoneIx) (n : CoverState) (hz : zs z) :
    ZoneWork zs s (s.coverSceneStep z n) := by
  unfold State.coverSceneStep
  split
  · exact zoneWork_takeScene s z _ _ hz
  · exact .refl _ s

theorem zoneWork_coverNoticeStep (s : State) (z : ZoneIx) (l n : CoverState) (c : CoverCause) (i : Nat) :
    ZoneWork zs s (s.coverNoticeStep z l n c i) := by
  unfold State.coverNoticeStep
  split <;> first | with_reducible exact zoneWork_raise .. | with_reducible exact .refl _ s

theorem zoneWork_coverChange (s : State) (z : ZoneIx) (n : CoverState) (c : CoverCause) (i : Nat) (hz : zs z) :
    ZoneWork zs s (s.coverChange z n c i) := by
  unfold State.coverChange
  dsimp only
  have h := ((((zoneWork_updZone (s := s) z (fun r =>
      { r with
        cover := r.cover.enter (s.cfg.zones[z]).cover r.held (s.formDrives z) n c
        scene := { r.scene with coverWork := n.isWork } }) hz rfl rfl).trans
    (zoneWork_appendRing _ z (.cover (s.zones[z]).cover.state n c))).trans (zoneWork_coverDriveStep _ z n hz)).trans
    (zoneWork_coverPurgeStep _ z (s.zones[z]).cover.state n hz)).trans (zoneWork_coverSceneStep _ z n hz)
  have h := h.trans (zoneWork_coverNoticeStep _ z (s.zones[z]).cover.state n c i)
  split
  · exact h
  · exact h.trans (zoneWork_takeDecision _ z _ hz)

theorem zoneWork_stopMotion (s : State) (z : ZoneIx) (b : Bool) (hz : zs z) :
    ZoneWork zs s (if b then s.requestDrives z driveStop else s) := by
  split
  · exact zoneWork_requestDrives s z _ hz
  · exact .refl _ s

theorem zoneWork_enterFault (s : State) (z : ZoneIx) (r : FaultReason) (i : Nat) (hz : zs z) :
    ZoneWork zs s (s.enterFault z r i) := by
  unfold State.enterFault
  dsimp only
  exact (zoneWork_stopMotion s z _ hz).trans (zoneWork_coverChange _ z _ _ _ hz)

theorem zoneWork_enterMotion (s : State) (z : ZoneIx) (n : CoverState) (c : CoverCause) (hz : zs z) :
    ZoneWork zs s (s.enterMotion z n c) := by
  unfold State.enterMotion
  dsimp only
  have h := zoneWork_updCover s z (fun c => { c with drives := s.formDrives z }) hz
  split
  · exact h.trans (zoneWork_enterFault _ z _ _ hz)
  · split
    · exact h.trans (zoneWork_enterFault _ z _ _ hz)
    · exact h.trans (zoneWork_coverChange _ z _ _ _ hz)

theorem zoneWork_judgeEnds (s : State) (z : ZoneIx) (hz : zs z) : ZoneWork zs s (s.judgeEnds z) := by
  unfold State.judgeEnds
  dsimp only
  have h := zoneWork_requestDrives s z driveStop hz
  split
  · split
    · split <;> exact h.trans (zoneWork_coverChange _ z _ _ _ hz)
    · exact .refl _ s
  · split
    · exact h.trans (zoneWork_coverChange _ z _ _ _ hz)
    · exact .refl _ s
  all_goals exact .refl _ s

theorem zoneWork_judgePosition (s : State) (z : ZoneIx) (hz : zs z) : ZoneWork zs s (s.judgePosition z) := by
  unfold State.judgePosition
  split
  · split
    · exact zoneWork_coverChange s z _ _ _ hz
    · split
      · exact zoneWork_coverChange s z _ _ _ hz
      · split
        · exact zoneWork_coverChange s z _ _ _ hz
        · exact .refl _ s
  · exact .refl _ s

theorem zoneWork_enterDetect (s : State) (z : ZoneIx) (c : CoverCause) (hz : zs z) : ZoneWork zs s (s.enterDetect z c) := by
  unfold State.enterDetect
  exact (zoneWork_coverChange s z _ _ _ hz).trans (zoneWork_judgePosition _ z hz)

theorem zoneWork_coverScene (s : State) (z : ZoneIx) (o : SceneState) (hz : zs z) : ZoneWork zs s (s.coverScene z o) := by
  unfold State.coverScene
  dsimp only
  split
  · split <;> (try split) <;> first
      | with_reducible exact zoneWork_updCover s z _ hz
      | with_reducible exact zoneWork_enterMotion s z _ _ hz
      | with_reducible exact zoneWork_enterFault s z _ _ hz
      | with_reducible exact .refl _ s
  · exact .refl _ s

theorem zoneWork_reportScene (z : ZoneIx) (p : State × Option SceneState) (hz : zs z) :
    ZoneWork zs p.1 (State.reportScene z p) := by
  unfold State.reportScene
  split
  · exact zoneWork_coverScene _ z _ hz
  · exact .refl _ _

theorem zoneWork_enterPrep (s : State) (z : ZoneIx) (n : CoverState) (hz : zs z) : ZoneWork zs s (s.enterPrep z n) := by
  unfold State.enterPrep
  dsimp only
  exact (zoneWork_coverChange s z _ _ _ hz).trans (zoneWork_coverScene _ z _ hz)

theorem zoneWork_coverContactIn (s : State) (z : ZoneIx) (p : PointIx) (k : PointKind) (r : ContactReport) (hz : zs z) :
    ZoneWork zs s (s.coverContactIn z p k r) := by
  unfold State.coverContactIn
  split <;> (try split) <;> first
    | with_reducible exact zoneWork_judgePosition s z hz
    | with_reducible exact zoneWork_enterFault s z _ _ hz
    | with_reducible exact zoneWork_judgeEnds s z hz
    | with_reducible exact .refl _ s

theorem zoneWork_coverContact (s : State) (p : PointIx) (c : PointCfg) (r : ContactReport)
    (hz : ∀ z, c.zone = .zone z → zs z) : ZoneWork zs s (s.coverContact p c r) := by
  unfold State.coverContact
  split
  · rename_i hc _
    split
    · exact zoneWork_coverContactIn s _ p _ r (hz _ hc)
    · exact .refl _ s
  · exact .refl _ s

theorem zoneWork_coverDrive (s : State) (z : ZoneIx) (a : ActIx) (o : CommandOutcome) (hz : zs z) :
    ZoneWork zs s (s.coverDrive z a o) := by
  unfold State.coverDrive
  dsimp only
  split <;> (try split) <;> first | with_reducible exact zoneWork_enterFault s z _ _ hz | with_reducible exact .refl _ s

theorem zoneWork_coverHold (s : State) (z : ZoneIx) (hz : zs z) : ZoneWork zs s (s.coverHold z) := by
  unfold State.coverHold
  dsimp only
  exact (zoneWork_stopMotion s z _ hz).trans (zoneWork_updCover _ z _ hz)

theorem zoneWork_coverClearHold (s : State) (z : ZoneIx) (hz : zs z) : ZoneWork zs s (s.coverClearHold z) := by
  unfold State.coverClearHold
  dsimp only
  have h := zoneWork_updCover s z (fun c => { c with
    prepTimer := c.prepTimer.continue, motionTimer := c.motionTimer.continue, settleTimer := c.settleTimer.continue }) hz
  split <;> (try split) <;> first
    | with_reducible exact h.trans (zoneWork_requestDrives _ z _ hz)
    | with_reducible exact h.trans (zoneWork_enterMotion _ z _ _ hz)
    | with_reducible exact h

theorem zoneWork_coverDisable (s : State) (z : ZoneIx) (hz : zs z) : ZoneWork zs s (s.coverDisable z) := by
  unfold State.coverDisable
  dsimp only
  exact (zoneWork_stopMotion s z _ hz).trans (zoneWork_coverChange _ z _ _ _ hz)

/-! ### Reports, holds, watches -/

theorem zoneWork_reportOutcome (s : State) (a : ActIx) (o : CommandOutcome) (hz : zs (s.cfg.acts[a]).zone) :
    ZoneWork zs s (s.reportOutcome a o) := by
  unfold State.reportOutcome
  dsimp only
  split
  · exact (zoneWork_sceneOutcome s _ a o hz).trans (zoneWork_reportScene _ _ hz)
  · exact zoneWork_coverDrive s _ a o hz
  all_goals exact .refl _ s

theorem zoneWork_reportControl (s : State) (a : ActIx) (b : Bool) (hz : zs (s.cfg.acts[a]).zone) :
    ZoneWork zs s (s.reportControl a b) := by
  unfold State.reportControl
  dsimp only
  split
  · exact (zoneWork_sceneControl s _ a hz).trans (zoneWork_reportScene _ _ hz)
  · exact .refl _ s

theorem zoneWork_endCommand (s : State) (o : Outstanding) (r : CommandOutcome) (hz : zs (s.cfg.acts[o.act]).zone) :
    ZoneWork zs (s.commandEnded o r) (s.endCommand o r) := by
  unfold State.endCommand
  dsimp only
  have h₂ := zoneWork_freeCommand s _ o r (zoneWork_applyOutcome s o.act o.value r hz) hz
  have hz' : zs ((s.commandEnded o r).cfg.acts[o.act]).zone := hz
  have h₃ := h₂.trans (zoneWork_reportOutcome _ o.act r (by rw [h₂.zoneOf]; exact hz'))
  exact h₃.trans (zoneWork_reportControl _ o.act _ (by rw [h₃.zoneOf]; exact hz'))

theorem zoneWork_overrideEnds (s : State) (a : ActIx) (hz : zs (s.cfg.acts[a]).zone) :
    ZoneWork zs (s.updAct a ActRt.endOverride) (s.overrideEnds a) := by
  unfold State.overrideEnds
  have hz' : zs ((s.updAct a ActRt.endOverride).cfg.acts[a]).zone := hz
  have h := zoneWork_join _ a hz'
  exact h.trans (zoneWork_reportControl _ a true (by rw [h.zoneOf]; exact hz'))

theorem zoneWork_holdZone (s : State) (z : ZoneIx) (w : WatchIx) (hz : zs z) : ZoneWork zs s (s.holdZone z w) := by
  unfold State.holdZone
  split
  · exact zoneWork_updZone z _ hz rfl rfl
  · exact ((zoneWork_updZone (s := s) z (fun r => { r with held := true, holdCause := some w }) hz rfl rfl).trans
      (zoneWork_coverHold _ z hz)).trans (zoneWork_updScene _ z _ hz)

theorem zoneWork_clearHold (s : State) (z : ZoneIx) (hz : zs z) : ZoneWork zs s (s.clearHold z) := by
  unfold State.clearHold
  dsimp only
  split
  · exact ((((zoneWork_updZone (s := s) z (fun r => { r with held := false }) hz rfl rfl).trans
      (zoneWork_dispatcherClearHold _ z hz)).trans (zoneWork_coverClearHold _ z hz)).trans
      (zoneWork_sceneClearHold _ z hz)).trans (zoneWork_reportScene _ _ hz)
  · exact .refl _ s

theorem zoneWork_watchAct (s : State) (w : WatchIx) (a : WatchAction) (z : PointZone) (hz : ∀ z, zs z) :
    ZoneWork zs s (s.watchAct w a z) := by
  unfold State.watchAct
  split
  · exact .refl _ s
  · exact ZoneWork.foldl _ _ (fun s z _ => zoneWork_capture s z _) s
  · exact ZoneWork.foldl _ _ (fun s z' _ => zoneWork_holdZone s z' w (hz z')) s

theorem zoneWork_offerWatch (e : WatchEvent) (s : State) (w : WatchIx) (hz : ∀ z, zs z) :
    ZoneWork zs s (s.offerWatch e w) := by
  unfold State.offerWatch
  dsimp only
  split
  · exact ((zoneWork_updCfg _ rfl).trans (zoneWork_watchAct _ w _ _ hz)).trans (zoneWork_raise ..)
  · exact .refl _ s

theorem zoneWork_offerWatches (s : State) (e : WatchEvent) (hz : ∀ z, zs z) : ZoneWork zs s (s.offerWatches e) :=
  ZoneWork.foldl _ _ (fun s w _ => zoneWork_offerWatch e s w hz) s

/-! ### Evaluation -/

theorem zoneWork_stage9 (s : State) (z : ZoneIx) (hz : zs z) : ZoneWork zs s (s.stage9 z) := by
  unfold State.stage9
  exact zoneWork_requestAll s _ z _ hz

theorem zoneWork_raiseCondensation (s : State) (z : ZoneIx) : ZoneWork zs s (s.raiseCondensation z) := zoneWork_raise ..

theorem zoneWork_offerSums (s : State) (z : ZoneIx) (n : Nat) (hz : zs z) : ZoneWork zs s (s.offerSums z n) := by
  unfold State.offerSums
  dsimp only
  have h := (zoneWork_offer s z accHeatSum (s.zones[z]).heat.h.toNat hz).trans
    (zoneWork_offer _ z accDrySum (s.zones[z]).eval.d.toNat hz)
  split
  · exact h.trans (zoneWork_offer _ z _ _ hz)
  · exact h

theorem zoneWork_armedCapture (s : State) (z : ZoneIx) (hz : zs z) : ZoneWork zs s (s.armedCapture z) := by
  unfold State.armedCapture
  split
  · exact (zoneWork_capture s z _).trans (zoneWork_updZone z _ hz rfl rfl)
  · exact .refl _ s

/-- What an evaluation does after its stages 1 to 8 have been stored (R31). -/
theorem zoneWork_evaluate (s : State) (z : ZoneIx) (hz : zs z) :
    ZoneWork zs (s.updZone z fun _ => s.evaluated z) (s.evaluate z) := by
  unfold State.evaluate
  dsimp only
  have h (t : State) (b : Bool) : ZoneWork zs t (if b then t.raiseCondensation z else t) := by
    split
    · exact zoneWork_raiseCondensation t z
    · exact .refl _ t
  exact ((((h _ _).trans (zoneWork_stage9 _ z hz)).trans (zoneWork_takeDecision _ z false hz)).trans
    (zoneWork_offerSums _ z _ hz)).trans (zoneWork_armedCapture _ z hz)

end Sys2Proof.Machine
end

