-- ==== Sys2Proof/Laws/Boot.lean ====
section
/-! SUPPORT. Start-up without a configuration (R189). -/

namespace Sys2Proof.Machine

/-- A start from an image that gives no configuration leaves the part as it is after reset (R189). -/
theorem boot_unconfigured (s : State) (im : Image) (b : Bool) (h : im.config = .unconfigured) :
    s.boot im b = { State.reset with
      lines := { State.reset.lines with trunkActive := b }, image := im, imageState := im.state
      configured := im.state == .passed, pending := s.pending } := by
  have hz : ∀ (t : State) z, t.cfg = .unconfigured → t.startZone z = t := by
    intro t z ht
    unfold State.startZone State.enabled
    rw [ht]
    have : ((ConfigData.unconfigured.zones[z]).eval.enabled) = false := by revert z; decide
    rw [this]; rfl
  have hl : (s.loaded im b).cfg = .unconfigured := h
  unfold State.boot
  have : ∀ l : List ZoneIx, l.foldl State.startZone (s.loaded im b) = s.loaded im b := by
    intro l
    induction l with
    | nil => rfl
    | cons z l ih => rw [List.foldl_cons, hz _ _ hl, ih]
  rw [this]
  unfold State.loaded State.reset
  simp only [h]
  have hzz : ConfigData.unconfigured.zones.map ZoneRt.reset = Vector.replicate 4 (.reset .unconfigured) := by
    decide +kernel
  rw [hzz]
  rfl

end Sys2Proof.Machine
end

