-- ==== Sys2Proof/Laws/Carried.lean ====
section
/-! SUPPORT. The bytes of one field: what the encoders write for a mark, a named value, an optional field and a timer. -/

namespace Sys2Proof.Machine

/-! ### Marks, optional fields and timers -/

@[simp] theorem yesNo_byte (b : Bool) : yesNo b = [flagByte b] := by cases b <;> rfl
@[simp] theorem setClear_byte (b : Bool) : setClear b = [setByte b] := by cases b <;> rfl
@[simp] theorem natField_eq (n : Nat) : natField n = numField (n : Int) := rfl
theorem optField_presence {α : Type} (f : α → List Byte) (o : Option α) : optField f o = presence f o := by cases o <;> rfl
theorem optIndex_presence {n : Nat} (o : Option (Fin n)) : optIndex o = presence indexByte o := by cases o <;> rfl
theorem optContact_presence (o : Option Bool) : optContact o = presence (fun b => [flagByte b]) o := by rcases o with _ | _ | _ <;> rfl

theorem timer_stoppedRunning (unit : Nat) (t : Timer) : timerField stoppedRunning unit t = timerBytes 0 1 unit t := by
  cases t <;> rfl
theorem timer_runningStopped (unit : Nat) (t : Timer) : timerField runningStopped unit t = timerBytes 1 0 unit t := by
  cases t <;> rfl
theorem timer_stoppedRunningPaused (unit : Nat) (t : Timer) :
    timerField stoppedRunningPaused unit t = timerBytes 0 1 unit t := by cases t <;> rfl

/-! ### Named values -/

@[simp] theorem named_pointState (x : PointState) : named pointStateOrder x = [x.wire] := by cases x <;> rfl
@[simp] theorem named_control (x : Control) : named controlOrder x = [x.wire] := by cases x <;> rfl
@[simp] theorem named_dispatch (x : DispatchState) : named dispatchOrder x = [x.wire] := by cases x <;> rfl
@[simp] theorem named_health (x : Health) : named healthOrder x = [x.wire] := by cases x <;> rfl
@[simp] theorem named_mode (x : Mode) : named modeOrder x = [x.wire] := by cases x <;> rfl
@[simp] theorem named_pending (x : Pending) : named pendingOrder x = [x.wire] := by cases x <;> rfl
@[simp] theorem named_modeCause (x : ModeCause) : named modeCauseOrder x = [x.wire] := by cases x <;> rfl
@[simp] theorem named_coverState (x : CoverState) : named coverStateOrder x = [x.wire] := by cases x <;> rfl
@[simp] theorem named_faultReason (x : FaultReason) : named faultReasonOrder x = [x.wire] := by cases x <;> rfl
@[simp] theorem named_coverCause (x : CoverCause) : named coverCauseOrder x = [x.wire] := by
  rcases x with _ | _ | _ | _ | _ | _ | _ | _ | r | _ <;> (try cases r) <;> rfl
@[simp] theorem named_purgeState (x : PurgeState) : named purgeStateOrder x = [x.wire] := by cases x <;> rfl
@[simp] theorem named_sceneState (x : SceneState) : named sceneStateOrder x = [x.wire] := by cases x <;> rfl
@[simp] theorem named_takeOrigin (x : TakeOrigin) : named takeOriginOrder x = [x.wire] := by cases x <;> rfl
@[simp] theorem named_watchOn (x : WatchOn) : named watchOnOrder x = [x.wire] := by cases x <;> rfl
@[simp] theorem named_watchAction (x : WatchAction) : named watchActionOrder x = [x.wire] := by cases x <;> rfl
@[simp] theorem noticeKind_byte (k : NoticeKind) : byteField k.code = [k.wire] := by cases k <;> rfl

/-! ### The bytes of a point and an actuator -/

/-- A point entry's configuration (R1, R166). -/
theorem pointCfg_bytes (c : PointCfg) : c.bytes = [flagByte c.inUse, c.lineField] ++ numField c.node ++ numField c.channel ++
    [c.kindField, c.zone.wire] ++ numField c.min ++ numField c.max ++ numField c.staleTimeout ++
    presence countField c.persistence ++ presence (fun n : Nat => [BitVec.ofNat 8 n]) c.drive ++
    [c.notifyField, c.protectField] := by
  have zone (z : PointZone) : z.byte = z.wire := by cases z <;> rfl
  have count : natField = countField := rfl
  have index : byteField = fun n : Nat => [BitVec.ofNat 8 n] := rfl
  simp only [PointCfg.bytes, yesNo_byte, zone, optField_presence, count, index, List.append_assoc,
    List.cons_append, List.nil_append]
  rfl

/-- A point entry's runtime (R2, R166). -/
theorem pointRt_bytes (r : PointRt) : r.bytes = [r.state.wire] ++ presence numField r.value ++
    presence (fun b => [flagByte b]) r.contact ++ presence (fun b => [flagByte b]) r.candidate ++ numField r.run ++
    presence wordField r.lastArrival ++ timerBytes 0 1 1000 r.staleTimer := by
  simp [PointRt.bytes, optContact_presence, timer_stoppedRunning, optField_presence, optNum, optStamp, perSecond]

/-- An actuator entry's configuration (R126, R166). -/
theorem actCfg_bytes (c : ActCfg) : c.bytes = [flagByte c.inUse] ++ numField c.node ++ numField c.channel ++
    [c.kindField, c.zoneField] ++ numField c.min ++ numField c.max ++ numField c.deadband ++ numField c.refresh ++
    numField c.overrideHold ++ [c.protectField] := by simp [ActCfg.bytes]

end Sys2Proof.Machine
end

