-- ==== Sys2Proof/Laws/Covers.lean ====
section
/-! SUPPORT. The judgements of the cover sequencer and the scene engine, as the propositions that statements say them with. -/

namespace Sys2Proof.Machine

variable {s : State} {z : ZoneIx}

theorem mem_indices {n : Nat} (i : Fin n) : i ∈ indices n := List.mem_finRange i

/-- The clearing of a hold, at a timer: it runs on from what remains (R95). -/
theorem Timer.continue_eq_runOn (t : Timer) : t.continue = t.runOn := by cases t <;> rfl

/-! ### Drives and their ends (R15, R16, R84) -/

theorem known_eq (r : PointRt) : r.known = r.contactKnown := by
  unfold PointRt.known PointRt.contactKnown
  cases r.state <;> rfl

theorem isDriveOf_iff {a : ActIx} : s.isDriveOf z a = true ↔ DriveOf s z a := by
  simp [State.isDriveOf, DriveOf, and_assoc]

theorem contactNames_iff {kind : PointKind} {a : ActIx} {p : PointIx} :
    s.contactNames z kind a p = true ↔ NamesDrive s z kind a p := by
  simp [State.contactNames, NamesDrive, and_assoc]

theorem mem_contactsOf {kind : PointKind} {a : ActIx} {p : PointIx} :
    p ∈ s.contactsOf z kind a ↔ NamesDrive s z kind a p := by
  simp [State.contactsOf, mem_indices, contactNames_iff]

theorem atEnd_iff {own other : PointKind} {a : ActIx} : s.atEnd z own other a = true ↔ StandsAt s z own other a := by
  have hne : (s.contactsOf z own a).isEmpty = false ↔ ∃ p, NamesDrive s z own a p := by
    simp [← mem_contactsOf, ← Bool.not_eq_true, List.eq_nil_iff_forall_not_mem]
  simp only [State.atEnd, Bool.and_eq_true, Bool.not_eq_true', isDriveOf_iff, hne, List.all_eq_true, List.any_eq_false,
    mem_contactsOf, beq_iff_eq, known_eq]
  exact ⟨fun h => ⟨h.1.1.1, h.1.1.2, h.1.2, h.2⟩, fun h => ⟨⟨⟨h.drive, h.contact⟩, h.made⟩, h.single⟩⟩

theorem allClosed_iff {l : List ActIx} : l.all (s.atClosedEnd z) = true ↔ AllClosed s z l := by
  simp only [List.all_eq_true, State.atClosedEnd, atEnd_iff, AllClosed]

theorem allOpen_iff {l : List ActIx} : l.all (s.atOpenEnd z) = true ↔ AllOpen s z l := by
  simp only [List.all_eq_true, State.atOpenEnd, atEnd_iff, AllOpen]

theorem driveReady_iff {a : ActIx} : s.driveReady a = true ↔ (s.acts[a]).control = .enabled ∧ (s.acts[a]).health = .ok ∧
    (s.cfg.acts[a]).min = 0 ∧ (s.cfg.acts[a]).max = 2 ∧ (s.cfg.acts[a]).deadband = 0 := by
  simp [State.driveReady, and_assoc]

theorem drivesReady_iff : (!(s.formDrives z).isEmpty && (s.formDrives z).all s.driveReady) = true ↔ DrivesReady s z := by
  simp [DrivesReady, driveReady_iff]

/-! ### Guards and channels (R113, R118, R119) -/

theorem freshValue_iff {p : PointIx} {v : Int} : s.freshValue p = some v ↔
    (s.cfg.points[p]).inUse = true ∧ (s.points[p]).state = .fresh ∧ (s.points[p]).value = some v := by
  simp [State.freshValue, and_assoc]

/-- A comparison with a fresh value, which is absent where the point is not in use or not FRESH. -/
theorem freshValue_compare {p : PointIx} {f : Int → Bool} :
    (match s.freshValue p with | some v => f v | none => false) = true ↔
      (s.cfg.points[p]).inUse = true ∧ (s.points[p]).state = .fresh ∧ ∃ v, (s.points[p]).value = some v ∧ f v = true := by
  cases h : s.freshValue p with
  | none =>
    refine iff_of_false (by simp) fun ⟨hu, hf, v, hv, _⟩ => ?_
    rw [freshValue_iff.2 ⟨hu, hf, hv⟩] at h
    cases h
  | some v =>
    obtain ⟨hu, hf, hv⟩ := freshValue_iff.1 h
    simp only [hu, hf, hv, true_and]
    exact ⟨fun h => ⟨v, rfl, h⟩, fun ⟨_, h, h'⟩ => by cases h; exact h'⟩

theorem guardHolds_iff {guard : Option Guard} : s.guardHolds z guard = true ↔ GuardTrue s z guard := by
  rcases guard with _ | ⟨_ | _⟩ | ⟨p, x⟩ | ⟨p, x⟩ | p
  · simp [State.guardHolds, GuardTrue]
  · simp [State.guardHolds, GuardTrue]
  · simp [State.guardHolds, GuardTrue]
  · exact freshValue_compare.trans (by simp only [GuardTrue, decide_eq_true_eq])
  · exact freshValue_compare.trans (by simp only [GuardTrue, decide_eq_true_eq])
  · simp [State.guardHolds, GuardTrue]

theorem channelSettled_iff {t : Touched} : s.channelSettled t = true ↔ ChannelSettled s t := by
  unfold State.channelSettled ChannelSettled
  generalize s.acts[t.act] = r
  cases hc : r.confirmed <;> cases hr : r.requested <;> simp [hc, hr, and_assoc]

theorem channelDegraded_iff {t : Touched} : s.channelDegraded t = true ↔ ChannelDegraded s t := by
  simp [State.channelDegraded, ChannelDegraded, or_assoc]

theorem isPending_iff {c : CueRun} : c.isPending = true ↔ ∃ ms, c.status = .pending ms := by
  unfold CueRun.isPending
  cases c.status <;> simp

theorem atWork_iff {e : SceneRt} : (e.cues.any CueRun.isPending || e.fading) = true ↔ AtWork e := by
  simp [AtWork, SceneRt.fading, isPending_iff, Option.isSome_iff_ne_none]

end Sys2Proof.Machine
end

