-- ==== Sys2Proof/Laws/Fields.lean ====
section
/-! SUPPORT. Each field reads back as it was written: one lemma per form of R166. -/

namespace Sys2Proof.Machine

variable {α β : Type}

/-! ### Readers in sequence -/

theorem reader_pure (x : α) (l : List Byte) : (pure x : Reader α) l = some (x, l) := rfl

theorem reader_bind {r : Reader α} {f : α → Reader β} {l l' : List Byte} {x : α} (h : r l = some (x, l')) :
    (r >>= f) l = f x l' := by
  show (r l).bind (fun p => f p.1 p.2) = f x l'
  rw [h]; rfl

/-- A reader that reads `bytes` as `x`, whatever follows. -/
def Reads (r : Reader α) (bytes : List Byte) (x : α) : Prop := ∀ l, r (bytes ++ l) = some (x, l)

theorem Reads.pure (x : α) : Reads (Pure.pure x) [] x := fun _ => rfl

theorem Reads.bind {r : Reader α} {f : α → Reader β} {b₁ b₂ : List Byte} {x : α} {y : β} (h₁ : Reads r b₁ x)
    (h₂ : Reads (f x) b₂ y) : Reads (r >>= f) (b₁ ++ b₂) y := by
  intro l
  rw [List.append_assoc, reader_bind (h₁ (b₂ ++ l))]
  exact h₂ l

theorem Reads.last {r : Reader α} {b : List Byte} {x : α} (h : Reads r b x) (f : α → β) :
    Reads (r >>= fun x => Pure.pure (f x)) b (f x) := by
  have := h.bind (f := fun x => Pure.pure (f x)) (Reads.pure _)
  rwa [List.append_nil] at this

theorem Reads.all {r : Reader α} {bytes : List Byte} {x : α} (h : Reads r bytes x) : readAll r bytes = some x := by
  have := h []
  rw [List.append_nil] at this
  simp [readAll, this]

/-! ### Too few and too many bytes (R167) -/

/-- A reader that goes the same way where more bytes follow: it never looks past what it takes. -/
def Grows (r : Reader α) : Prop := ∀ (l l' more : List Byte) (x : α), r l = some (x, l') → r (l ++ more) = some (x, l' ++ more)

theorem Grows.pure (x : α) : Grows (Pure.pure x) := by
  rintro l l' more y h
  cases h
  rfl

theorem Grows.failure : Grows (failure : Reader α) := fun _ _ _ _ h => nomatch h

theorem Grows.bind {r : Reader α} {f : α → Reader β} (h₁ : Grows r) (h₂ : ∀ x, Grows (f x)) : Grows (r >>= f) := by
  intro l l' more y h
  have h : (r l).bind (fun p => f p.1 p.2) = some (y, l') := h
  cases hr : r l with
  | none => rw [hr] at h; cases h
  | some p =>
    rw [hr] at h
    rw [reader_bind (h₁ l p.2 more p.1 hr)]
    exact h₂ _ _ _ _ _ h

theorem Grows.ite {c : Prop} [Decidable c] {r r' : Reader α} (h : Grows r) (h' : Grows r') : Grows (if c then r else r') := by
  split
  · exact h
  · exact h'

theorem grows_byte : Grows readByte := by
  rintro (_ | ⟨b, l⟩) l' more x h <;> cases h
  rfl

theorem grows_code : Grows readCode := grows_byte.bind fun _ => .pure _
theorem grows_nat : Grows readNat := grows_byte.bind fun _ => grows_byte.bind fun _ => .pure _
theorem grows_int : Grows readInt := grows_byte.bind fun _ => grows_byte.bind fun _ => .pure _

theorem grows_opt {r : Reader α} (h : Grows r) : Grows (readOpt r) :=
  grows_code.bind fun _ => .ite (.pure _) (.ite (h.bind fun _ => .pure _) .failure)

theorem grows_many {r : Reader α} (h : Grows r) : ∀ n, Grows (readMany r n)
  | 0 => .pure _
  | n + 1 => h.bind fun _ => (grows_many h n).bind fun _ => .pure _

/-- Bytes beyond those of an entry are too many. -/
theorem Reads.tooMany {r : Reader α} {bytes more : List Byte} {x : α} (h : Reads r bytes x) (hm : more ≠ []) :
    readAll r (bytes ++ more) = none := by
  unfold readAll
  rw [h more]
  cases more with
  | nil => exact absurd rfl hm
  | cons => rfl

/-- Fewer bytes than those of an entry are too few. -/
theorem Reads.tooFew {r : Reader α} {bytes : List Byte} {x : α} {k : Nat} (h : Reads r bytes x) (hg : Grows r)
    (hk : k < bytes.length) : readAll r (bytes.take k) = none := by
  unfold readAll
  cases hr : r (bytes.take k) with
  | none => rfl
  | some p =>
    obtain ⟨y, l⟩ := p
    cases l with
    | cons => rfl
    | nil =>
      have h1 := hg _ _ (bytes.drop k) _ hr
      rw [List.take_append_drop] at h1
      have h2 := h []
      rw [List.append_nil, h1] at h2
      have h3 := congrArg List.length (congrArg Prod.snd (Option.some.inj h2))
      simp at h3
      omega

/-! ### Single fields -/

theorem reads_byte (b : Byte) : Reads readByte [b] b := fun _ => rfl

theorem reads_code (b : Byte) : Reads readCode [b] b.toNat := fun _ => rfl

theorem reads_byteField (n : Nat) (h : n < 256) : Reads readCode (byteField n) n := by
  intro l
  have := reads_code (BitVec.ofNat 8 n) l
  simp only [BitVec.toNat_ofNat] at this
  rw [show n % 2 ^ 8 = n by omega] at this
  exact this

theorem reads_named [DecidableEq α] (order : List α) (x : α) (h : order.length < 256) (hx : x ∈ order) :
    Reads readCode (named order x) (order.idxOf x) :=
  reads_byteField _ (by have := List.idxOf_lt_length_of_mem hx; omega)

theorem ofCode_idxOf [DecidableEq α] (order : List α) (x : α) (hx : x ∈ order) : ofCode order (order.idxOf x) = some x := by
  unfold ofCode
  rw [List.getElem?_eq_getElem (List.idxOf_lt_length_of_mem hx)]
  simp

theorem reads_yesNo (b : Bool) : Reads readCode (yesNo b) b.toNat := reads_byteField _ (by cases b <;> decide)

theorem split16 (v : BitVec 16) : v.extractLsb' 8 8 ++ v.extractLsb' 0 8 = v := by
  apply BitVec.eq_of_getLsbD_eq
  intro i hi
  rw [BitVec.getLsbD_append]
  by_cases h : i < 8
  · simp [h]
  · have : i - 8 < 8 := by omega
    simp [h, this, show 8 + (i - 8) = i by omega]

theorem hi_lo_toNat (v : BitVec 16) : (v.extractLsb' 8 8).toNat * 256 + (v.extractLsb' 0 8).toNat = v.toNat := by
  have h := congrArg BitVec.toNat (split16 v)
  rw [BitVec.toNat_append, Nat.shiftLeft_eq] at h
  rw [Nat.mul_comm, ← Nat.two_pow_add_eq_or_of_lt (v.extractLsb' 0 8).isLt] at h
  omega

theorem reads_int (x : Int) (h : -32768 ≤ x ∧ x ≤ 32767) : Reads readInt (numField x) x := by
  intro l
  show some ((((BitVec.ofInt 16 x).extractLsb' 8 8) ++ ((BitVec.ofInt 16 x).extractLsb' 0 8)).toInt, l) = _
  rw [split16, BitVec.toInt_ofInt]
  congr 2
  exact Int.bmod_eq_of_le (by omega) (by omega)

theorem reads_nat (n : Nat) (h : n < 65536) : Reads readNat (numField n) n := by
  intro l
  show some (((BitVec.ofInt 16 n).extractLsb' 8 8).toNat * 256 + ((BitVec.ofInt 16 n).extractLsb' 0 8).toNat, l) = _
  rw [hi_lo_toNat]
  congr 2
  rw [BitVec.toNat_ofInt]
  omega

theorem readOpt_eq (r : Reader α) : readOpt r = (readCode >>= fun present =>
    if present = 0 then pure none else if present = 1 then r >>= fun x => pure (some x) else failure) := rfl

theorem reads_none (r : Reader α) (f : β → List Byte) : Reads (readOpt r) (optField f none) none := by
  rw [readOpt_eq]
  have : optField f (none : Option β) = byteField 0 ++ [] := by simp [optField]
  rw [this]
  exact (reads_byteField 0 (by decide)).bind (by simpa using Reads.pure _)

theorem reads_some {r : Reader α} {f : β → List Byte} {x : β} {y : α} (h : Reads r (f x) y) :
    Reads (readOpt r) (optField f (some x)) (some y) := by
  rw [readOpt_eq]
  refine (reads_byteField 1 (by decide)).bind ?_
  simp only [Nat.one_ne_zero, if_false, if_true]
  have h' := h.bind (f := fun x => pure (some x)) (Reads.pure (some y))
  rwa [List.append_nil] at h'

/-- An optional field whose value, where present, reads back. -/
theorem reads_opt {r : Reader α} {f : β → List Byte} (g : β → α) (o : Option β) (h : ∀ x, o = some x → Reads r (f x) (g x)) :
    Reads (readOpt r) (optField f o) (o.map g) := by
  cases o with
  | none => exact reads_none r f
  | some x => exact reads_some (h x rfl)

theorem reads_many {r : Reader α} {f : β → List Byte} (g : β → α) (l : List β) (h : ∀ x ∈ l, Reads r (f x) (g x)) :
    Reads (readMany r l.length) (l.flatMap f) (l.map g) := by
  induction l with
  | nil => exact Reads.pure []
  | cons x l ih =>
    show Reads (r >>= fun x => readMany r l.length >>= fun rest => pure (x :: rest)) _ _
    rw [List.flatMap_cons]
    refine (h x (List.mem_cons_self ..)).bind ?_
    have := (ih fun y hy => h y (List.mem_cons_of_mem _ hy)).bind (f := fun rest => pure (g x :: rest)) (Reads.pure _)
    rwa [List.append_nil] at this

theorem reads_list {r : Reader α} {f : β → List Byte} (g : β → α) (l : List β) (hl : l.length < 256)
    (h : ∀ x ∈ l, Reads r (f x) (g x)) : Reads (readList r) (listField f l) (l.map g) := by
  show Reads (readCode >>= fun n => readMany r n) _ _
  exact (reads_byteField _ hl).bind (reads_many g l h)

theorem asIndex_val {n : Nat} (i : Fin n) : asIndex n i.val = some i := by simp [asIndex]

theorem yesNoCode_toNat (b : Bool) : yesNoCode b.toNat = some b := by cases b <;> rfl

end Sys2Proof.Machine
end

