-- ==== Sys2Proof/Laws/Entries.lean ====
section
/-! SUPPORT. The configuration of each table's entry reads back from its bytes (R166, R167). -/

namespace Sys2Proof.Machine

/-! ### POINT and ACTUATOR -/

def PointCfg.raw (c : PointCfg) : RawPoint :=
  { inUse := c.inUse.toNat, line := c.lineField.toNat, node := c.node, channel := c.channel
    kind := c.kindField.toNat, zone := c.zone.byte.toNat, min := c.min, max := c.max
    staleTimeout := c.staleTimeout, persistence := c.persistence, drive := c.drive, notifyStale := c.notifyField.toNat
    protect := c.protectField.toNat }

theorem reads_point (c : PointCfg) (h : c.Fits) : Reads readPoint c.bytes c.raw := by
  have hp := reads_opt (r := readNat) (f := natField) id c.persistence fun x hx => reads_nat x (h.persistence x hx)
  have hd := reads_opt (r := readCode) (f := byteField) id c.drive fun x hx => reads_byteField x (h.drive x hx)
  rw [Option.map_id] at hp hd
  simp only [PointCfg.bytes, List.append_assoc]
  refine (reads_yesNo _).bind <| (reads_code _).bind <|
    (reads_nat _ h.node).bind <| (reads_nat _ h.channel).bind <|
    (reads_code _).bind <| (reads_code _).bind <| (reads_int _ h.min).bind <|
    (reads_int _ h.max).bind <| (reads_nat _ h.staleTimeout).bind <| hp.bind <| hd.bind <| (reads_code _).bind ?_
  exact (reads_code _).last _

theorem pointZone_ofCode (z : PointZone) : PointZone.ofCode z.byte.toNat = z := by
  cases z with
  | all => rfl
  | zone z => revert z; decide
  | unlisted n =>
    have h := n.isLt
    have hb : (PointZone.unlisted n).byte.toNat = 4 + n.val := by simp only [PointZone.byte, BitVec.toNat_ofNat]; omega
    have h4 : asIndex 4 (4 + n.val) = none := by simp [asIndex]
    rw [hb]
    unfold PointZone.ofCode
    rw [h4, show 4 + n.val - 4 = n.val by omega, asIndex_val]

theorem entry_point (c : PointCfg) : c.raw.entry = some c := by
  unfold RawPoint.entry PointCfg.raw
  simp only [yesNoCode_toNat, pointZone_ofCode, BitVec.ofNat_toNat, BitVec.setWidth_eq]
  rfl

def ActCfg.raw (c : ActCfg) : RawActuator :=
  { inUse := c.inUse.toNat, node := c.node, channel := c.channel, kind := c.kindField.toNat, zone := c.zoneField.toNat
    min := c.min, max := c.max, deadband := c.deadband, refresh := c.refresh, overrideHold := c.overrideHold
    protect := c.protectField.toNat }

theorem reads_actuator (c : ActCfg) (h : c.Fits) : Reads readActuator c.bytes c.raw := by
  simp only [ActCfg.bytes, List.append_assoc]
  refine (reads_yesNo _).bind <| (reads_nat _ h.node).bind <| (reads_nat _ h.channel).bind <|
    (reads_code _).bind <| (reads_code _).bind <| (reads_int _ h.min).bind <| (reads_int _ h.max).bind <|
    (reads_nat _ h.deadband).bind <| (reads_nat _ h.refresh).bind <| (reads_nat _ h.overrideHold).bind ?_
  exact (reads_code _).last _

theorem entry_actuator (c : ActCfg) : c.raw.entry = some c := by
  unfold RawActuator.entry ActCfg.raw
  simp only [yesNoCode_toNat, BitVec.ofNat_toNat, BitVec.setWidth_eq]
  rfl

/-! ### GROUP, SCENE_HEADER, CUE -/

theorem reads_group (g : List ActIx) (h : g.length < 256) : Reads readGroup (groupBytes g) (g.map Fin.val) :=
  reads_list Fin.val g h fun a _ => reads_byteField _ (by have := a.isLt; omega)

theorem reads_header (x : SceneHeader) (h : Nat16 x.cueCount) :
    Reads readHeader x.bytes { cueCount := x.cueCount, protect := x.protect.toNat } :=
  (reads_nat _ h).bind ((reads_yesNo _).last _)

def CueTarget.raw : CueTarget → Nat × Nat
  | .actuator a => (0, a.val)
  | .group g => (1, g.val)

def Guard.raw : Guard → RawGuard
  | .climateIs c => .climate (climateOrder.idxOf c)
  | .pointAbove p x => .above p.val x
  | .pointBelow p x => .below p.val x
  | .pointFresh p => .fresh p.val

theorem reads_target (t : CueTarget) : Reads readTarget t.field t.raw := by
  cases t with
  | actuator a =>
    refine (reads_byteField 0 (by decide)).bind ?_
    exact (reads_byteField _ (by have := a.isLt; omega)).last fun i => (0, i)
  | group g =>
    refine (reads_byteField 1 (by decide)).bind ?_
    exact (reads_byteField _ (by have := g.isLt; omega)).last fun i => (1, i)

theorem reads_guard (g : Guard) (h : g.Fits) : Reads readGuard g.field g.raw := by
  cases g with
  | climateIs c =>
    refine (reads_byteField 0 (by decide)).bind ?_
    exact (reads_named climateOrder c (by decide) (by cases c <;> decide)).last RawGuard.climate
  | pointAbove p x =>
    refine (reads_byteField 1 (by decide)).bind ?_
    exact (reads_byteField _ (by have := p.isLt; omega)).bind ((reads_int x h).last _)
  | pointBelow p x =>
    refine (reads_byteField 2 (by decide)).bind ?_
    exact (reads_byteField _ (by have := p.isLt; omega)).bind ((reads_int x h).last _)
  | pointFresh p =>
    refine (reads_byteField 3 (by decide)).bind ?_
    exact (reads_byteField _ (by have := p.isLt; omega)).last RawGuard.fresh

def Cue.raw (c : Cue) : RawCue :=
  { target := c.target.map CueTarget.raw, level := c.level, fade := c.fade, delay := c.delay
    guard := c.guard.map Guard.raw, skip := c.skip }

theorem reads_cue (c : Cue) (h : c.Fits) : Reads readCue c.bytes c.raw := by
  simp only [Cue.bytes, List.append_assoc]
  refine (reads_opt CueTarget.raw c.target fun t _ => reads_target t).bind <| (reads_int _ h.level).bind <|
    (reads_nat _ h.fade).bind <| (reads_nat _ h.delay).bind <|
    (reads_opt Guard.raw c.guard fun g hg => reads_guard g (h.guard g hg)).bind ?_
  exact (reads_nat _ h.skip).last _

theorem guard_raw (g : Guard) : g.raw.guard = some g := by
  cases g with
  | climateIs c => cases c <;> rfl
  | pointAbove p x => simp [Guard.raw, RawGuard.guard, asIndex_val]
  | pointBelow p x => simp [Guard.raw, RawGuard.guard, asIndex_val]
  | pointFresh p => simp [Guard.raw, RawGuard.guard, asIndex_val]

/-! ### ZONE -/

theorem reads_heat (c : HeatCfg) (h : c.Fits) : Reads readHeat c.bytes c := by
  simp only [HeatCfg.bytes, List.append_assoc]
  refine (reads_int _ h.openOffset).bind <| (reads_int _ h.nightOffset).bind <| (reads_int _ h.spMin).bind <|
    (reads_int _ h.spMax).bind <| (reads_int _ h.kp).bind ?_
  exact (reads_int _ h.ki).last _

theorem reads_arb (c : ArbCfg) (h : c.Fits) : Reads readArb c.bytes c := by
  simp only [ArbCfg.bytes, List.append_assoc]
  refine (reads_nat _ h.dwell).bind <| (reads_int _ h.don).bind <| (reads_int _ h.doff).bind <|
    (reads_int _ h.voff).bind <| (reads_int _ h.hvent).bind <| (reads_int _ h.fIdle).bind <|
    (reads_int _ h.fNight).bind <| (reads_int _ h.fHeat).bind <| (reads_int _ h.fdMin).bind <|
    (reads_int _ h.fdMax).bind <| (reads_int _ h.fVent).bind <| (reads_int _ h.fPurge).bind <|
    (reads_int _ h.dMin).bind ?_
  exact (reads_int _ h.dPurge).last _

def ZoneCfg.raw (c : ZoneCfg) : RawZone :=
  { eval := { c.eval with protect := false, enabled := false }, protect := c.eval.protect.toNat, heat := c.heat, arb := c.arb
    cover := { c.cover with openScene := none, coverWorkScene := none, nightScene := none }
    scenes := [c.cover.openScene, c.cover.coverWorkScene, c.cover.nightScene].map (Option.map Fin.val) }

theorem reads_evalFields (c : EvalCfg) (h : c.Fits) :
    Reads readEval (natField c.period ++ (numField c.rhOpen ++ (numField c.rhNight ++ (numField c.krh ++
      (numField c.mthr ++ (numField c.kc ++ numField c.mcrit)))))) { c with protect := false, enabled := false } := by
  refine (reads_nat _ h.period).bind <| (reads_int _ h.rhOpen).bind <| (reads_int _ h.rhNight).bind <|
    (reads_int _ h.krh).bind <| (reads_int _ h.mthr).bind <| (reads_int _ h.kc).bind ?_
  exact (reads_int _ h.mcrit).last _

theorem reads_coverFields (c : CoverCfg) (h : c.Fits) :
    Reads readCover (natField c.prep ++ (natField c.motion ++ (natField c.detect ++ (natField c.settle ++
      (natField c.waitA ++ (natField c.runB ++ numField c.fanLevel))))))
      { c with openScene := none, coverWorkScene := none, nightScene := none } := by
  refine (reads_nat _ h.prep).bind <| (reads_nat _ h.motion).bind <| (reads_nat _ h.detect).bind <|
    (reads_nat _ h.settle).bind <| (reads_nat _ h.waitA).bind <| (reads_nat _ h.runB).bind ?_
  exact (reads_int _ h.fanLevel).last _

theorem reads_scenes (a b c : Option SceneIx) :
    Reads (readMany (readOpt readCode) 3) (optIndex a ++ (optIndex b ++ optIndex c))
      ([a, b, c].map (Option.map Fin.val)) := by
  have h := reads_many (r := readOpt readCode) (f := optIndex) (Option.map Fin.val) [a, b, c] fun o _ =>
    reads_opt Fin.val o fun x _ => reads_byteField _ (by have := x.isLt; omega)
  simpa using h

theorem reads_zone (c : ZoneCfg) (h : c.Fits) : Reads readZone c.writeBytes c.raw := by
  have he := (reads_evalFields c.eval h.eval).bind (f := fun e => readCode >>= fun p => readHeat >>= fun ht =>
    readArb >>= fun ar => readCover >>= fun co => readMany (readOpt readCode) 3 >>= fun sc =>
    pure ({ eval := e, protect := p, heat := ht, arb := ar, cover := co, scenes := sc } : RawZone))
    ((reads_yesNo c.eval.protect).bind ((reads_heat c.heat h.heat).bind ((reads_arb c.arb h.arb).bind
      ((reads_coverFields c.cover h.cover).bind ((reads_scenes c.cover.openScene c.cover.coverWorkScene
        c.cover.nightScene).last _)))))
  have hb : c.writeBytes = (natField c.eval.period ++ (numField c.eval.rhOpen ++ (numField c.eval.rhNight ++
      (numField c.eval.krh ++ (numField c.eval.mthr ++ (numField c.eval.kc ++ numField c.eval.mcrit)))))) ++
      (yesNo c.eval.protect ++ (c.heat.bytes ++ (c.arb.bytes ++ ((natField c.cover.prep ++ (natField c.cover.motion ++
        (natField c.cover.detect ++ (natField c.cover.settle ++ (natField c.cover.waitA ++ (natField c.cover.runB ++
          numField c.cover.fanLevel)))))) ++ (optIndex c.cover.openScene ++ (optIndex c.cover.coverWorkScene ++
          optIndex c.cover.nightScene)))))) := by
    simp only [ZoneCfg.writeBytes, EvalCfg.bytes, CoverCfg.bytes, List.append_assoc]
  rw [hb]
  exact he

/-! ### SATURATION, FILTER, PART -/

theorem reads_saturation (sat : Vector Nat 17) (h : ∀ v ∈ sat.toList, Nat16 v) :
    Reads readSaturation (saturationBytes sat) sat.toList := by
  have := reads_many (r := readNat) (f := natField) id sat.toList fun v hv => reads_nat v (h v hv)
  rw [List.map_id] at this
  simpa [readSaturation, saturationBytes] using this

def FilterEntry.raw (f : FilterEntry) : RawFilter :=
  { inUse := f.inUse.toNat, lo := f.lo, hi := f.hi, dir := f.dirField.toNat
    action := f.actionField.toNat }

theorem reads_filter (f : FilterEntry) (hlo : Nat16 f.lo) (hhi : Nat16 f.hi) : Reads readFilter f.bytes f.raw := by
  simp only [FilterEntry.bytes, List.append_assoc]
  refine (reads_yesNo _).bind <| (reads_nat _ hlo).bind <| (reads_nat _ hhi).bind <|
    (reads_code _).bind ?_
  exact (reads_code _).last _

theorem entry_filter (f : FilterEntry) : f.raw.entry = some f := by
  unfold RawFilter.entry FilterEntry.raw
  simp only [yesNoCode_toNat, BitVec.ofNat_toNat, BitVec.setWidth_eq]
  rfl

def AccOptions.raw (o : AccOptions) : List Nat := [o.enabled.toNat, o.captureOnOverflow.toNat, o.freezeOnOverflow.toNat]

def PartRecord.raw (p : PartRecord) : RawPart :=
  { own := p.own, supervisor := p.supervisor, ackTimeout := p.ackTimeout, priority := p.priority, maxWait := p.maxWait
    filterDefault := filterActionOrder.idxOf p.filterDefault, run := runOrder.idxOf p.run
    options := p.accOptions.toList.map fun z => z.toList.map AccOptions.raw
    captureMode := captureModeOrder.idxOf p.captureMode, captureThreshold := p.captureThreshold
    ringFreeze := p.ringFreeze.toNat }

theorem reads_perJob (p : PerJob Nat) (h : ∀ j, Nat16 (p.get j)) : Reads readPerJob (perJobBytes p) p := by
  simp only [perJobBytes, jobOrder, List.flatMap_cons, List.flatMap_nil, List.append_nil]
  exact (reads_nat _ (h .heat)).bind <| (reads_nat _ (h .air)).bind <| (reads_nat _ (h .cover)).bind <|
    (reads_nat _ (h .light)).last _

theorem reads_options (o : AccOptions) : Reads (readMany readCode 3) o.bytes o.raw := by
  have := reads_many (r := readCode) (f := yesNo) Bool.toNat [o.enabled, o.captureOnOverflow, o.freezeOnOverflow]
    fun b _ => reads_yesNo b
  simpa [AccOptions.bytes, AccOptions.raw] using this

theorem reads_zoneOptions (v : Vector AccOptions 6) :
    Reads (readMany (readMany readCode 3) 6) (v.toList.flatMap AccOptions.bytes) (v.toList.map AccOptions.raw) := by
  have := reads_many (r := readMany readCode 3) (f := AccOptions.bytes) AccOptions.raw v.toList fun o _ => reads_options o
  rwa [Vector.length_toList] at this

theorem reads_allOptions (v : Vector (Vector AccOptions 6) 4) :
    Reads (readMany (readMany (readMany readCode 3) 6) 4)
      (v.toList.flatMap fun z => z.toList.flatMap AccOptions.bytes) (v.toList.map fun z => z.toList.map AccOptions.raw) := by
  have := reads_many (r := readMany (readMany readCode 3) 6) (f := fun z : Vector AccOptions 6 =>
    z.toList.flatMap AccOptions.bytes) (fun z => z.toList.map AccOptions.raw) v.toList fun z _ => reads_zoneOptions z
  rwa [Vector.length_toList] at this

theorem reads_part (p : PartRecord) (h : p.Fits) : Reads readPart p.bytes p.raw := by
  simp only [PartRecord.bytes, List.append_assoc]
  refine (reads_nat _ h.own).bind <| (reads_nat _ h.supervisor).bind <| (reads_nat _ h.ackTimeout).bind <|
    (reads_perJob _ h.priority).bind <| (reads_perJob _ h.maxWait).bind <|
    (reads_named _ _ (by decide) (by cases p.filterDefault <;> decide)).bind <|
    (reads_named _ _ (by decide) (by cases p.run <;> decide)).bind <| (reads_allOptions _).bind <|
    (reads_named _ _ (by decide) (by cases p.captureMode <;> decide)).bind <| (reads_nat _ h.captureThreshold).bind ?_
  exact (reads_yesNo _).last _

theorem vectorOf_toList {α : Type} {n : Nat} (v : Vector α n) : vectorOf n v.toList = some v := by
  unfold vectorOf
  rw [dif_pos (by simp)]
  congr 1

theorem accOptionsOf_raw (o : AccOptions) : accOptionsOf o.raw = some o := by
  unfold accOptionsOf AccOptions.raw
  simp [yesNoCode_toNat]

theorem mapM_raw {α β : Type} (f : β → Option α) (g : α → β) (h : ∀ x, f (g x) = some x) (l : List α) :
    (l.map g).mapM f = some l := by
  induction l with
  | nil => rfl
  | cons x l ih => simp [List.mapM_cons, h, ih]

theorem allOptions_raw (v : Vector (Vector AccOptions 6) 4) :
    allOptions (v.toList.map fun z => z.toList.map AccOptions.raw) = some v := by
  unfold allOptions
  have h := mapM_raw (fun zone : List (List Nat) => do
      let options ← zone.mapM accOptionsOf
      vectorOf 6 options) (fun z : Vector AccOptions 6 => z.toList.map AccOptions.raw)
    (fun z => by simp [mapM_raw accOptionsOf AccOptions.raw accOptionsOf_raw, vectorOf_toList]) v.toList
  rw [h]
  simp [vectorOf_toList]

theorem record_part (p : PartRecord) : p.raw.record = some p := by
  unfold RawPart.record PartRecord.raw
  simp only [ofCode_idxOf filterActionOrder p.filterDefault (by cases p.filterDefault <;> decide),
    ofCode_idxOf runOrder p.run (by cases p.run <;> decide), allOptions_raw,
    ofCode_idxOf captureModeOrder p.captureMode (by cases p.captureMode <;> decide), yesNoCode_toNat]
  rfl

/-! ### No reader of an entry looks past what it takes -/

theorem grows_point : Grows readPoint :=
  grows_code.bind fun _ => grows_code.bind fun _ => grows_nat.bind fun _ => grows_nat.bind fun _ => grows_code.bind fun _ =>
  grows_code.bind fun _ => grows_int.bind fun _ => grows_int.bind fun _ => grows_nat.bind fun _ => (grows_opt grows_nat).bind fun _ =>
  (grows_opt grows_code).bind fun _ => grows_code.bind fun _ => grows_code.bind fun _ => .pure _

theorem grows_actuator : Grows readActuator :=
  grows_code.bind fun _ => grows_nat.bind fun _ => grows_nat.bind fun _ => grows_code.bind fun _ => grows_code.bind fun _ =>
  grows_int.bind fun _ => grows_int.bind fun _ => grows_nat.bind fun _ => grows_nat.bind fun _ => grows_nat.bind fun _ =>
  grows_code.bind fun _ => .pure _

theorem grows_group : Grows readGroup := grows_code.bind fun _ => grows_many grows_code _

theorem grows_header : Grows readHeader := grows_nat.bind fun _ => grows_code.bind fun _ => .pure _

theorem grows_target : Grows readTarget :=
  grows_code.bind fun _ => grows_code.bind fun _ => .ite (.pure _) .failure

theorem grows_guard : Grows readGuard := by
  refine grows_code.bind fun selector => ?_
  split
  · exact grows_code.bind fun _ => .pure _
  · exact grows_code.bind fun _ => grows_int.bind fun _ => .pure _
  · exact grows_code.bind fun _ => grows_int.bind fun _ => .pure _
  · exact grows_code.bind fun _ => .pure _
  · exact .failure

theorem grows_cue : Grows readCue :=
  (grows_opt grows_target).bind fun _ => grows_int.bind fun _ => grows_nat.bind fun _ => grows_nat.bind fun _ =>
  (grows_opt grows_guard).bind fun _ => grows_nat.bind fun _ => .pure _

theorem grows_eval : Grows readEval :=
  grows_nat.bind fun _ => grows_int.bind fun _ => grows_int.bind fun _ => grows_int.bind fun _ => grows_int.bind fun _ =>
  grows_int.bind fun _ => grows_int.bind fun _ => .pure _

theorem grows_heat : Grows readHeat :=
  grows_int.bind fun _ => grows_int.bind fun _ => grows_int.bind fun _ => grows_int.bind fun _ => grows_int.bind fun _ =>
  grows_int.bind fun _ => .pure _

theorem grows_arb : Grows readArb :=
  grows_nat.bind fun _ => grows_int.bind fun _ => grows_int.bind fun _ => grows_int.bind fun _ => grows_int.bind fun _ =>
  grows_int.bind fun _ => grows_int.bind fun _ => grows_int.bind fun _ => grows_int.bind fun _ => grows_int.bind fun _ =>
  grows_int.bind fun _ => grows_int.bind fun _ => grows_int.bind fun _ => grows_int.bind fun _ => .pure _

theorem grows_cover : Grows readCover :=
  grows_nat.bind fun _ => grows_nat.bind fun _ => grows_nat.bind fun _ => grows_nat.bind fun _ => grows_nat.bind fun _ =>
  grows_nat.bind fun _ => grows_int.bind fun _ => .pure _

theorem grows_zone : Grows readZone :=
  grows_eval.bind fun _ => grows_code.bind fun _ => grows_heat.bind fun _ => grows_arb.bind fun _ => grows_cover.bind fun _ =>
  (grows_many (grows_opt grows_code) 3).bind fun _ => .pure _

theorem grows_saturation : Grows readSaturation := grows_many grows_nat 17

theorem grows_filter : Grows readFilter :=
  grows_code.bind fun _ => grows_nat.bind fun _ => grows_nat.bind fun _ => grows_code.bind fun _ => grows_code.bind fun _ => .pure _

theorem grows_perJob : Grows readPerJob :=
  grows_nat.bind fun _ => grows_nat.bind fun _ => grows_nat.bind fun _ => grows_nat.bind fun _ => .pure _

theorem grows_part : Grows readPart :=
  grows_nat.bind fun _ => grows_nat.bind fun _ => grows_nat.bind fun _ => grows_perJob.bind fun _ => grows_perJob.bind fun _ =>
  grows_code.bind fun _ => grows_code.bind fun _ => (grows_many (grows_many (grows_many grows_code 3) 6) 4).bind fun _ =>
  grows_code.bind fun _ => grows_nat.bind fun _ => grows_code.bind fun _ => .pure _

/-! ### Watches -/

def WatchTarget.raw : WatchTarget → Nat × Nat
  | .point p => (0, p.val)
  | .actuator a => (1, a.val)

def WatchCondition.raw : WatchCondition → Bool × Int
  | .above x => (true, x)
  | .below x => (false, x)

def Watch.raw (w : Watch) : RawWatch :=
  { armed := w.armed.toNat, target := w.target.raw, on := watchOnOrder.idxOf w.on
    condition := w.condition.map WatchCondition.raw, action := watchActionOrder.idxOf w.action }

theorem reads_watchTarget (t : WatchTarget) : Reads readTarget t.field t.raw := by
  cases t with
  | point p =>
    refine (reads_byteField 0 (by decide)).bind ?_
    exact (reads_byteField _ (by have := p.isLt; omega)).last fun i => (0, i)
  | actuator a =>
    refine (reads_byteField 1 (by decide)).bind ?_
    exact (reads_byteField _ (by have := a.isLt; omega)).last fun i => (1, i)

theorem reads_condition (c : WatchCondition) (h : c.Fits) : Reads readCondition c.field c.raw := by
  cases c with
  | above x =>
    refine (reads_byteField 0 (by decide)).bind ?_
    exact (reads_int x h).last fun x => (true, x)
  | below x =>
    refine (reads_byteField 1 (by decide)).bind ?_
    exact (reads_int x h).last fun x => (false, x)

theorem reads_watch (w : Watch) (h : ∀ c, w.condition = some c → c.Fits) : Reads readWatch w.bytes w.raw := by
  simp only [Watch.bytes, List.append_assoc]
  refine (reads_yesNo _).bind <| (reads_watchTarget _).bind <|
    (reads_named _ _ (by decide) (by cases w.on <;> decide)).bind <|
    (reads_opt WatchCondition.raw w.condition fun c hc => reads_condition c (h c hc)).bind ?_
  exact (reads_named _ _ (by decide) (by cases w.action <;> decide)).last _

theorem watchTarget_raw (t : WatchTarget) : watchTarget t.raw = some t := by
  cases t <;> simp [WatchTarget.raw, watchTarget, asIndex_val]

/-- The watch as written, refused where on does not suit the target (R184). -/
theorem watch_raw (w : Watch) : w.raw.watch = if onSuits w.on w.target then some w else none := by
  unfold RawWatch.watch Watch.raw
  simp only [yesNoCode_toNat, watchTarget_raw, ofCode_idxOf watchOnOrder w.on (by cases w.on <;> decide),
    ofCode_idxOf watchActionOrder w.action (by cases w.action <;> decide)]
  have hc : (w.condition.map WatchCondition.raw).map (fun c : Bool × Int =>
      if c.1 then WatchCondition.above c.2 else WatchCondition.below c.2) = w.condition := by
    rcases w.condition with _ | (_ | _) <;> rfl
  show (if onSuits w.on w.target = true then _ else _) = _
  rw [hc]

end Sys2Proof.Machine
end

