-- ==== Sys2Proof/Laws/Evaluation.lean ====
section
/-! SUPPORT. What stages 1 to 8 of an evaluation form (R34 to R56). -/

namespace Sys2Proof.Machine

/-- The evaluation results of a zone before its timer restarts. -/
def State.evalStages (s : State) (z : ZoneIx) : EvalRt :=
  stages2to6 (s.cfg.zones[z]).eval s.cfg.saturation ((s.zones[z]).cover.state == .covered) (s.stage1 z (s.zones[z]).eval)

/-- The heating results of a zone. -/
def State.heatStages (s : State) (z : ZoneIx) : HeatRt :=
  stage8 (s.cfg.zones[z]).heat (s.evalStages z).ta.last
    (stage7 (s.cfg.zones[z]).heat ((s.zones[z]).cover.state == .covered) (s.evalStages z).tw.last (s.zones[z]).heat)

/-- The stages as the evaluation runs them. -/
theorem evaluated_eq (s : State) (z : ZoneIx) :
    s.updZone z (fun _ => s.evaluated z) = s.withEvaluation z (s.evalStages z) (s.heatStages z) := rfl

/-- Every stage forms what its rule says. -/
theorem evaluated_forms (s : State) (z : ZoneIx) :
    EvaluationForms s z (s.evalStages z) (s.heatStages z) := by
  unfold State.heatStages State.evalStages
  set old := (s.zones[z]).eval with hold
  set e1 := s.stage1 z old with he1
  set night := ((s.zones[z]).cover.state == CoverState.covered) with hn
  have hnight : night = true ↔ (s.zones[z]).cover.state = .covered := by rw [hn]; exact beq_iff_eq
  set c := (s.cfg.zones[z]).eval with hc
  set e := stages2to6 c s.cfg.saturation night e1 with he
  have hta : e.ta = e1.ta := by rw [he]; unfold stages2to6; split <;> rfl
  have hrh : e.rh = e1.rh := by rw [he]; unfold stages2to6; split <;> rfl
  have htw : e.tw = e1.tw := by rw [he]; unfold stages2to6; split <;> rfl
  have htg : e.tg = e1.tg := by rw [he]; unfold stages2to6; split <;> rfl
  have hto : e.tout = e1.tout := by rw [he]; unfold stages2to6; split <;> rfl
  have hno : e.noAirData = e1.noAirData := by rw [he]; unfold stages2to6; split <;> rfl
  have hno1 : e1.noAirData = (e1.ta.last.isNone || e1.rh.last.isNone) := rfl
  have hsome : e.noAirData = false → ∃ ta rh, e1.ta.last = some ta ∧ e1.rh.last = some rh ∧ e = stage6 c night rh (stage5 (stages2to4 s.cfg.saturation ta rh e1)) := by
    intro h
    rw [hno, hno1] at h
    cases h1 : e1.ta.last with
    | none => rw [h1] at h; simp at h
    | some ta =>
      cases h2 : e1.rh.last with
      | none => rw [h2] at h; simp at h
      | some rh => exact ⟨ta, rh, rfl, rfl, by rw [he]; unfold stages2to6; rw [h1, h2]⟩
  refine { ta := hta, rh := hrh, tw := htw, tg := htg, tout := hto, noAirData := ?_, skipped := ?_, air := ?_, margin := ?_, demand := ?_, crit := ?_, setpoint := ?_, kept := ?_, heating := ?_ }
  · rw [hno, hno1, hta, hrh]; simp
  · intro h
    have : e = e1 := by
      rw [hno, hno1] at h
      rw [he]; unfold stages2to6
      cases h1 : e1.ta.last with
      | none => rfl
      | some _ =>
        cases h2 : e1.rh.last with
        | none => rfl
        | some _ => rw [h1, h2] at h; simp at h
    rw [this] at h ⊢
    rw [he1]
    unfold State.stage1 
    have h' := h
    rw [he1] at h'
    unfold State.stage1 at h'
    dsimp only at h' ⊢
    rw [h']
  · intro ta rh h1 h2
    have hnf : e.noAirData = false := by rw [hno, hno1, ← hta, ← hrh, h1, h2]; rfl
    obtain ⟨ta', rh', h1', h2', he'⟩ := hsome hnf
    rw [hta, h1'] at h1; rw [hrh, h2'] at h2
    cases h1; cases h2
    rw [he']
    refine ⟨rfl, rfl, rfl, rfl, ?_, ?_⟩
    · show (e1.tClamp || _) = true ↔ _
      have : e1.tClamp = old.tClamp := rfl
      rw [this]
      simp only [Bool.or_eq_true, bne_iff_ne, ne_eq, clampedAir, clamp]
      refine or_congr Iff.rfl ?_
      split_ifs <;> omega
    · show (e1.dewLow || _) = true ↔ _
      have : e1.dewLow = old.dewLow := rfl
      rw [this]
      simp only [Bool.or_eq_true, decide_eq_true_eq]
      exact or_congr Iff.rfl ⟨fun h => ⟨_, rfl, h⟩, fun ⟨pv, h, h'⟩ => by cases h; exact h'⟩
  · intro h
    obtain ⟨ta, rh, h1, h2, he'⟩ := hsome h
    have hm : e.margin = match e1.tg.last, e.td with | some tg, some td => some (tg - td) | _, _ => none := by rw [he']; rfl
    refine ⟨?_, ?_, ?_⟩
    · intro tg td h3 h4; rw [htg] at h3; rw [hm, h3, h4]
    · intro h3; rw [htg] at h3; rw [hm, h3]
    · rw [htg, he']; rfl
  · intro rh h h2
    obtain ⟨ta, rh', h1, h2', he'⟩ := hsome h
    rw [hrh, h2'] at h2; cases h2
    have hm : (stage5 (stages2to4 s.cfg.saturation ta rh e1)).margin = e.margin := by rw [he']; rfl
    refine ⟨?_, ?_, ?_⟩
    · rw [he']
      show dryingRh c night rh = _
      unfold dryingRh
      by_cases hcv : (s.zones[z]).cover.state = .covered
      · rw [if_pos hcv, hnight.mpr hcv]; rfl
      · rw [if_neg hcv]
        have : night = false := by rw [← Bool.not_eq_true, hnight]; exact hcv
        rw [this]; rfl
    · have : e.dCond = dryingCond c e.margin := by rw [← hm, he']; rfl
      rw [this]
      rfl
    · rw [he']; rfl
  · intro h
    obtain ⟨ta, rh', h1, h2', he'⟩ := hsome h
    have : e.crit = critNext c old.crit e.margin := by rw [he']; rfl
    rw [this]
    unfold critNext
    cases hm : e.margin with
    | none => cases old.crit <;> simp
    | some m =>
      cases hcr : old.crit <;> simp <;> exact Iff.rfl
  · constructor
    · intro tw h
      rw [h]
      have hh : ∀ (ta : Option Int) (x : HeatRt), (stage8 (s.cfg.zones[z]).heat ta x).heldSetpoint = x.heldSetpoint ∧ (stage8 (s.cfg.zones[z]).heat ta x).spa = x.spa := by
        intro ta x; unfold stage8; split <;> exact ⟨rfl, rfl⟩
      rw [(hh _ _).1, (hh _ _).2]
      refine ⟨rfl, ?_⟩
      show some _ = some _
      by_cases hcv : (s.zones[z]).cover.state = .covered
      · rw [if_pos hcv, hnight.mpr hcv]; rfl
      · rw [if_neg hcv]
        have : night = false := by rw [← Bool.not_eq_true, hnight]; exact hcv
        rw [this]; rfl
    · intro h
      rw [h]
      have hh : ∀ (ta : Option Int) (x : HeatRt), (stage8 (s.cfg.zones[z]).heat ta x).heldSetpoint = x.heldSetpoint ∧ (stage8 (s.cfg.zones[z]).heat ta x).spa = x.spa := by
        intro ta x; unfold stage8; split <;> exact ⟨rfl, rfl⟩
      rw [(hh _ _).1, (hh _ _).2]
      exact ⟨rfl, rfl⟩
  · intro h
    rw [h]
    have : ∀ x : HeatRt, stage8 (s.cfg.zones[z]).heat none x = x := by intro x; unfold stage8; cases x.spa <;> rfl
    rw [this]
    unfold stage7; split <;> rfl
  · intro ta spa h1 h2 error pterm formed trial candidate
    rw [h1] at h2 ⊢
    set h7 := stage7 (s.cfg.zones[z]).heat night e.tw.last (s.zones[z]).heat with h7d
    have hs : (stage8 (s.cfg.zones[z]).heat (some ta) h7).spa = h7.spa := by unfold stage8; split <;> rfl
    rw [hs] at h2
    have hi : h7.i = (s.zones[z]).heat.i := by rw [h7d]; unfold stage7; split <;> rfl
    have hl : h7.integLimit = (s.zones[z]).heat.integLimit := by rw [h7d]; unfold stage7; split <;> rfl
    have h8 : stage8 (s.cfg.zones[z]).heat (some ta) h7 = { h7 with
      e := some error, i := clamp candidate 0 64000, integLimit := h7.integLimit || reachesLimit h7.i candidate
      h := clamp (pterm + (clamp candidate 0 64000).tdiv 64) 0 1000 } := by
      unfold stage8
      rw [h2]
      dsimp only
      rw [hi]
      rfl
    rw [h8]
    refine ⟨rfl, rfl, rfl, ?_⟩
    show (h7.integLimit || reachesLimit h7.i candidate) = true ↔ _
    rw [hl, hi]
    simp [reachesLimit, or_assoc]

end Sys2Proof.Machine
end

