-- ==== Sys2Proof/Laws/Requests.lean ====
section
/-! SUPPORT. What the take of a request does: one lemma for a request that passes the common checks, one for a request that
fails them, one for a row that has no request. -/

namespace Sys2Proof.Machine

variable {s : State} {c : Channel} {t : Telegram} {kind : Byte} {params : List Byte}

theorem request_kindByte (h : t.payload = kind :: params) : (Request.of c t).kindByte = kind := by simp [Request.of, h]

theorem request_params (h : t.payload = kind :: params) : (Request.of c t).params = params := by simp [Request.of, h]

@[simp] theorem request_channel : (Request.of c t).channel = c := rfl
@[simp] theorem request_telegram : (Request.of c t).telegram = t := rfl

theorem nextRequest_of (h : s.mgmt.next = some (c, t)) : s.nextRequest = some (.of c t) := by
  simp [State.nextRequest, h]

theorem popRequest_eq_taken (s : State) (c : Channel) : s.popRequest c = s.taken c := by cases c <;> rfl

/-- The common checks read nothing that taking a request changes. -/
theorem commonCheck_taken (s : State) (c : Channel) (r : Request) : (s.taken c).commonCheck r = s.commonCheck r := by
  cases c <;> rfl

theorem statusByte_eq (status : Status) : named statusOrder status = [status.byte] := by cases status <;> rfl

/-- A reply queued at once is the reply of R164. -/
theorem reply_now (a : Answer) (hm : a.mode = .now) (h : t.payload = kind :: params) :
    a.reply (.of c t) = a.state.replied c t kind a.status a.results := by
  unfold Answer.reply State.replied State.queueReply State.updMgmt State.replyTo State.replyTelegram
  simp [hm, statusByte_eq, request_kindByte h, kindReply, State.own]

/-- A request that passes the common checks is answered by its own rule, on the state from which it has been taken. -/
theorem serve_own (own : Request → State → Answer) (row : Instr) (h : NextIs s c t kind params)
    (hrow : (Request.of c t).row = row) : s.serve row own = (own (.of c t) (s.taken c)).reply (.of c t) := by
  unfold State.serve
  rw [nextRequest_of h.next]
  simp only [hrow, if_true]
  unfold State.take
  simp only [request_channel, popRequest_eq_taken, commonCheck_taken, h.passes]

/-- A request that fails the common checks is answered by their refusal. -/
theorem serve_refused (own : Request → State → Answer) (row : Instr) (status : Status) (hn : s.mgmt.next = some (c, t))
    (hf : s.commonCheck (.of c t) = some status) (hrow : (Request.of c t).row = row) :
    s.serve row own = ((s.taken c).commonRefusal (.of c t) status).reply (.of c t) := by
  unfold State.serve
  rw [nextRequest_of hn]
  simp only [hrow, if_true]
  unfold State.take
  simp only [request_channel, popRequest_eq_taken, commonCheck_taken, hf]

/-- A row whose request is not the next one changes nothing (log 1). -/
theorem serve_other (own : Request → State → Answer) (row : Instr)
    (h : ∀ r, s.nextRequest = some r → r.row ≠ row) : s.serve row own = s := by
  unfold State.serve
  split
  · rename_i r hr
    simp [h r hr]
  · rfl

/-- The kind of a request that passes the common checks has the shape that the checks demand. -/
theorem shape_of_passes (h : NextIs s c t kind params) :
    ∃ k, ReqKind.ofCode kind = some k ∧ shapeOk k params = true := by
  have hp := h.passes
  unfold State.commonCheck Request.kind at hp
  rw [request_kindByte h.payload] at hp
  split at hp
  · simp at hp
  · rename_i k hk
    refine ⟨k, hk, ?_⟩
    by_contra hs
    rw [request_params h.payload] at hp
    simp [hs] at hp

/-- A segment of a reading is answered, or BAD_VALUE where there is no such segment (R166). -/
theorem segment_answer (s : State) (h : t.payload = kind :: params) (bytes : List Byte) (seg : Byte) :
    (s.answerSegment bytes seg.toNat).reply (Request.of c t) =
      if seg.toNat < segmentCount bytes then
        s.replied c t kind .done ([seg, BitVec.ofNat 8 (segmentCount bytes)] ++ segmentOf bytes seg.toNat)
      else s.replied c t kind .badValue [] := by
  unfold State.answerSegment segmented
  split
  · rename_i r hr
    split at hr
    · rename_i hlt
      rw [if_pos hlt, reply_now _ rfl h]
      simp only [Option.some.injEq] at hr
      subst hr
      simp [State.doneWith, byteField]
    · simp at hr
  · rename_i hr
    split at hr
    · simp at hr
    · rename_i hlt
      rw [if_neg hlt, reply_now _ rfl h]; rfl

theorem segmentCount_gt (bytes : List Byte) (n : Nat) (h : bytes ≠ []) : n < segmentCount bytes ↔ 25 * n < bytes.length := by
  have : 0 < bytes.length := List.length_pos_of_ne_nil h
  unfold segmentCount; omega

end Sys2Proof.Machine
end

