-- ==== Sys2Proof/Laws/Lines.lean ====
section
/-! SUPPORT. Lines: a telegram read back from its bytes (R150, R151), the comparison of an attempt (R156), the filter's test of one
entry (R154), and the first match in a list that is split at it. -/

namespace Sys2Proof.Machine

/-- The values of a unit heard without error. -/
theorem heardClean_value (l : List Byte) : (l.map fun b => ({ value := b, stop := true } : RxByte)).map RxByte.value = l := by
  simp [Function.comp_def]

theorem heardClean_stop (l : List Byte) : (l.map fun b => ({ value := b, stop := true } : RxByte)).all RxByte.stop = true := by simp

/-- A unit whose bytes all had their stop bit is its values heard without error. -/
theorem heard_eq_clean : ∀ (heard : List RxByte), heard.all RxByte.stop = true → heard = (heard.map RxByte.value).map (fun b => { value := b, stop := true })
  | [], _ => rfl
  | ⟨v, st⟩ :: l, h => by
    simp at h
    simp [h.1]
    have := heard_eq_clean l (by simp; exact h.2)
    simpa [Function.comp_def] using this

/-- A telegram's bytes are read as that telegram (R150, R151). -/
theorem ofBytes_bytes (t : Telegram) (h : t.payload.length ≤ 32) : Telegram.ofBytes t.bytes = some t := by
  unfold Telegram.bytes Telegram.body
  simp only [List.cons_append, List.nil_append]
  unfold Telegram.ofBytes
  have hl : (BitVec.ofNat 8 t.payload.length).toNat = t.payload.length := by simp; omega
  have hlen : (checkBytes (t.dest :: t.src :: (t.kind ++ t.tag) :: BitVec.ofNat 8 t.payload.length :: t.payload)).length = 2 := rfl
  simp only [hl]
  rw [if_pos]
  · simp only [List.take_left']
    congr 1
    rcases t with ⟨d, s, k, g, p⟩
    simp only [Telegram.mk.injEq, true_and, and_true]
    have split : ∀ k g : BitVec 4, (k ++ g).extractLsb' 4 4 = k ∧ (k ++ g).extractLsb' 0 4 = g := by decide
    exact split k g
  · refine ⟨h, by simp [hlen], ?_⟩
    rw [List.drop_left', List.take_left'] <;> rfl

/-- What it is for a filter entry to match (R154). -/
theorem matchesDest_iff (f : FilterEntry) (d : Direction) (n : Nat) : f.matchesDest d n = true ↔ (f.inUse = true ∧ f.lo ≤ n ∧ n ≤ f.hi ∧
      (f.dir = some .both ∨ (f.dir = some .ht ∧ d = .ht) ∨ (f.dir = some .th ∧ d = .th))) := by
  unfold FilterEntry.matchesDest
  rcases f.dir with _ | _ | _ | _ <;> cases d <;> simp <;> tauto

/-- An attempt whose bytes are all read back as sent is sent (R156). -/
theorem compareReadBack_clean : ∀ l : List Byte, compareReadBack l (l.map fun b => ({ value := b, stop := true } : RxByte)) = .sent := by
  intro l; induction l with
  | nil => rfl
  | cons a l ih => simp [compareReadBack, ih]

/-- A byte that differs, or lacks its stop bit, disturbs the attempt (R156). -/
theorem compareReadBack_disturbed : ∀ (l : List Byte) (k : Nat) (b : RxByte), k < l.length → (b.value ≠ l.getD k 0 ∨ b.stop = false) →
   compareReadBack l ((l.map fun b => ({ value := b, stop := true } : RxByte)).take k ++ [b]) = .disturbed := by
  intro l; induction l with
  | nil => intro k b h; simp at h
  | cons a l ih =>
    intro k b h hb
    cases k with
    | zero => 
      simp [compareReadBack] at hb ⊢
      intro h1 h2
      rcases hb with hb | hb <;> simp_all
    | succ k => simp [compareReadBack]; simpa using ih k b (by simpa using h) (by simpa using hb)

/-- The first item that passes a test. -/
theorem find_first {α} (p : α → Bool) (older younger : List α) (o : α) (h : ∀ x ∈ older, p x = false) (ho : p o = true) :
    (older ++ o :: younger).find? p = some o := by
  rw [List.find?_append, List.find?_eq_none.mpr (by simpa using h)]; simp [ho]

end Sys2Proof.Machine
end

