-- ==== Sys2Proof/WellFormed.lean ====
section
/-! DEFINITION. Which terms are commands a sender can send. Index operands are bounded by their types; what is left to check
is that a unit, and a read-back, was heard at all (R151, R156). -/

namespace Sys2Proof

/-- A received unit is "the bytes heard between one quiet stretch and the next" (R151): at least one byte. -/
def heardWf (heard : List RxByte) : Bool := !heard.isEmpty

/-- Well-formedness of a command. -/
def Instr.wf (i : Instr) : Bool :=
  match i with
  | .receivedUnit _ heard => heardWf heard
  | .serviceUnit heard => heardWf heard
  | .txAttemptEnd _ readBack => heardWf readBack
  | .powerOn | .staleExpiry _ | .evaluation _ | .dwellExpiry _ | .detectTimeout _ | .prepTimeout _ | .motionTimeout _
  | .settleExpiry _ | .purgeWaitExpiry _ | .purgeRunExpiry _ | .cueDelayExpiry _ _ | .fadeStep _ | .refreshExpiry _
  | .retryExpiry _ | .overrideHoldExpiry _ | .ackTimeout _ | .arbitration | .hallTxChoose | .trunkTxChoose
  | .txRetryAttempt _ _ | .serviceReplySent | .commitComplete | .localIdleExpiry | .restartBegin | .unknownRequest
  | .identify | .readEntry | .writeEntrySegment | .writeEntryPoint | .writeEntryActuator | .writeEntryGroup
  | .writeEntrySceneHeader | .writeEntryCue | .writeEntryZone | .writeEntrySaturation | .writeEntryFilter | .writeEntryPart
  | .zoneEnable | .zoneDisable | .closeCovers | .openCovers | .clearFault | .resetControl | .resume | .sceneRequest
  | .actuatorDisable | .actuatorEnable | .readFlags | .lineStatus _ _ | .accumulatorRead | .accumulatorPreload
  | .accumulatorSetRun | .captureTake | .captureCount | .captureRead | .ringRead | .ringUnfreeze | .watchRead | .watchWrite
  | .watchArm | .watchDisarm | .commitImage | .restart | .takeLocal | .releaseLocal => true

end Sys2Proof
end

