-- ==== Sys2Proof/Laws/PerInstr.lean ====
section
/-! SUPPORT. One lemma per command: what well-formedness demands of it as syntax. -/

namespace Sys2Proof.Laws

/-- The bytes that a command says were heard or read back, none where it names no bytes. -/
def heardBytes : Instr → Option (List RxByte)
  | .receivedUnit _ heard | .serviceUnit heard | .txAttemptEnd _ heard => some heard
  | _ => none

/-- A command is well formed exactly when the bytes it names, if it names any, are at least one (R151, R156, R162). -/
def Heard.Statement (i : Instr) : Prop := i.wf = true ↔ ∀ l, heardBytes i = some l → l ≠ []

/-- A command that names no bytes. -/
theorem silent {i : Instr} (hw : i.wf = true) (hb : heardBytes i = none) : Heard.Statement i :=
  ⟨fun _ l h => absurd (hb.symm.trans h) (by simp), fun _ => hw⟩

/-- A command that names bytes. -/
theorem audible {i : Instr} {l : List RxByte} (hw : i.wf = heardWf l) (hb : heardBytes i = some l) : Heard.Statement i := by
  unfold Heard.Statement
  rw [hw, hb]
  cases l <;> simp [heardWf]

theorem Heard.powerOn : Heard.Statement .powerOn := silent rfl rfl
theorem Heard.receivedUnit (line : Line) (heard : List RxByte) : Heard.Statement (.receivedUnit line heard) := audible rfl rfl
theorem Heard.serviceUnit (heard : List RxByte) : Heard.Statement (.serviceUnit heard) := audible rfl rfl
theorem Heard.staleExpiry (point : PointIx) : Heard.Statement (.staleExpiry point) := silent rfl rfl
theorem Heard.evaluation (zone : ZoneIx) : Heard.Statement (.evaluation zone) := silent rfl rfl
theorem Heard.dwellExpiry (zone : ZoneIx) : Heard.Statement (.dwellExpiry zone) := silent rfl rfl
theorem Heard.detectTimeout (zone : ZoneIx) : Heard.Statement (.detectTimeout zone) := silent rfl rfl
theorem Heard.prepTimeout (zone : ZoneIx) : Heard.Statement (.prepTimeout zone) := silent rfl rfl
theorem Heard.motionTimeout (zone : ZoneIx) : Heard.Statement (.motionTimeout zone) := silent rfl rfl
theorem Heard.settleExpiry (zone : ZoneIx) : Heard.Statement (.settleExpiry zone) := silent rfl rfl
theorem Heard.purgeWaitExpiry (zone : ZoneIx) : Heard.Statement (.purgeWaitExpiry zone) := silent rfl rfl
theorem Heard.purgeRunExpiry (zone : ZoneIx) : Heard.Statement (.purgeRunExpiry zone) := silent rfl rfl
theorem Heard.cueDelayExpiry (zone : ZoneIx) (cue : CueIx) : Heard.Statement (.cueDelayExpiry zone cue) := silent rfl rfl
theorem Heard.fadeStep (zone : ZoneIx) : Heard.Statement (.fadeStep zone) := silent rfl rfl
theorem Heard.refreshExpiry (actuator : ActIx) : Heard.Statement (.refreshExpiry actuator) := silent rfl rfl
theorem Heard.retryExpiry (actuator : ActIx) : Heard.Statement (.retryExpiry actuator) := silent rfl rfl
theorem Heard.overrideHoldExpiry (actuator : ActIx) : Heard.Statement (.overrideHoldExpiry actuator) := silent rfl rfl
theorem Heard.ackTimeout (tag : Tag) : Heard.Statement (.ackTimeout tag) := silent rfl rfl
theorem Heard.arbitration : Heard.Statement .arbitration := silent rfl rfl
theorem Heard.hallTxChoose : Heard.Statement .hallTxChoose := silent rfl rfl
theorem Heard.trunkTxChoose : Heard.Statement .trunkTxChoose := silent rfl rfl
theorem Heard.txAttemptEnd (line : Line) (readBack : List RxByte) : Heard.Statement (.txAttemptEnd line readBack) := audible rfl rfl
theorem Heard.txRetryAttempt (line : Line) (quietByteTimes : Nat) : Heard.Statement (.txRetryAttempt line quietByteTimes) := silent rfl rfl
theorem Heard.serviceReplySent : Heard.Statement .serviceReplySent := silent rfl rfl
theorem Heard.commitComplete : Heard.Statement .commitComplete := silent rfl rfl
theorem Heard.localIdleExpiry : Heard.Statement .localIdleExpiry := silent rfl rfl
theorem Heard.restartBegin : Heard.Statement .restartBegin := silent rfl rfl
theorem Heard.unknownRequest : Heard.Statement .unknownRequest := silent rfl rfl
theorem Heard.identify : Heard.Statement .identify := silent rfl rfl
theorem Heard.readEntry : Heard.Statement .readEntry := silent rfl rfl
theorem Heard.writeEntrySegment : Heard.Statement .writeEntrySegment := silent rfl rfl
theorem Heard.writeEntryPoint : Heard.Statement .writeEntryPoint := silent rfl rfl
theorem Heard.writeEntryActuator : Heard.Statement .writeEntryActuator := silent rfl rfl
theorem Heard.writeEntryGroup : Heard.Statement .writeEntryGroup := silent rfl rfl
theorem Heard.writeEntrySceneHeader : Heard.Statement .writeEntrySceneHeader := silent rfl rfl
theorem Heard.writeEntryCue : Heard.Statement .writeEntryCue := silent rfl rfl
theorem Heard.writeEntryZone : Heard.Statement .writeEntryZone := silent rfl rfl
theorem Heard.writeEntrySaturation : Heard.Statement .writeEntrySaturation := silent rfl rfl
theorem Heard.writeEntryFilter : Heard.Statement .writeEntryFilter := silent rfl rfl
theorem Heard.writeEntryPart : Heard.Statement .writeEntryPart := silent rfl rfl
theorem Heard.zoneEnable : Heard.Statement .zoneEnable := silent rfl rfl
theorem Heard.zoneDisable : Heard.Statement .zoneDisable := silent rfl rfl
theorem Heard.closeCovers : Heard.Statement .closeCovers := silent rfl rfl
theorem Heard.openCovers : Heard.Statement .openCovers := silent rfl rfl
theorem Heard.clearFault : Heard.Statement .clearFault := silent rfl rfl
theorem Heard.resetControl : Heard.Statement .resetControl := silent rfl rfl
theorem Heard.resume : Heard.Statement .resume := silent rfl rfl
theorem Heard.sceneRequest : Heard.Statement .sceneRequest := silent rfl rfl
theorem Heard.actuatorDisable : Heard.Statement .actuatorDisable := silent rfl rfl
theorem Heard.actuatorEnable : Heard.Statement .actuatorEnable := silent rfl rfl
theorem Heard.readFlags : Heard.Statement .readFlags := silent rfl rfl
theorem Heard.lineStatus (hallBusy : Bool) (trunkBusy : Bool) : Heard.Statement (.lineStatus hallBusy trunkBusy) := silent rfl rfl
theorem Heard.accumulatorRead : Heard.Statement .accumulatorRead := silent rfl rfl
theorem Heard.accumulatorPreload : Heard.Statement .accumulatorPreload := silent rfl rfl
theorem Heard.accumulatorSetRun : Heard.Statement .accumulatorSetRun := silent rfl rfl
theorem Heard.captureTake : Heard.Statement .captureTake := silent rfl rfl
theorem Heard.captureCount : Heard.Statement .captureCount := silent rfl rfl
theorem Heard.captureRead : Heard.Statement .captureRead := silent rfl rfl
theorem Heard.ringRead : Heard.Statement .ringRead := silent rfl rfl
theorem Heard.ringUnfreeze : Heard.Statement .ringUnfreeze := silent rfl rfl
theorem Heard.watchRead : Heard.Statement .watchRead := silent rfl rfl
theorem Heard.watchWrite : Heard.Statement .watchWrite := silent rfl rfl
theorem Heard.watchArm : Heard.Statement .watchArm := silent rfl rfl
theorem Heard.watchDisarm : Heard.Statement .watchDisarm := silent rfl rfl
theorem Heard.commitImage : Heard.Statement .commitImage := silent rfl rfl
theorem Heard.restart : Heard.Statement .restart := silent rfl rfl
theorem Heard.takeLocal : Heard.Statement .takeLocal := silent rfl rfl
theorem Heard.releaseLocal : Heard.Statement .releaseLocal := silent rfl rfl

end Sys2Proof.Laws
end

