-- ==== Sys2Proof/Laws/Writes.lean ====
section
/-! SUPPORT. The end of a WRITE_ENTRY (R167): the gathered bytes go to the table's own rule on the state from which the request
has been taken and whose staging record is empty, and its status is the reply's. -/

namespace Sys2Proof.Machine

variable {s : State} {c : Channel} {t : Telegram} {kind : Byte} {params : List Byte}

theorem request_param (h : t.payload = kind :: params) (i : Nat) : (Request.of c t).param i = (params.getD i 0).toNat := by
  simp [Request.param, Request.of, h]

theorem asIndex_byte {n : Nat} (i : Fin n) (hn : n ≤ 256) : asIndex n (BitVec.ofNat 8 i.val).toNat = some i := by
  have := i.isLt
  rw [show (BitVec.ofNat 8 i.val).toNat = i.val by simp; omega]
  simp [asIndex]

theorem taken_staging (s : State) (c c' : Channel) : (s.taken c).mgmt.staging c' = s.mgmt.staging c' := by
  cases c <;> cases c' <;> rfl

/-- The row of a segment that ends a write is its table's. -/
theorem writeRow_of {table : Byte} {hi lo seg : Byte} {data : List Byte} {tid : TableId}
    (h : NextIs s c t 3 ([table, hi, lo, seg, 1] ++ data)) (htid : ofCode tableOrder table.toNat = some tid) :
    (Request.of c t).row = tid.writeRow := by
  obtain ⟨k, hk, hs⟩ := shape_of_passes h
  have hk' : k = .writeEntry := by
    have : ReqKind.ofCode 3 = some .writeEntry := rfl
    rw [this] at hk; exact (Option.some.inj hk).symm
  subst hk'
  have hkind : (Request.of c t).kind = some .writeEntry := by
    unfold Request.kind; rw [request_kindByte h.payload]; rfl
  unfold Request.row
  rw [hkind]
  dsimp only
  rw [request_params h.payload, hs]
  simp only [if_true, writeEntryRow, request_param h.payload]
  simp [htid]

theorem serve_write {table : Byte} {index : Nat} {bytes : List Byte} {tid : TableId} {row : Instr}
    (h : EndsWrite s c t table index bytes) (htid : ofCode tableOrder table.toNat = some tid) (hrow : tid.writeRow = row) :
    s.serve row writeSegment =
      (((s.written c).writeEntry c tid index bytes).1).replied c t 3 ((s.written c).writeEntry c tid index bytes).2 [] := by
  obtain ⟨seg, data, hn, hg⟩ := h.segment
  rw [serve_own _ _ hn ((writeRow_of hn htid).trans hrow)]
  have hidx : (Request.of c t).tableIndex = index := by
    have := h.inTwoBytes
    simp only [Request.tableIndex, request_param hn.payload, List.cons_append, List.getD_cons_succ, List.getD_cons_zero,
      BitVec.toNat_ofNat]
    omega
  have hst : stage ((s.taken c).mgmt.staging c) ((Request.of c t).param 0) (Request.of c t).tableIndex
      ((Request.of c t).param 3) ((Request.of c t).params.drop 5) =
        some { table := table.toNat, index := index, next := seg.toNat + 1, bytes := bytes } := by
    rw [hidx, taken_staging, request_params hn.payload]
    simp only [request_param hn.payload, List.cons_append, List.getD_cons_succ, List.getD_cons_zero, List.nil_append,
      List.drop_succ_cons, List.drop_zero]
    rcases hg with ⟨h0, hb⟩ | ⟨h0, held, hb, hs⟩
    · subst h0; simp [stage, hb]
    · have h0' : ¬ seg.toNat = 0 := fun e => h0 (BitVec.eq_of_toNat_eq (by simpa using e))
      simp [stage, h0', hs, hb]
  have hw : writeSegment (.of c t) (s.taken c) = .of ((s.written c).writeEntry c tid index bytes) := by
    unfold writeSegment
    have h0 : ofCode tableOrder ((Request.of c t).param 0) = some tid := by simpa [request_param hn.payload] using htid
    have h4 : (Request.of c t).param 4 = 1 := by simp [request_param hn.payload]
    simp only [h0, request_channel, hst, h4]
    rw [hidx]
    rfl
  rw [hw, reply_now _ rfl hn.payload]
  rfl

/-! ### What the emptied staging leaves -/

theorem written_cfg (s : State) (c : Channel) : (s.written c).cfg = s.cfg := by cases c <;> rfl
theorem written_zones (s : State) (c : Channel) : (s.written c).zones = s.zones := by cases c <;> rfl
theorem written_acts (s : State) (c : Channel) : (s.written c).acts = s.acts := by cases c <;> rfl
theorem written_points (s : State) (c : Channel) : (s.written c).points = s.points := by cases c <;> rfl

/-- The protect check refuses exactly the writes that are not free of it (R3). -/
theorem protectRefuses_iff {c : Channel} {stored written : Byte} :
    protectRefuses c stored written.toNat = false ↔ Unprotected c stored written := by
  cases c <;> simp [protectRefuses, Unprotected, BitVec.toNat_inj]

theorem protectRefuses_of {c : Channel} {stored written : Byte} (h : Unprotected c stored written) :
    protectRefuses c stored written.toNat = false := protectRefuses_iff.2 h

theorem markByte_toNat (b : Bool) : (markByte b).toNat = b.toNat := by cases b <;> rfl

/-- A number within its range. -/
theorem within_iff (x a b : Int) : within x a b = true ↔ a ≤ x ∧ x ≤ b := by simp [within]

theorem isContact_iff (k : PointKind) : k.isContact = true ↔ k.contact := by
  cases k <;> simp [PointKind.isContact, PointKind.contact]

/-- The checks of a point entry are what R4 and R5 demand of one in use. -/
theorem pointValid_iff (s : State) (p : PointIx) (e : PointCfg) :
    s.pointValid p e = true ↔ (e.inUse = true → PointEntryOk s p e) := by
  unfold State.pointValid
  cases hu : e.inUse with
  | false => simp
  | true =>
    have hkey : (!s.pointKeyTaken p e) = true ↔ ∀ q : PointIx, q ≠ p → (s.cfg.points[q]).inUse = true →
        ¬ ((s.cfg.points[q]).line = e.line ∧ (s.cfg.points[q]).node = e.node ∧ (s.cfg.points[q]).channel = e.channel) := by
      unfold State.pointKeyTaken
      rw [Bool.not_eq_true', List.any_eq_false]
      constructor
      · intro h q h1 h2 ⟨h3, h4, h5⟩
        have := h q (by simp [indices])
        simp_all
      · intro h q _ h'
        simp only [Bool.and_eq_true, bne_iff_ne, beq_iff_eq] at h'
        exact h q h'.1.1.1.1 h'.1.1.1.2 ⟨h'.1.1.2, h'.1.2, h'.2⟩
    have hlisted : e.listed = true ↔ e.lineField.toNat ≤ 1 ∧ e.kindField.toNat ≤ 7 ∧ e.notifyField.toNat ≤ 1 ∧
        e.protectField.toNat ≤ 1 := by
      simp only [PointCfg.listed, Bool.and_eq_true, within_iff]; omega
    have hzone : e.zoneOk = true ↔ (e.kind = .outdoorTemp → e.zone = .all) ∧
        (e.kind ≠ .outdoorTemp → e.kind ≠ .general → e.zone ≠ .all) ∧ ∀ n, e.zone ≠ .unlisted n := by
      unfold PointCfg.zoneOk
      cases e.zone <;> cases e.kind <;> simp
    have hlimits : e.limitsOk = true ↔ e.min ≤ e.max ∧ (e.kind = .airRh → 0 ≤ e.min ∧ e.max ≤ 1000) ∧
        (e.kind.isTemperature → -400 ≤ e.min ∧ e.max ≤ 800) ∧ (e.kind.contact → e.min = 0 ∧ e.max = 1) := by
      unfold PointCfg.limitsOk
      cases e.kind <;> simp [within_iff, PointKind.isTemperature, PointKind.contact] <;> omega
    have hfields : s.contactFieldsOk e = true ↔
        (e.kind.contact → ∃ n, e.persistence = some n ∧ 1 ≤ n ∧ n ≤ 15) ∧
        (e.kind.contact → ∃ a : ActIx, e.drive = some a.val ∧ (s.cfg.acts[a]).inUse = true ∧
          (s.cfg.acts[a]).kind = .coverDrive ∧ e.zone = .zone (s.cfg.acts[a]).zone) ∧
        (¬ e.kind.contact → e.persistence = none ∧ e.drive = none) := by
      unfold State.contactFieldsOk
      rw [← isContact_iff]
      cases e.kind.isContact with
      | false => simp
      | true =>
        simp only [if_true, forall_const, not_true_eq_false, false_implies, and_true]
        constructor
        · intro h
          split at h
          · rename_i n a z hn ha hz
            simp only [Bool.and_eq_true, within_iff] at h
            obtain ⟨d, hd, hd'⟩ := Option.bind_eq_some_iff.mp ha
            refine ⟨⟨n, hn, by omega, by omega⟩, a, ?_, ?_⟩
            · rw [hd]
              unfold asIndex at hd'
              split at hd' <;> simp at hd'
              subst hd'; rfl
            · have h := h.2
              simp only [State.isDriveOf, Bool.and_eq_true, beq_iff_eq] at h
              exact ⟨h.1.1, h.1.2, by rw [hz, h.2]⟩
          · cases h
        · rintro ⟨⟨n, hn, h1, h2⟩, a, ha, hi, hk, hz⟩
          have hb : e.drive.bind (asIndex 96) = some a := by rw [ha]; exact asIndex_val a
          rw [hn, hb, hz]
          simp only [Bool.and_eq_true, within_iff, State.isDriveOf, beq_iff_eq]
          exact ⟨⟨by omega, by omega⟩, ⟨hi, hk⟩, trivial⟩
    simp only [Bool.not_true, Bool.false_or, Bool.and_eq_true, within_iff, hlisted, hkey, hzone, hlimits, hfields,
      forall_const]
    constructor
    · rintro ⟨⟨⟨⟨⟨⟨⟨h0, h1⟩, h2⟩, h3⟩, h4, h5, h6, h7⟩, h8, h9, h10⟩, h11, h12, h13⟩, h14⟩
      exact ⟨h0, by omega, by omega, by omega, h4, h5, h6, h7, h8, h9, h10, h11, h12, h13, h14⟩
    · rintro ⟨h0, h1, h2, h3, h4, h5, h6, h7, h8, h9, h10, h11, h12, h13, h14⟩
      exact ⟨⟨⟨⟨⟨⟨⟨h0, by omega⟩, by omega⟩, by omega⟩, h4, h5, h6, h7⟩, h8, h9, h10⟩, h11, h12, h13⟩, h14⟩

/-- The checks of an actuator entry are what R127 demands of one in use. -/
theorem actValid_iff (s : State) (a : ActIx) (e : ActCfg) :
    s.actValid a e = true ↔ (e.inUse = true → ActuatorEntryOk s a e) := by
  unfold State.actValid
  cases hu : e.inUse with
  | false => simp
  | true =>
    have hkey : (!s.actKeyTaken a e) = true ↔ ∀ b : ActIx, b ≠ a → (s.cfg.acts[b]).inUse = true →
        ¬ ((s.cfg.acts[b]).node = e.node ∧ (s.cfg.acts[b]).channel = e.channel) := by
      unfold State.actKeyTaken
      rw [Bool.not_eq_true', List.any_eq_false]
      constructor
      · intro h q h1 h2 ⟨h3, h4⟩
        have := h q (by simp [indices])
        simp_all
      · intro h q _ h'
        simp only [Bool.and_eq_true, bne_iff_ne, beq_iff_eq] at h'
        exact h q h'.1.1.1 h'.1.1.2 ⟨h'.1.2, h'.2⟩
    have hlimits : e.limitsOk = true ↔ e.min ≤ e.max ∧
        (e.kind = .heatValve ∨ e.kind = .supplyFan ∨ e.kind = .oaDamper ∨ e.kind = .purgeFan ∨ e.kind = .dimmer →
          0 ≤ e.min ∧ e.max ≤ 1000) ∧ (e.kind = .coverDrive → 0 ≤ e.min ∧ e.max ≤ 2) := by
      unfold ActCfg.limitsOk
      cases e.kind <;> simp [within_iff] <;> omega
    simp only [Bool.not_true, Bool.false_or, Bool.and_eq_true, within_iff, hkey, hlimits, forall_const, Bool.or_eq_true, beq_iff_eq]
    constructor
    · rintro ⟨⟨⟨⟨⟨⟨⟨⟨⟨h0, h0'⟩, h1⟩, h2⟩, h3, h4, h5⟩, h6⟩, h7⟩, h8⟩, h9⟩, h10⟩
      exact ⟨by omega, by omega, by omega, by omega, h3, h4, h5, by omega, by omega, by omega, h10⟩
    · rintro ⟨h0, h1, h2, h6, h3, h4, h5, h7, h8, h9, h10⟩
      exact ⟨⟨⟨⟨⟨⟨⟨⟨⟨by omega, by omega⟩, by omega⟩, by omega⟩, h3, h4, h5⟩, by omega⟩, by omega⟩, by omega⟩, by omega⟩, h10⟩

/-- The checks of a filter entry are what R154 demands of one in use. -/
theorem filterValid_iff (f : FilterEntry) : f.valid = true ↔ (f.inUse = true → FilterEntryOk f) := by
  unfold FilterEntry.valid
  cases f.inUse with
  | false => simp
  | true =>
    simp only [Bool.not_true, Bool.false_or, Bool.and_eq_true, within_iff, decide_eq_true_eq, forall_const]
    exact ⟨fun _ => ⟨by omega, by omega⟩, fun ⟨_, _⟩ => by omega⟩

/-- The checks of a zone entry are the ranges and orders of R25, R46, R64 and R83. -/
theorem zoneOk_iff (e : ZoneCfg) :
    (e.eval.ok && e.heat.ok && e.arb.ok && e.cover.ok) = true ↔ ZoneEntryOk e := by
  simp only [EvalCfg.ok, HeatCfg.ok, ArbCfg.ok, CoverCfg.ok, Bool.and_eq_true, within_iff, decide_eq_true_eq]
  constructor
  · intro h
    constructor <;> (try simp only [Permille]) <;> omega
  · rintro ⟨h1, h2, h3, h4, h5, h6, h7, h8, h9, h10, h11, h12, h13, h14, h15, h16, h17, h18, h19, h20⟩
    simp only [Permille] at *
    omega

/-- The checks of the PART record are the ranges of R133, R168 and R176. -/
theorem partValid_iff (p : PartRecord) : p.valid = true ↔ PartRecordOk p := by
  have hall : ∀ (x : PerJob Nat) (f : Nat → Bool), x.all f = true ↔ ∀ j : Job, f (x.get j) = true := by
    intro x f
    simp only [PerJob.all, Bool.and_eq_true]
    exact ⟨fun h j => by cases j <;> simp [PerJob.get, h], fun h => ⟨⟨⟨h .heat, h .air⟩, h .cover⟩, h .light⟩⟩
  simp only [PartRecord.valid, Bool.and_eq_true, hall, within_iff, decide_eq_true_eq]
  constructor
  · rintro ⟨⟨⟨⟨⟨h1, h2⟩, h3⟩, h4⟩, h5⟩, h6⟩
    exact ⟨by omega, by omega, by omega, h4, fun j => by have := h5 j; omega, by omega⟩
  · rintro ⟨h1, h2, h3, h4, h5, h6⟩
    exact ⟨⟨⟨⟨⟨by omega, by omega⟩, by omega⟩, h4⟩, fun j => by have := h5 j; omega⟩, by omega⟩

/-- A contact is unknown in an entry that is not FRESH, and before its first accepted value (R15). -/
theorem known_none_iff (r : PointRt) : r.known = none ↔ (r.state ≠ .fresh ∨ r.contact = none) := by
  unfold PointRt.known; cases r.state <;> simp

end Sys2Proof.Machine
end

