-- ==== Sys2Proof/Tests/Slice0.lean ====
section
/-! SUPPORT. Tests: ill-formed commands, worked values of the spec, and for every statement with hypotheses a state and operands
that meet them together. -/

namespace Sys2Proof.Tests

set_option Elab.async false

open Sys2Proof.Machine

/-! ### Small states -/

/-- What is left of a command's outcome when it is a next state. -/
def after (i : Instr) (s : State) : State :=
  match exec i s with
  | .next t => t
  | _ => s

/-- A request telegram from node 9 with tag 5. -/
def request (kind : Byte) (params : List Byte) : Telegram := { dest := 254, src := 9, kind := 4, tag := 5, payload := kind :: params }

/-- The telegram waits alone on its channel. -/
def ask (s : State) (c : Channel) (t : Telegram) : State :=
  match c with
  | .trunk => { s with mgmt := { s.mgmt with trunkRequests := [t] } }
  | .service => { s with mgmt := { s.mgmt with serviceRequests := [t] } }

/-- A configured part after reset: its zones disabled. -/
def ready : State := { State.reset with configured := true }

def setActuator (a : ActIx) (c : ActCfg) (s : State) : State := s.updCfg fun k => { k with acts := k.acts.set a c }
def setPoint (p : PointIx) (c : PointCfg) (s : State) : State := s.updCfg fun k => { k with points := k.points.set p c }
def setZone (z : ZoneIx) (f : ZoneCfg → ZoneCfg) (s : State) : State :=
  s.updCfg fun k => { k with zones := k.zones.set z (f k.zones[z]) }

/-- Zone 0 is enabled, with its covers at rest in OPEN_IDLE. -/
def enabledZone : State :=
  (setZone 0 (fun c => { c with eval := { c.eval with enabled := true } }) ready).updCover 0 fun c => { c with state := .openIdle }

/-- An actuator entry in use in zone 0. -/
def anActuator (kind : ActKind) (max : Int) : ActCfg :=
  { inUse := true, node := 20, channel := 1, kindField := kind.wire, zoneField := 0, min := 0, max := max, deadband := 0, refresh := 0
    overrideHold := 1, protectField := 0 }

/-- A point entry in use in zone 0. -/
def aPoint (kind : PointKind) (min max : Int) : PointCfg :=
  { inUse := true, lineField := 0, node := 57, channel := 2, kindField := kind.wire, zone := .zone 0, min := min, max := max
    staleTimeout := 30, persistence := none, drive := none, notifyField := 0, protectField := 0 }

/-- A contact in use in zone 0, of cover drive 12. -/
def aContact (kind : PointKind) (persistence : Nat) : PointCfg :=
  { aPoint kind 0 1 with persistence := some persistence, drive := some 12 }

/-- Zone 0 enabled, with cover drive 12 and a contact of its closed end. -/
def coverHall : State :=
  setActuator 12 (anActuator .coverDrive 2) (setPoint 40 (aContact .coverClosed 3) enabledZone)

/-- A unit heard without error. -/
def clean (t : Telegram) : List RxByte := t.bytes.map fun b => { value := b, stop := true }

theorem nextIs_iff (s : State) (c : Channel) (t : Telegram) (kind : Byte) (params : List Byte) :
    NextIs s c t kind params ↔
      s.mgmt.next = some (c, t) ∧ t.payload = kind :: params ∧ s.commonCheck (.of c t) = none :=
  ⟨fun h => ⟨h.next, h.payload, h.passes⟩, fun h => ⟨h.1, h.2.1, h.2.2⟩⟩

/-! ### Well-formedness -/

theorem test_wf_receivedUnit : (Instr.receivedUnit .hall []).wf = false := by decide
theorem test_wf_serviceUnit : (Instr.serviceUnit []).wf = false := by decide
theorem test_wf_txAttemptEnd : (Instr.txAttemptEnd .trunk []).wf = false := by decide
theorem test_wf_heard : (Instr.receivedUnit .hall [{ value := 1, stop := true }]).wf = true := by decide

/-! ### Worked values of the spec -/

/-- The 16-bit check of the characters 1 to 9 (R150). -/
theorem test_crc16 : crc16 [0x31, 0x32, 0x33, 0x34, 0x35, 0x36, 0x37, 0x38, 0x39] = 0x29B1#16 := by decide +kernel

/-- The 32-bit check of the same (R187). -/
theorem test_crc32 : crc32 [0x31, 0x32, 0x33, 0x34, 0x35, 0x36, 0x37, 0x38, 0x39] = 0xCBF43926#32 := by decide +kernel

/-- Section 2.13: rows 1, 2 and 5. -/
theorem test_dewPoint_rows :
    ([(-250, 900), (-73, 800), (612, 450)].map fun (x : Int × Int) =>
      let e := stages2to4 referenceSaturation x.1 x.2 (.reset .unconfigured)
      (e.tc, e.psat, e.pv, e.td, e.tClamp, e.dewLow)) =
    [(some (-200), some 103, some 93, some (-200), true, true), (some (-73), some 336, some 269, some (-97), false, false),
      (some 600, some 19946, some 8976, some 436, true, false)] := by decide +kernel

/-- Section 2.13: rows 3 and 4, saturated air on a table entry. -/
theorem test_dewPoint_saturated :
    ([200, 600].map fun (ta : Int) => (stages2to4 referenceSaturation ta 1000 (.reset .unconfigured)).td) =
    [some 200, some 600] := by decide +kernel

/-- The aggregates of section 1.6: truncation toward zero, and a held value. -/
theorem test_aggregates : mean [301, 306, 298] = some 301 ∧ mean [-53, -48] = some (-50) ∧ [241, 236].min? = some (236 : Int) ∧
    ({ last := some 292, held := false } : Aggregate).form none = { last := some 292, held := true } := by decide +kernel

/-! ### The step and the clock -/

theorem test_met_idle : ∃ (s : State) (p : PointIx) (n k : Nat),
    s.pending = [] ∧ (s.points[p]).staleTimer = .running n ∧ k ≤ n :=
  ⟨State.reset.updPoint 127 fun r => { r with staleTimer := .running 5 }, 127, 5, 5, by decide +kernel⟩

theorem test_met_idle_second : ({ State.reset with millis := 999 } : State).pending = [] ∧
    State.reset.millis ≠ 999 := by decide +kernel

theorem test_step_idle : clockTick { State.reset with millis := 999 } = { State.reset with now := 1 } := by decide +kernel

theorem test_met_notDue : ∃ (s : State) (p : PointIx) (z : ZoneIx) (a : ActIx),
    (s.points[p]).staleTimer ≠ .running 0 ∧ (s.zones[z]).eval.timer ≠ .running 0 ∧ (s.zones[z]).arb.dwell ≠ .running 0 ∧
    (s.zones[z]).cover.detectTimer ≠ .running 0 ∧ (s.zones[z]).cover.prepTimer ≠ .running 0 ∧
    (s.zones[z]).cover.motionTimer ≠ .running 0 ∧ (s.zones[z]).cover.settleTimer ≠ .running 0 ∧
    (s.zones[z]).scene.stepTimer ≠ .running 0 ∧ (s.acts[a]).refreshTimer ≠ .running 0 ∧
    (s.acts[a]).retryTimer ≠ .running 0 ∧ (s.acts[a]).overrideTimer ≠ .running 0 ∧
    (∀ o ∈ s.disp.outstanding, o.tag ≠ 15) ∧ s.mgmt.idleTimer ≠ .running 0 ∧ s.mgmt.commit = none ∧
    s.mgmt.restartPending = false :=
  ⟨State.reset, 0, 0, 0, by decide +kernel⟩

/-- Events of dispatcher, transmitters, zones and requests that the state rules out. -/
theorem test_met_ruledOut : ∃ (s : State) (z : ZoneIx) (i : CueIx) (source : TxSource) (x : Telegram) (n k : Nat) (o : Outstanding),
    (s.zones[z]).purge.state ≠ .wait ∧ (s.zones[z]).purge.state ≠ .run ∧ (s.zones[z]).scene.cues[i.val]? = none ∧
    (s.disp.outstanding = [] ++ o :: [] ∧ o.phase ≠ .awaitingAck (.running 0)) ∧
    (s.lines.hallTx = .sending source x n ∧ k < x.bytes.length) ∧ s.lines.trunkTx = .waiting source x n ∧
    (∀ r ∈ s.mgmt.replies, r.channel ≠ .service) ∧
    (∃ c t, s.mgmt.next = some (c, t) ∧ (Request.of c t).row ≠ .restart ∧ (Request.of c t).row ≠ .lineStatus false false) :=
  let x : Telegram := { dest := 30, src := 57, kind := 4, tag := 5, payload := [1] }
  let s := ask State.reset .trunk (request 1 [])
  let o : Outstanding := { tag := 15, act := 0, node := 1, channel := 0, value := 0, phase := .sending, telegram := x }
  ⟨{ s with lines := { s.lines with hallTx := .sending .forward x 3, trunkTx := .waiting .forward x 3 }
            disp := { s.disp with outstanding := [o] } }, 3, 15, .forward, x, 3, 6, o,
    by decide +kernel, by decide +kernel, by decide +kernel, by decide +kernel, by decide +kernel, by decide +kernel,
    by decide +kernel, .trunk, request 1 [], by decide +kernel⟩

/-! ### Requests that read or set one record -/

theorem test_met_identify : ∃ (s : State) (c : Channel) (t : Telegram), NextIs s c t 1 [] :=
  ⟨ask State.reset .trunk (request 1 []), .trunk, request 1 [], by simp only [nextIs_iff]; decide +kernel⟩

theorem test_met_unknown : ∃ (s s' : State) (c : Channel) (t t' : Telegram),
    (s.mgmt.next = some (c, t) ∧ t.payload = 0 :: []) ∧
    (s'.mgmt.next = some (c, t') ∧ t'.payload = 17 :: [3] ∧ 16 < (17 : Byte).toNat) :=
  ⟨ask State.reset .service (request 0 []), ask State.reset .service (request 17 [3]), .service, request 0 [], request 17 [3],
    by decide +kernel⟩

theorem test_identify_reply : ((after .identify (ask State.reset .trunk (request 1 []))).mgmt.replies.map
    fun r => r.telegram.payload) = [[1, 0, 0x31, 0xC6, 0x4C, 0x04, 1, 254, 0, 1]] := by decide +kernel

theorem test_met_readFlags : ∃ (s s' : State) (c : Channel) (t t' : Telegram) (z : ZoneIx),
    NextIs s c t 7 [255, 63] ∧ NextIs s' c t' 7 [BitVec.ofNat 8 z, 7] :=
  ⟨ask State.reset .trunk (request 7 [255, 63]), ask State.reset .trunk (request 7 [3, 7]), .trunk, request 7 [255, 63],
    request 7 [3, 7], 3, by simp only [nextIs_iff]; decide +kernel⟩

theorem test_met_lineStatus : ∃ (s s' : State) (c : Channel) (t t' : Telegram), NextIs s c t 8 [0] ∧ NextIs s' c t' 8 [255] :=
  ⟨ask State.reset .trunk (request 8 [0]), ask State.reset .trunk (request 8 [255]), .trunk, request 8 [0], request 8 [255],
    by simp only [nextIs_iff]; decide +kernel⟩

theorem test_met_accumulators : ∃ (s s' s'' : State) (c : Channel) (t t' t'' : Telegram) (z : ZoneIx) (a : AccIx) (v : BitVec 32)
    (run : Bool), NextIs s c t 9 [1, BitVec.ofNat 8 z, BitVec.ofNat 8 a, v.extractLsb' 24 8, v.extractLsb' 16 8,
      v.extractLsb' 8 8, v.extractLsb' 0 8] ∧
    NextIs s' c t' 9 [2, if run then 0 else 1] ∧
    (NextIs s'' c t'' 9 [0, BitVec.ofNat 8 z, 1] ∧ (1 : Byte).toNat < segmentCount (s''.accumulatorBytes z)) :=
  let t := request 9 [1, 3, 5, 255, 255, 255, 254]
  let t' := request 9 [2, 1]
  let t'' := request 9 [0, 3, 1]
  ⟨ask State.reset .trunk t, ask State.reset .trunk t', ask State.reset .trunk t'', .trunk, t, t', t'', 3, 5, 0xFFFFFFFE,
    false, by simp only [nextIs_iff]; decide +kernel⟩

/-- Accumulator 5 of zone 3, with the option and the value given. -/
def accumulating (option : AccOptions) (run : Bool) (value : BitVec 32) : State :=
  (ready.updPart fun p => { p with run := run, accOptions := p.accOptions.set 3 ((p.accOptions[3]).set 5 option) }).updAcct fun k =>
    { k with accs := k.accs.set 3 ((k.accs[3]).set 5 { value := value, overflowed := false }) }

/-- Offers that are lost, that are added up to 2^32 − 1, and that wrap at 2^32. -/
theorem test_met_offers :
    let all : AccOptions := { enabled := true, captureOnOverflow := true, freezeOnOverflow := true }
    let z : ZoneIx := 3
    let a : AccIx := 5
    let counts := fun (s : State) => ((s.cfg.part.accOptions[z])[a]).enabled = true ∧ s.cfg.part.run = true
    ((((accumulating { all with enabled := false } true 0).cfg.part.accOptions[z])[a]).enabled = false ∧
      (accumulating all false 0).cfg.part.run = false) ∧
    (counts (accumulating all true 0xFFFFFFFE) ∧ (((accumulating all true 0xFFFFFFFE).acct.accs[z])[a]).value.toNat + 1 < 2 ^ 32) ∧
    (counts (accumulating all true 0xFFFFFFFE) ∧ 2 ^ 32 ≤ (((accumulating all true 0xFFFFFFFE).acct.accs[z])[a]).value.toNat + 2 ∧
      ((accumulating all true 0xFFFFFFFE).zones[z]).arming = none) := by decide +kernel

theorem test_met_capture : ∃ (s s' s'' : State) (c : Channel) (t t' t'' : Telegram),
    NextIs s c t 10 [1] ∧ NextIs s' c t' 10 [2, 0] ∧ NextIs s'' c t'' 10 [2, 1] :=
  ⟨ask State.reset .trunk (request 10 [1]), ask State.reset .trunk (request 10 [2, 0]),
    ask State.reset .trunk (request 10 [2, 1]), .trunk, request 10 [1], request 10 [2, 0], request 10 [2, 1],
    by simp only [nextIs_iff]; decide +kernel⟩

theorem test_met_ring : ∃ (s s' s'' : State) (c : Channel) (t t' t'' : Telegram),
    NextIs s c t 11 [1] ∧ NextIs s' c t' 11 [0, 15, 0] ∧ NextIs s'' c t'' 11 [0, 16, 0] :=
  ⟨ask State.reset .trunk (request 11 [1]), ask State.reset .trunk (request 11 [0, 15, 0]),
    ask State.reset .trunk (request 11 [0, 16, 0]), .trunk, request 11 [1], request 11 [0, 15, 0], request 11 [0, 16, 0],
    by simp only [nextIs_iff]; decide +kernel⟩

theorem test_met_watch_arm : ∃ (s s' s'' : State) (c : Channel) (t t' t'' : Telegram) (w : WatchIx),
    NextIs s c t 12 [2, BitVec.ofNat 8 w] ∧ NextIs s' c t' 12 [3, BitVec.ofNat 8 w] ∧
    (NextIs s'' c t'' 12 [2, 4] ∧ 4 ≤ (4 : Byte).toNat) :=
  ⟨ask State.reset .trunk (request 12 [2, 3]), ask State.reset .trunk (request 12 [3, 3]),
    ask State.reset .trunk (request 12 [2, 4]), .trunk, request 12 [2, 3], request 12 [3, 3], request 12 [2, 4], 3,
    by simp only [nextIs_iff]; decide +kernel⟩

/-- A watch at the edge of what its bytes carry. -/
def aWatch (target : WatchTarget) : Watch :=
  { armed := true, target := target, on := .arrival, condition := some (.above (-32768)), action := .holdZone }

theorem test_met_watch_write : ∃ (s s' : State) (c : Channel) (t t' : Telegram) (w : WatchIx),
    (NextIs s c t 12 (1 :: BitVec.ofNat 8 w :: (aWatch (.point 127)).bytes)) ∧
    (NextIs s' c t' 12 (1 :: BitVec.ofNat 8 w :: (aWatch (.actuator 95)).bytes)) ∧
    ∀ target v, (aWatch target).condition = some (.above v) ∨ (aWatch target).condition = some (.below v) →
      -32768 ≤ v ∧ v ≤ 32767 :=
  let t := request 12 (1 :: 0 :: (aWatch (.point 127)).bytes)
  let t' := request 12 (1 :: 0 :: (aWatch (.actuator 95)).bytes)
  ⟨ask State.reset .trunk t, ask State.reset .trunk t', .trunk, t, t', 0, by simp only [nextIs_iff]; decide +kernel,
    by simp only [nextIs_iff]; decide +kernel, fun _ _ h => by rcases h with h | h <;> cases h; omega⟩

theorem test_met_watch_read : ∃ (s s' : State) (c : Channel) (t t' : Telegram) (w : WatchIx),
    NextIs s c t 12 [0, BitVec.ofNat 8 w, 0] ∧ NextIs s' c t' 12 [0, BitVec.ofNat 8 w, 1] :=
  ⟨ask State.reset .trunk (request 12 [0, 3, 0]), ask State.reset .trunk (request 12 [0, 3, 1]), .trunk, request 12 [0, 3, 0],
    request 12 [0, 3, 1], 3, by simp only [nextIs_iff]; decide +kernel⟩

/-- Watch 0, armed for point 40 in zone 0 above −32768. -/
def watched : State := (setPoint 40 { aPoint .general (-32768) 32767 with zone := .all } enabledZone).setWatch 0 (aWatch (.point 40))

/-- A match, two values that its condition does not admit or its source does not fit, and the entry into hold. -/
theorem test_met_watch_match : ∃ (s : State) (w : WatchIx) (e e' e'' : WatchEvent) (h : State) (z : ZoneIx),
    let watch := s.cfg.watches[w]
    (watch.armed = true ∧ watch.target = e.target ∧ watch.on = e.on ∧ watch.condition = some (.above (-32768)) ∧ e.value = -32767 ∧
      watch.action = .holdZone ∧ s.targetZone watch.target = .all) ∧
    (watch.target = e'.target ∧ e'.value = -32768) ∧ watch.target ≠ e''.target ∧
    (s.zones[z]).held = false ∧ (h.zones[z]).held = true ∧
    ((s.updCover z fun c => { c with state := .deploying, drives := [12] }).zones[z]).cover.state = .deploying :=
  ⟨watched, 0, { on := .arrival, target := .point 40, value := -32767 }, { on := .arrival, target := .point 40, value := -32768 },
    { on := .arrival, target := .point 41, value := 0 }, watched.updZone 0 fun r => { r with held := true }, 0, by decide +kernel⟩

theorem test_watch_holds : ((watched.offerWatches { on := .arrival, target := .point 40, value := -32767 }).zones[(0 : ZoneIx)]).held =
    true := by decide +kernel

theorem test_met_commit_restart : ∃ (s s' : State) (c : Channel) (t t' : Telegram),
    NextIs s c t 13 [] ∧ NextIs s' c t' 14 [] :=
  ⟨ask State.reset .trunk (request 13 []), ask State.reset .trunk (request 14 []), .trunk, request 13 [], request 14 [],
    by simp only [nextIs_iff]; decide +kernel⟩

theorem test_met_local : ∃ (s s' s'' s''' : State) (c : Channel) (t t' t'' t''' : Telegram), NextIs s .service t 15 [] ∧
    NextIs s' .trunk t' 15 [] ∧ (NextIs s'' c t'' 16 [] ∧ s''.mgmt.localMode = false) ∧
    (NextIs s''' c t''' 16 [] ∧ s'''.mgmt.localMode = true ∧ s'''.mgmt.notices.length < 8) :=
  let held := { State.reset with mgmt := { State.reset.mgmt with localMode := true } }
  ⟨ask State.reset .service (request 15 []), ask State.reset .trunk (request 15 []), ask State.reset .service (request 16 []),
    ask held .service (request 16 []), .service, request 15 [], request 15 [], request 16 [], request 16 [],
    by simp only [nextIs_iff]; decide +kernel⟩

/-! ### Writes of table entries -/

theorem test_met_segments : ∃ (s s' s'' : State) (c : Channel) (t t' : Telegram),
    (NextIs s c t 3 ([8, 0, 0, 0, 0] ++ [7]) ∧ (8 : Byte).toNat ≤ 8) ∧
    (NextIs s' c t' 3 ([8, 1, 2, 3, 0] ++ [7]) ∧ (3 : Byte) ≠ 0 ∧
      s'.mgmt.staging c = some { table := (8 : Byte).toNat, index := (1 : Byte).toNat * 256 + (2 : Byte).toNat
                                 next := (3 : Byte).toNat, bytes := [9] }) ∧
    (NextIs s'' c t' 3 ([8, 1, 2, 3, 0] ++ [7]) ∧ s''.mgmt.staging c = none) :=
  let t := request 3 [8, 0, 0, 0, 0, 7]
  let t' := request 3 [8, 1, 2, 3, 0, 7]
  ⟨ask State.reset .trunk t,
    ask (State.reset.setStaging .trunk (some { table := 8, index := 258, next := 3, bytes := [9] })) .trunk t',
    ask State.reset .trunk t', .trunk, t, t', by simp only [nextIs_iff]; decide +kernel⟩

/-- The last segment of a write, of one byte; the bytes before it are staged on its channel. -/
def lastRequest (table : Byte) (index : Nat) (bytes : List Byte) : Telegram :=
  request 3 ([table, BitVec.ofNat 8 (index / 256), BitVec.ofNat 8 (index % 256), 1, 1] ++ bytes.drop (bytes.length - 1))

def writing (s : State) (c : Channel) (table : Byte) (index : Nat) (bytes : List Byte) : State :=
  (ask s c (lastRequest table index bytes)).setStaging c
    (some { table := table.toNat, index := index, next := 1, bytes := bytes.take (bytes.length - 1) })

theorem endsWrite_of {s : State} {c : Channel} {table : Byte} {index : Nat} {bytes : List Byte}
    (h : index < 65536 ∧ (writing s c table index bytes).mgmt.next = some (c, lastRequest table index bytes) ∧
      (writing s c table index bytes).commonCheck (.of c (lastRequest table index bytes)) = none) :
    EndsWrite (writing s c table index bytes) c (lastRequest table index bytes) table index bytes where
  inTwoBytes := h.1
  segment := ⟨1, bytes.drop (bytes.length - 1), ⟨h.2.1, rfl, h.2.2⟩,
    .inr ⟨by decide, bytes.take (bytes.length - 1), (List.take_append_drop ..).symm, by cases c <;> rfl⟩⟩

/-- A write in one segment, its number 0. -/
theorem test_met_single_segment : ∃ (s : State) (c : Channel) (t : Telegram),
    EndsWrite s c t 3 31 ({ cueCount := 16, protect := false } : SceneHeader).bytes :=
  let t := request 3 ([3, 0, 31, 0, 1] ++ ({ cueCount := 16, protect := false } : SceneHeader).bytes)
  ⟨ask State.reset .trunk t, .trunk, t, by decide, 0, _, ⟨by decide +kernel, rfl, by decide +kernel⟩, .inl ⟨rfl, rfl⟩⟩

/-- A contact entry at its limits. -/
def edgeContact : PointCfg := { aContact .coverOpen 15 with node := 254, channel := 3 }

theorem edgeContactOk : PointEntryOk coverHall 127 edgeContact where
  codes := by decide
  node := by decide
  channel := by decide
  staleTimeout := by decide
  limits := by decide
  humidity := by decide
  temperature := by simp [PointKind.isTemperature, edgeContact, aContact, aPoint]
  contactLimits := fun _ => by decide
  outdoor := by decide
  oneZone := by decide
  listed := nofun
  persistence := fun _ => ⟨15, by decide⟩
  drive := fun _ => ⟨12, by decide +kernel⟩
  contactsOnly := fun h => absurd (.inr rfl) h
  key := by decide +kernel

theorem edgeContactFits : edgeContact.Fits :=
  ⟨by decide, by decide, by decide, by decide, by decide, fun n h => by cases h; decide, fun n h => by cases h; decide⟩

/-- An outdoor temperature at its limits. -/
def edgeOutdoor : PointCfg := { aPoint .outdoorTemp (-400) 800 with zone := .all, channel := 0, staleTimeout := 3600 }

theorem edgeOutdoor_kind : edgeOutdoor.kind = .outdoorTemp := by decide

theorem test_temperature_ok : PointEntryOk coverHall 0 edgeOutdoor where
  codes := by decide
  node := by decide
  channel := by decide
  staleTimeout := by decide
  limits := by decide
  humidity := by decide
  temperature := fun _ => by decide
  contactLimits := fun h => by simp [PointKind.contact, edgeOutdoor_kind] at h
  outdoor := by decide
  oneZone := by decide
  listed := nofun
  persistence := fun h => by simp [PointKind.contact, edgeOutdoor_kind] at h
  drive := fun h => by simp [PointKind.contact, edgeOutdoor_kind] at h
  contactsOnly := fun _ => by decide
  key := by decide +kernel

/-- A write over an entry that never had a reading. -/
theorem test_met_writePoint : ∃ (s : State) (c : Channel) (t : Telegram) (p : PointIx) (e : PointCfg),
    EndsWrite s c t 0 p.val e.bytes ∧ e.Fits ∧ Unprotected c (s.cfg.points[p]).protectField e.protectField ∧
    (e.inUse = true → PointEntryOk s p e) ∧ (s.points[p]).contact = none :=
  ⟨writing coverHall .trunk 0 127 edgeContact.bytes, .trunk, _, 127, edgeContact, endsWrite_of (by decide +kernel),
    edgeContactFits, .inr (by decide +kernel), fun _ => { edgeContactOk with }, by decide +kernel⟩

/-- A write, not in use, over a known contact. -/
theorem test_met_writePoint_known : ∃ (s : State) (c : Channel) (t : Telegram) (p : PointIx) (e : PointCfg),
    EndsWrite s c t 0 p.val e.bytes ∧ e.Fits ∧ Unprotected c (s.cfg.points[p]).protectField e.protectField ∧
    (e.inUse = true → PointEntryOk s p e) ∧ (s.cfg.points[p]).kind = .coverClosed ∧ (s.points[p]).contact = some true :=
  let e := PointCfg.unconfigured
  ⟨writing (coverHall.updPoint 40 fun r => { r with state := .fresh, contact := some true }) .service 0 40 e.bytes, .service, _,
    40, e, endsWrite_of (by decide +kernel),
    ⟨by decide, by decide, by decide, by decide, by decide, nofun, nofun⟩, .inl rfl,
    nofun, by decide +kernel⟩

/-- An actuator entry at its limits. -/
def edgeActuator : ActCfg :=
  { anActuator .dimmer 1000 with node := 254, channel := 3, deadband := 100, refresh := 3600, overrideHold := 240 }

theorem edgeActuatorOk : ActuatorEntryOk coverHall 95 edgeActuator where
  codes := by decide
  node := by decide
  channel := by decide
  zone := by decide
  limits := by decide
  levels := fun _ => by decide
  drive := by decide
  deadband := by decide
  refresh := by decide
  overrideHold := by decide
  key := by decide +kernel

theorem test_met_writeActuator : ∃ (s : State) (c : Channel) (t : Telegram) (a : ActIx) (e : ActCfg),
    EndsWrite s c t 1 a.val e.bytes ∧ e.Fits ∧ Unprotected c (s.cfg.acts[a]).protectField e.protectField ∧
    (s.cfg.acts[a]).inUse = false ∧ (e.inUse = true → ActuatorEntryOk s a e) :=
  ⟨writing coverHall .trunk 1 95 edgeActuator.bytes, .trunk, _, 95, edgeActuator, endsWrite_of (by decide +kernel),
    ⟨by decide, by decide, by decide, by decide, by decide, by decide, by decide⟩, .inr (by decide +kernel),
    by decide +kernel, fun _ => { edgeActuatorOk with }⟩

theorem test_met_writeActuator_disabled : ∃ (s : State) (c : Channel) (t : Telegram) (a : ActIx) (e : ActCfg),
    EndsWrite s c t 1 a.val e.bytes ∧ e.Fits ∧ Unprotected c (s.cfg.acts[a]).protectField e.protectField ∧
    ((s.cfg.acts[a]).inUse = true ∧ (s.acts[a]).control = .disabled) ∧ (e.inUse = true → ActuatorEntryOk s a e) :=
  let e := ActCfg.unconfigured
  ⟨writing (coverHall.updAct 12 fun r => { r with control := .disabled }) .service 1 12 e.bytes, .service, _, 12, e,
    endsWrite_of (by decide +kernel), ⟨by decide, by decide, by decide, by decide, by decide, by decide, by decide⟩,
    .inl rfl, by decide +kernel, fun h => by cases h⟩

/-- A hall with a dimmer, actuator 7. -/
def litHall : State := setActuator 7 (anActuator .dimmer 1000) enabledZone

theorem test_met_writeGroup : ∃ (s : State) (c : Channel) (t : Telegram) (g : GroupIx) (list : List ActIx),
    EndsWrite s c t 2 g.val (groupBytes list) ∧ list.length ≤ 16 ∧ list.Nodup ∧
    (∀ a ∈ list, (s.cfg.acts[a]).inUse = true ∧ (s.cfg.acts[a]).kind = .dimmer) ∧ s.groupRunning g = false :=
  ⟨writing litHall .trunk 2 15 (groupBytes [7]), .trunk, _, 15, [7], endsWrite_of (by decide +kernel), by decide +kernel⟩

theorem test_met_writeHeader : ∃ (s : State) (c : Channel) (t : Telegram) (n : SceneIx) (x : SceneHeader),
    EndsWrite s c t 3 n.val x.bytes ∧ Unprotected c (markByte (s.cfg.headers[n]).protect) (markByte x.protect) ∧ s.sceneRunning n = false ∧
    x.cueCount ≤ 16 :=
  let x : SceneHeader := { cueCount := 16, protect := true }
  ⟨writing litHall .service 3 31 x.bytes, .service, _, 31, x, endsWrite_of (by decide +kernel), .inl rfl, by decide +kernel⟩

/-- A cue at its limits. -/
def edgeCue : Cue :=
  { target := some (.actuator 7), level := 1000, fade := 6000, delay := 6000, guard := some (.pointBelow 127 (-32768)), skip := 15 }

theorem edgeCueFits : edgeCue.Fits :=
  ⟨by decide, by decide, by decide, fun g h => by cases h; exact (by decide : Int16 (-32768)), by decide⟩

theorem test_met_writeCue : ∃ (s : State) (c : Channel) (t : Telegram) (n : SceneIx) (i : CueIx) (x : Cue),
    EndsWrite s c t 4 (n.val * 256 + i.val) x.bytes ∧ x.Fits ∧ (c = .service ∨ (s.cfg.headers[n]).protect = false) ∧
    s.sceneRunning n = false ∧ (0 ≤ x.level ∧ x.level ≤ 1000 ∧ x.fade ≤ 6000 ∧ x.delay ≤ 6000 ∧ x.skip ≤ 15) ∧
    (∀ a, x.target = some (.actuator a) → (s.cfg.acts[a]).inUse = true ∧ (s.cfg.acts[a]).kind = .dimmer) :=
  ⟨writing litHall .trunk 4 (31 * 256 + 15) edgeCue.bytes, .trunk, _, 31, 15, edgeCue, endsWrite_of (by decide +kernel),
    edgeCueFits, .inr (by decide +kernel), by decide +kernel, by decide, fun a h => by cases h; decide +kernel⟩

/-- A table from 1 to 65535. -/
def edgeSaturation : Vector Nat 17 := .ofFn fun i => if i.val = 16 then 65535 else i.val + 1

theorem edgeSaturation_range : ∀ i : Fin 17, 1 ≤ edgeSaturation[i.val] ∧ edgeSaturation[i.val] ≤ 65535 := by decide +kernel

theorem edgeSaturation_rises : ∀ i : Fin 16, edgeSaturation[i.val] < edgeSaturation[i.val + 1] := by decide +kernel

theorem test_met_writeSaturation : ∃ (s : State) (c : Channel) (t : Telegram) (sat : Vector Nat 17),
    EndsWrite s c t 6 0 (saturationBytes sat) ∧ (∀ i : Nat, (h : i < 17) → 1 ≤ sat[i] ∧ sat[i] ≤ 65535) ∧
    (∀ i : Nat, (h : i < 16) → sat[i] < sat[i + 1]) :=
  ⟨writing litHall .trunk 6 0 (saturationBytes edgeSaturation), .trunk, _, edgeSaturation, endsWrite_of (by decide +kernel),
    fun i h => edgeSaturation_range ⟨i, h⟩, fun i h => edgeSaturation_rises ⟨i, h⟩⟩

theorem test_met_writeFilter : ∃ (s : State) (c : Channel) (t : Telegram) (i : FilterIx) (f : FilterEntry),
    EndsWrite s c t 7 i.val f.bytes ∧ f.lo < 65536 ∧ f.hi < 65536 ∧ (f.inUse = true → 1 ≤ f.lo ∧ f.lo ≤ f.hi ∧ f.hi ≤ 255) :=
  let f : FilterEntry := { inUse := true, lo := 1, hi := 255, dirField := 2, actionField := 1 }
  ⟨writing litHall .trunk 7 15 f.bytes, .trunk, _, 15, f, endsWrite_of (by decide +kernel), by decide⟩

theorem test_met_writeZone : ∃ (s : State) (c : Channel) (t : Telegram) (z : ZoneIx) (e : ZoneCfg),
    EndsWrite s c t 5 z.val e.writeBytes ∧ e.Fits ∧ Unprotected c (markByte (s.cfg.zones[z]).eval.protect) (markByte e.eval.protect) ∧
    ZoneEntryOk e :=
  ⟨writing litHall .trunk 5 3 ZoneCfg.unconfigured.writeBytes, .trunk, _, 3, .unconfigured, endsWrite_of (by decide +kernel),
    ⟨by constructor <;> decide, by constructor <;> decide, by constructor <;> decide, by constructor <;> decide⟩,
    .inr (by decide +kernel), by constructor <;> decide⟩

theorem test_met_writePart : ∃ (s : State) (c : Channel) (t : Telegram) (p : PartRecord),
    EndsWrite s c t 8 0 p.bytes ∧ p.Fits ∧ PartRecordOk p ∧ s.lines.hallTx = .free ∧ s.lines.trunkTx = .free ∧
    p.own ≠ s.cfg.part.own ∧ p.captureThreshold ≠ s.cfg.part.captureThreshold :=
  let p : PartRecord := { PartRecord.unconfigured with own := 1, captureThreshold := 1 }
  ⟨writing litHall .trunk 8 0 p.bytes, .trunk, _, p, endsWrite_of (by decide +kernel),
    ⟨by decide, by decide, by decide, fun j => by cases j <;> decide, fun j => by cases j <;> decide, by decide⟩,
    ⟨by decide, by decide, by decide, fun j => by cases j <;> decide, fun j => by cases j <;> decide, by decide⟩,
    by decide +kernel⟩

/-- The record's write while the trunk transmitter holds the head of its queue, addressed to the new own address (log 21). -/
theorem test_writePart_keeps :
    let p : PartRecord := { PartRecord.unconfigured with own := 30 }
    let x : Telegram := { dest := 30, src := 57, kind := 4, tag := 5, payload := [1] }
    let s := litHall.updLines fun l => { l with trunkTx := .sending .forward x 1, ht := { items := [x, x], discards := 65535 } }
    (after .writeEntryPart (writing s .trunk 8 0 p.bytes)).lines.ht = { items := [x], discards := 65535 } := by decide +kernel

theorem test_met_protected : ∃ (s : State) (t : Telegram) (p : PointIx) (e : PointCfg),
    EndsWrite s .trunk t 0 p.val e.bytes ∧ e.Fits ∧ (s.cfg.points[p]).protect = true :=
  ⟨writing (setPoint 127 { PointCfg.unconfigured with protectField := 1 } coverHall) .trunk 0 127 edgeContact.bytes, _, 127,
    edgeContact, endsWrite_of (by decide +kernel), edgeContactFits, by decide +kernel⟩

theorem test_met_protected_actuator : ∃ (s : State) (t : Telegram) (a : ActIx) (e : ActCfg),
    EndsWrite s .trunk t 1 a.val e.bytes ∧ e.Fits ∧ (s.cfg.acts[a]).protect = true :=
  ⟨writing (setActuator 95 { edgeActuator with protectField := 1 } litHall) .trunk 1 95 edgeActuator.bytes, _, 95, edgeActuator,
    endsWrite_of (by decide +kernel), ⟨by decide, by decide, by decide, by decide, by decide, by decide, by decide⟩,
    by decide +kernel⟩

/-- Scene 31 is marked protected. -/
def markedScene : State := litHall.updCfg fun k => { k with headers := k.headers.set 31 { cueCount := 0, protect := true } }

theorem test_met_protected_scene : ∃ (s s' : State) (t t' : Telegram) (n : SceneIx) (i : CueIx) (h : SceneHeader) (x : Cue),
    (EndsWrite s .trunk t 3 n.val h.bytes ∧ h.cueCount < 65536 ∧ (s.cfg.headers[n]).protect = true) ∧
    (EndsWrite s' .trunk t' 4 (n.val * 256 + i.val) x.bytes ∧ x.Fits ∧ (s'.cfg.headers[n]).protect = true) :=
  let h : SceneHeader := { cueCount := 65535, protect := true }
  ⟨writing markedScene .trunk 3 31 h.bytes, writing markedScene .trunk 4 (31 * 256 + 15) edgeCue.bytes, _, _, 31, 15, h, edgeCue,
    ⟨endsWrite_of (by decide +kernel), by decide +kernel⟩, ⟨endsWrite_of (by decide +kernel), edgeCueFits, by decide +kernel⟩⟩

theorem test_met_protected_zone : ∃ (s : State) (t : Telegram) (z : ZoneIx) (e : ZoneCfg),
    EndsWrite s .trunk t 5 z.val e.writeBytes ∧ e.Fits ∧ (s.cfg.zones[z]).eval.protect = true :=
  ⟨writing (setZone 3 (fun c => { c with eval := { c.eval with protect := true } }) litHall) .trunk 5 3
      ZoneCfg.unconfigured.writeBytes, _, 3, .unconfigured, endsWrite_of (by decide +kernel),
    ⟨by constructor <;> decide, by constructor <;> decide, by constructor <;> decide, by constructor <;> decide⟩,
    by decide +kernel⟩

/-- Entries not in use whose bytes name no line, kind, mark, direction or action: a point, an actuator and a filter entry. -/
def unusedPoint : PointCfg :=
  { PointCfg.unconfigured with lineField := 2, kindField := 8, notifyField := 2, protectField := 255, zone := .unlisted 0 }
def unusedActuator : ActCfg := { ActCfg.unconfigured with kindField := 8, zoneField := 4, protectField := 2 }
def unusedFilter : FilterEntry := { inUse := false, lo := 65535, hi := 0, dirField := 3, actionField := 255 }

theorem test_met_writeUnused : ∃ (s s' s'' : State) (t t' t'' : Telegram),
    (EndsWrite s .service t 0 127 unusedPoint.bytes ∧ unusedPoint.Fits) ∧
    (EndsWrite s' .trunk t' 1 95 unusedActuator.bytes ∧ unusedActuator.Fits ∧
      Unprotected .trunk (s'.cfg.acts[(95 : ActIx)]).protectField unusedActuator.protectField) ∧
    (EndsWrite s'' .trunk t'' 7 15 unusedFilter.bytes ∧ unusedFilter.lo < 65536 ∧ unusedFilter.hi < 65536) :=
  ⟨writing coverHall .service 0 127 unusedPoint.bytes,
    writing (setActuator 95 { ActCfg.unconfigured with protectField := 2 } coverHall) .trunk 1 95 unusedActuator.bytes,
    writing coverHall .trunk 7 15 unusedFilter.bytes, _, _, _,
    ⟨endsWrite_of (by decide +kernel), by decide, by decide, by decide, by decide, by decide, nofun, nofun⟩,
    ⟨endsWrite_of (by decide +kernel), ⟨by decide, by decide, by decide, by decide, by decide, by decide, by decide⟩,
      .inr (by decide +kernel)⟩,
    endsWrite_of (by decide +kernel), by decide⟩

theorem test_unused_stored :
    (after .writeEntryPoint (writing coverHall .service 0 127 unusedPoint.bytes)).cfg.points[(127 : PointIx)] = unusedPoint ∧
    (after .writeEntryFilter (writing coverHall .trunk 7 15 unusedFilter.bytes)).cfg.filter[(15 : FilterIx)] = unusedFilter := by
  decide +kernel

/-- Entries whose mark is set. -/
def markedPoint : PointCfg := { edgeContact with protectField := 1 }
def markedActuator : ActCfg := { edgeActuator with protectField := 1 }
def markedHeader : SceneHeader := { cueCount := 16, protect := true }
def markedZone : ZoneCfg := { ZoneCfg.unconfigured with eval := { ZoneCfg.unconfigured.eval with protect := true } }

/-- Trunk writes of those over entries whose mark is clear. -/
theorem test_met_marks_differ : ∃ (s s' s'' s₄ : State) (t t' t'' t₄ : Telegram),
    (EndsWrite s .trunk t 0 127 markedPoint.bytes ∧ (s.cfg.points[(127 : PointIx)]).protectField = 0 ∧ markedPoint.protect = true ∧
      ¬ Unprotected .trunk 0 markedPoint.protectField) ∧
    (EndsWrite s' .trunk t' 1 95 markedActuator.bytes ∧ (s'.cfg.acts[(95 : ActIx)]).protectField = 0 ∧
      markedActuator.protect = true ∧ ¬ Unprotected .trunk 0 markedActuator.protectField) ∧
    (EndsWrite s'' .trunk t'' 3 31 markedHeader.bytes ∧ (s''.cfg.headers[(31 : SceneIx)]).protect = false) ∧
    (EndsWrite s₄ .trunk t₄ 5 3 markedZone.writeBytes ∧ (s₄.cfg.zones[(3 : ZoneIx)]).eval.protect = false) ∧
    ¬ Unprotected .trunk (markByte false) (markByte true) :=
  ⟨writing coverHall .trunk 0 127 markedPoint.bytes, writing coverHall .trunk 1 95 markedActuator.bytes,
    writing litHall .trunk 3 31 markedHeader.bytes, writing litHall .trunk 5 3 markedZone.writeBytes, _, _, _, _,
    ⟨endsWrite_of (by decide +kernel), by decide +kernel, by decide +kernel, by rw [Unprotected]; decide +kernel⟩,
    ⟨endsWrite_of (by decide +kernel), by decide +kernel, by decide +kernel, by rw [Unprotected]; decide +kernel⟩,
    ⟨endsWrite_of (by decide +kernel), by decide +kernel⟩, ⟨endsWrite_of (by decide +kernel), by decide +kernel⟩,
    by rw [Unprotected]; decide +kernel⟩

/-- Writes of too many bytes, of too few, and outside the table. -/
theorem test_met_misfits : ∃ (s s' s'' : State) (c : Channel) (t t' t'' : Telegram) (bytes : List Byte) (k index : Nat),
    CarriesEntry .sceneHeader bytes ∧ EndsWrite s c t 3 31 (bytes ++ [0]) ∧
    (k < bytes.length ∧ EndsWrite s' c t' 3 31 (bytes.take k)) ∧
    (OutsideTable .sceneHeader index ∧ EndsWrite s'' c t'' 3 index bytes) :=
  let bytes := ({ cueCount := 16, protect := false } : SceneHeader).bytes
  ⟨writing litHall .trunk 3 31 (bytes ++ [0]), writing litHall .trunk 3 31 (bytes.take 2), writing litHall .trunk 3 32 bytes, .trunk,
    _, _, _, bytes, 2, 32, ⟨{ cueCount := 16, protect := false }, by decide, rfl⟩, endsWrite_of (by decide +kernel),
    ⟨by decide, endsWrite_of (by decide +kernel)⟩, Nat.le_refl 32, endsWrite_of (by decide +kernel)⟩

/-- A scene in its middle, whose cue names group 15. -/
def runningScene : State :=
  (litHall.updCfg fun k => { k with cues := k.cues.set 31 ((k.cues[(31 : SceneIx)]).set 0
    { Cue.unconfigured with target := some (.group 15) }) }).updScene 0 fun e => { e with
      state := .settling, scene := some 31, cues := [{ status := .started, channels := [] }] }

/-- Writes that IN_USE refuses. -/
theorem test_met_inUse : ∃ (s s' s'' s₄ : State) (t t' t'' t₄ : Telegram) (a : ActIx) (g : GroupIx) (n : SceneIx) (i : CueIx),
    (EndsWrite s .service t 1 a.val edgeActuator.bytes ∧ (s.cfg.acts[a]).inUse = true ∧ (s.acts[a]).control ≠ .disabled) ∧
    (EndsWrite s' .trunk t' 2 g.val (BitVec.ofNat 8 0 :: []) ∧ s'.groupRunning g = true) ∧
    (EndsWrite s'' .trunk t'' 3 n.val ({ cueCount := 1, protect := false } : SceneHeader).bytes ∧ s''.sceneRunning n = true) ∧
    (EndsWrite s₄ .trunk t₄ 4 (n.val * 256 + i.val) edgeCue.bytes ∧ s₄.sceneRunning n = true) :=
  ⟨writing litHall .service 1 7 edgeActuator.bytes, writing runningScene .trunk 2 15 [0],
    writing runningScene .trunk 3 31 ({ cueCount := 1, protect := false } : SceneHeader).bytes,
    writing runningScene .trunk 4 (31 * 256 + 15) edgeCue.bytes, _, _, _, _, 7, 15, 31, 15,
    ⟨endsWrite_of (by decide +kernel), by decide +kernel⟩, ⟨endsWrite_of (by decide +kernel), by decide +kernel⟩,
    ⟨endsWrite_of (by decide +kernel), by decide +kernel⟩, ⟨endsWrite_of (by decide +kernel), by decide +kernel⟩⟩

/-- Entries one step beyond a limit. -/
def wrongPoint : PointCfg := { edgeContact with channel := 4 }
def wrongActuator : ActCfg := { edgeActuator with deadband := 101 }
def wrongZone : ZoneCfg := { ZoneCfg.unconfigured with eval := { ZoneCfg.unconfigured.eval with period := 61 } }
def wrongPart : PartRecord := { PartRecord.unconfigured with captureThreshold := 33 }

/-- Points, actuators, zones and the PART record one step beyond a limit. -/
theorem test_met_badRecords : ∃ (s s' s'' s₄ : State) (t t' t'' t₄ : Telegram) (p : PointIx) (e : PointCfg) (a : ActIx)
    (f : ActCfg) (z : ZoneIx) (g : ZoneCfg) (h : PartRecord),
    (EndsWrite s .trunk t 0 p.val e.bytes ∧ e.inUse = true ∧ ¬ PointEntryOk s p e) ∧
    (EndsWrite s' .trunk t' 1 a.val f.bytes ∧ (s'.cfg.acts[a]).inUse = false ∧ f.inUse = true ∧ ¬ ActuatorEntryOk s' a f) ∧
    (EndsWrite s'' .trunk t'' 5 z.val g.writeBytes ∧ ¬ ZoneEntryOk g) ∧ EndsWrite s₄ .trunk t₄ 8 0 h.bytes ∧ ¬ PartRecordOk h :=
  ⟨writing coverHall .trunk 0 127 wrongPoint.bytes, writing coverHall .trunk 1 95 wrongActuator.bytes,
    writing coverHall .trunk 5 3 wrongZone.writeBytes, writing coverHall .trunk 8 0 wrongPart.bytes, _, _, _, _, 127, wrongPoint, 95,
    wrongActuator, 3, wrongZone, wrongPart,
    ⟨endsWrite_of (by decide +kernel), rfl, fun h => absurd h.channel (by decide)⟩,
    ⟨endsWrite_of (by decide +kernel), by decide +kernel, rfl, fun h => absurd h.deadband (by decide)⟩,
    ⟨endsWrite_of (by decide +kernel), fun h => absurd h.period.2 (by decide)⟩, endsWrite_of (by decide +kernel),
    fun h => absurd h.captureThreshold.2 (by decide)⟩

/-- Groups, headers, cues, the saturation table and filters one step beyond a limit. -/
theorem test_met_badLists : ∃ (s₁ s₂ s₃ s₄ s₅ : State) (t₁ t₂ t₃ t₄ t₅ : Telegram),
    (EndsWrite s₁ .trunk t₁ 2 15 [2, 7, 7] ∧ ¬ [(7 : Byte), 7].Nodup ∧ s₁.groupRunning 15 = false) ∧
    (EndsWrite s₂ .trunk t₂ 3 31 ({ cueCount := 17, protect := false } : SceneHeader).bytes ∧ s₂.sceneRunning 31 = false) ∧
    (EndsWrite s₃ .trunk t₃ 4 (31 * 256 + 15) ({ edgeCue with skip := 16 } : Cue).bytes ∧ s₃.sceneRunning 31 = false) ∧
    EndsWrite s₄ .trunk t₄ 6 0 (saturationBytes (.replicate 17 1)) ∧
    EndsWrite s₅ .trunk t₅ 7 15 ({ inUse := true, lo := 2, hi := 1, dirField := 2, actionField := 1 } : FilterEntry).bytes :=
  ⟨writing litHall .trunk 2 15 [2, 7, 7], writing litHall .trunk 3 31 ({ cueCount := 17, protect := false } : SceneHeader).bytes,
    writing litHall .trunk 4 (31 * 256 + 15) ({ edgeCue with skip := 16 } : Cue).bytes,
    writing litHall .trunk 6 0 (saturationBytes (.replicate 17 1)),
    writing litHall .trunk 7 15 ({ inUse := true, lo := 2, hi := 1, dirField := 2, actionField := 1 } : FilterEntry).bytes, _, _, _, _, _,
    ⟨endsWrite_of (by decide +kernel), by decide +kernel⟩, ⟨endsWrite_of (by decide +kernel), by decide +kernel⟩,
    ⟨endsWrite_of (by decide +kernel), by decide +kernel⟩, endsWrite_of (by decide +kernel), endsWrite_of (by decide +kernel)⟩

/-- Entries in use with codes that name no value, the lowest of each field, and in-use bytes that are neither yes nor no. -/
theorem test_met_badCodes :
    (¬ PointEntryOk coverHall 127 { edgeContact with lineField := 2 } ∧
      ¬ PointEntryOk coverHall 127 { edgeContact with kindField := 8 } ∧
      ¬ PointEntryOk coverHall 127 { edgeContact with notifyField := 2 } ∧
      ¬ ActuatorEntryOk coverHall 95 { edgeActuator with kindField := 8 } ∧
      ¬ FilterEntryOk { inUse := true, lo := 1, hi := 255, dirField := 3, actionField := 1 } ∧
      ¬ FilterEntryOk { inUse := true, lo := 1, hi := 255, dirField := 2, actionField := 2 }) ∧
    ∃ s t, EndsWrite s .trunk t 0 127 (edgeContact.bytes.set 0 2) ∧
    ∃ s t, EndsWrite s .trunk t 1 95 (edgeActuator.bytes.set 0 2) ∧
    ∃ s t, EndsWrite s .trunk t 7 15 (unusedFilter.bytes.set 0 2) :=
  ⟨⟨fun h => absurd h.codes (by decide), fun h => absurd h.codes (by decide), fun h => absurd h.codes (by decide),
      fun h => absurd h.codes (by decide), fun h => absurd h.codes (by decide), fun h => absurd h.codes (by decide)⟩,
    writing coverHall .trunk 0 127 (edgeContact.bytes.set 0 2), _, endsWrite_of (by decide +kernel),
    writing coverHall .trunk 1 95 (edgeActuator.bytes.set 0 2), _, endsWrite_of (by decide +kernel),
    writing coverHall .trunk 7 15 (unusedFilter.bytes.set 0 2), _, endsWrite_of (by decide +kernel)⟩

theorem test_met_readEntry : ∃ (s : State) (c : Channel) (t : Telegram) (tid : TableId),
    NextIs s c t 2 [BitVec.ofNat 8 (tableOrder.idxOf tid), 0, 127, 0] :=
  ⟨ask State.reset .trunk (request 2 [0, 0, 127, 0]), .trunk, request 2 [0, 0, 127, 0], .point,
    by simp only [nextIs_iff]; decide +kernel⟩

/-! ### Lines -/

/-- A telegram from node 57 to `dest`. -/
def telegram (dest : Byte) (kind : BitVec 4) (payload : List Byte) : Telegram :=
  { dest := dest, src := 57, kind := kind, tag := 5, payload := payload }

theorem test_met_telegrams : ∃ (t : Telegram), t.payload.length ≤ 32 ∧ t.dest ≠ 0 ∧ t.payload.length = 32 ∧
    judgeUnit true (clean t) = some t :=
  ⟨telegram 255 15 (List.replicate 32 0xA5), by decide +kernel⟩

/-- One unit for each case of R151: a stop bit missing, five bytes, length byte 33, a byte too many, a wrong check, destination
0. -/
theorem test_bad_units :
    ([(clean (telegram 254 1 [])).map (fun r => { r with stop := false }),
      (clean (telegram 254 1 [])).take 5,
      clean (telegram 254 1 (List.replicate 33 0)),
      clean (telegram 254 1 []) ++ [{ value := 0, stop := true }],
      (clean (telegram 254 1 [])).map (fun r => { r with value := r.value + 1 }),
      clean (telegram 0 1 [])].map fun u => (u.isEmpty, judgeUnit true u)) = List.replicate 6 (false, none) := by decide +kernel

/-- The service port does not judge the destination (R162). -/
theorem test_met_service_unit : ∃ (heard heard' : List RxByte) (t : Telegram), heard ≠ [] ∧ judgeUnit false heard = none ∧
    heard' ≠ [] ∧ judgeUnit false heard' = some t ∧ t.kind = 4 :=
  ⟨[{ value := 1, stop := true }], clean (telegram 0 4 [1]), telegram 0 4 [1], by decide +kernel⟩

/-- A unit of the longest telegram, with destination 0, as the service port hears it; and one for each of its discards. -/
theorem test_service_units :
    judgeUnit false (clean (telegram 0 15 (List.replicate 32 0xA5))) = some (telegram 0 15 (List.replicate 32 0xA5)) ∧
    ([(clean (telegram 0 4 [1])).map (fun r => { r with stop := false }), (clean (telegram 0 4 [])).take 5,
      clean (telegram 0 4 (List.replicate 33 0)), clean (telegram 0 4 [1]) ++ [{ value := 0, stop := true }],
      (clean (telegram 0 4 [1])).map (fun r => { r with value := r.value + 1 })].map (judgeUnit false)) = List.replicate 5 none := by
  decide +kernel

/-- Every kind to the own address: from COMMAND on. -/
theorem test_met_own_kinds : ∀ kind ∈ [(0 : BitVec 4), 2, 3, 5, 6, 7, 15], clean (telegram 254 kind [1, 0, 0, 9]) ≠ [] ∧
    judgeUnit true (clean (telegram 254 kind [1, 0, 0, 9])) = some (telegram 254 kind [1, 0, 0, 9]) ∧
    (telegram 254 kind [1, 0, 0, 9]).dest = State.reset.own ∧ (telegram 254 kind [1, 0, 0, 9]).kind ≠ 1 ∧
    (telegram 254 kind [1, 0, 0, 9]).kind ≠ 4 := by decide +kernel

/-- Requests at an empty queue, at a full one, and without a kind. -/
theorem test_met_requests : ∃ (s s' : State) (heard heard' : List RxByte) (t t' : Telegram),
    (heard ≠ [] ∧ judgeUnit true heard = some t ∧ t.dest = s.own ∧ t.kind = 4 ∧ t.payload ≠ []) ∧
    s'.mgmt.trunkRequests.length = 4 ∧
    (heard' ≠ [] ∧ judgeUnit true heard' = some t' ∧ t'.dest = s.own ∧ t'.kind = 4 ∧ t'.payload = []) :=
  let t := telegram 254 4 [1]
  ⟨State.reset, { State.reset with mgmt := { State.reset.mgmt with trunkRequests := [t, t, t, t] } }, clean t,
    clean (telegram 254 4 []), t, telegram 254 4 [], by decide +kernel⟩

/-- A filter whose first entry blocks destinations 10 to 20 from the trunk and whose second passes 20. -/
def filtered : State :=
  let first : FilterEntry := { inUse := true, lo := 10, hi := 20, dirField := 1, actionField := 1 }
  let second : FilterEntry := { inUse := true, lo := 20, hi := 20, dirField := 2, actionField := 0 }
  ready.updCfg fun k => { k with filter := (k.filter.set 0 first).set 1 second }

/-- A filter entry fits, as the statement of R154 has it. -/
abbrev Fits (f : FilterEntry) (d : Direction) (dest : Nat) : Prop := f.inUse = true ∧ f.lo ≤ dest ∧ dest ≤ f.hi ∧
  (f.dir = some .both ∨ (f.dir = some .ht ∧ d = .ht) ∨ (f.dir = some .th ∧ d = .th))

theorem test_met_filter : ∃ (s : State) (d d' : Direction) (dest dest' dest'' : Nat),
    (Fits s.cfg.filter[0] d dest ∧ ∀ j : FilterIx, j < 0 → ¬ Fits s.cfg.filter[j] d dest) ∧
    (Fits s.cfg.filter[1] d' dest' ∧ ∀ j : FilterIx, j < 1 → ¬ Fits s.cfg.filter[j] d' dest') ∧
    ∀ i : FilterIx, ¬ Fits s.cfg.filter[i] d dest'' :=
  ⟨filtered, .th, .ht, 20, 20, 21, ⟨by decide +kernel, by decide +kernel⟩, ⟨by decide +kernel, by decide +kernel⟩, by decide +kernel⟩

theorem test_met_forwarded : ∃ (s s' : State) (heard : List RxByte) (t : Telegram),
    (heard ≠ [] ∧ judgeUnit true heard = some t ∧ t.dest ≠ s.own ∧ t.kind ≠ 1 ∧ t.kind ≠ 2) ∧
    s.lines.th.items.length = 0 ∧ s'.lines.th.items.length = 16 ∧ s'.own = s.own :=
  let t := telegram 30 4 [1]
  ⟨ready, ready.updLines fun l => { l with th := { items := List.replicate 16 t, discards := 65535 } }, clean t, t,
    by decide +kernel⟩

/-- A COMMAND from the trunk to channel 1 of node 20. -/
def foreign (dest cls : Byte) : Telegram := telegram dest 2 [1, cls, 0, 9]

/-- The COMMAND names dimmer 7 of zone 0. -/
def blockedFilter : State :=
  let entry : FilterEntry := { inUse := true, lo := 20, hi := 20, dirField := 1, actionField := 1 }
  litHall.updCfg fun k => { k with filter := k.filter.set 15 entry }

theorem test_met_foreign : ∃ (s s' : State) (t t' t'' : Telegram) (a : ActIx),
    (clean t ≠ [] ∧ judgeUnit true (clean t) = some t ∧ t.kind = 2 ∧ t.payload = [1, 0, 0, 9] ∧ t.dest ≠ s.own ∧
      t.dest = 255 ∧ s.anyEnabled = true) ∧
    (judgeUnit true (clean t') = some t' ∧ t'.kind = 2 ∧ t'.payload = [1, 0, 0, 9] ∧ t'.dest ≠ s.own ∧ t'.dest ≠ 255 ∧
      s.matchActuator t'.dest.toNat (1 : Byte).toNat = some a ∧ (s.cfg.acts[a]).kind ≠ .plain ∧
      (s.cfg.zones[(s.cfg.acts[a]).zone]).eval.enabled = true) ∧
    (judgeUnit true (clean t'') = some t'' ∧ t''.kind = 2 ∧ t''.payload = [1, 1, 0, 9] ∧ t''.dest ≠ s.own ∧ t''.dest ≠ 255 ∧
      s.matchActuator t''.dest.toNat (1 : Byte).toNat = some a ∧ s.filterAction .th t''.dest.toNat = .pass ∧
      s.lines.th.items.length < 16 ∧ (s.acts[a]).control = .enabled) ∧
    (s'.matchActuator t''.dest.toNat (1 : Byte).toNat = some a ∧ (s'.cfg.acts[a]).kind ≠ .plain ∧
      (s'.cfg.zones[(s'.cfg.acts[a]).zone]).eval.enabled = true ∧ s'.filterAction .th t''.dest.toNat = .block) :=
  ⟨litHall, blockedFilter, foreign 255 0, foreign 20 0, foreign 20 1, 7, by decide +kernel⟩

theorem test_override : (after (.receivedUnit .trunk (clean (foreign 20 1))) litHall).acts[(7 : ActIx)].control = .overridden ∧
    (after (.receivedUnit .trunk (clean (foreign 20 1))) litHall).acts[(7 : ActIx)].overrideTimer = .running 60000 := by
  decide +kernel

/-- COMMANDs that pass to the filter: to 255 with no zone enabled, to no entry, to a PLAIN one, to one in a disabled zone, and of another
length. -/
theorem test_met_foreign_passed :
    let heard := fun (t : Telegram) => clean t ≠ [] ∧ judgeUnit true (clean t) = some t ∧ t.kind = 2 ∧ t.dest ≠ litHall.own
    let short := telegram 20 2 [1, 0, 0]
    let owned := fun (s : State) => s.matchActuator 20 1 = some 7
    (heard short ∧ short.payload.length ≠ 4) ∧ (heard (foreign 255 0) ∧ ∀ z : ZoneIx, ready.enabled z = false) ∧
    (heard (foreign 21 0) ∧ litHall.matchActuator 21 1 = none ∧
      ∀ a : ActIx, ¬ ((litHall.cfg.acts[a]).inUse = true ∧ (litHall.cfg.acts[a]).node = 21 ∧ (litHall.cfg.acts[a]).channel = 1)) ∧
    (let s := setActuator 7 (anActuator .plain 2) litHall;
      heard (foreign 20 0) ∧ owned s ∧ (s.cfg.acts[(7 : ActIx)]).kind = .plain) ∧
    (let s := setActuator 7 (anActuator .dimmer 1000) ready;
      owned s ∧ (s.cfg.zones[(s.cfg.acts[(7 : ActIx)]).zone]).eval.enabled = false) := by decide +kernel

/-- OVERRIDEs to dimmer 7 that find it overridden, disabled, and the queue full. -/
theorem test_met_override :
    let full := litHall.updLines fun l => { l with th := { items := List.replicate 16 (telegram 30 4 [1]), discards := 65535 } }
    let owned := fun (s : State) => s.matchActuator 20 1 = some 7 ∧ (s.cfg.acts[(7 : ActIx)]).kind ≠ .plain ∧
      (s.cfg.zones[(s.cfg.acts[(7 : ActIx)]).zone]).eval.enabled = true ∧ s.filterAction .th 20 = .pass
    let as := fun (c : Control) => litHall.updAct 7 fun r => { r with control := c }
    (∀ c ∈ [Control.overridden, .disabled, .disabling], owned (as c) ∧ ((as c).acts[(7 : ActIx)]).control = c ∧
      (as c).lines.th.items.length < 16) ∧
    (owned full ∧ 16 ≤ full.lines.th.items.length) := by decide +kernel

/-- An entry of the outstanding table. -/
def outstanding (tag : Tag) (a : ActIx) (phase : Phase) : Outstanding :=
  { tag := tag, act := a, node := 20, channel := 1, value := 9, phase := phase, telegram := telegram 20 2 [1, 0, 0, 9] }

def withCommands (s : State) (l : List Outstanding) : State := { s with disp := { s.disp with outstanding := l } }
def withLines (s : State) (f : Lines → Lines) : State := { s with lines := f s.lines }

/-- Both sources of the hall transmitter wait, behind a command that awaits its acknowledgement. -/
def hallBoth (last : HallSource) : State :=
  withLines (withCommands ready [outstanding 3 1 (.awaitingAck (.running 0)), outstanding 4 2 .sending]) fun l =>
    { l with th := { items := [telegram 30 4 [1]], discards := 0 }, hallLast := last }

theorem test_met_hallTx : ∃ (s s' s'' s''' : State) (older younger : List Outstanding) (o : Outstanding) (x : Telegram)
    (rest : List Telegram),
    s.lines.hallTx ≠ .free ∧
    (s'.lines.hallTx = .free ∧ (∀ o ∈ s'.disp.outstanding, o.phase ≠ .sending) ∧ s'.lines.th.items = []) ∧
    (s''.lines.hallTx = .free ∧ s''.disp.outstanding = older ++ o :: younger ∧ (∀ x ∈ older, x.phase ≠ .sending) ∧
      o.phase = .sending ∧ (s''.lines.th.items = [] ∨ s''.lines.hallLast = .forward)) ∧
    (s'''.lines.hallTx = .free ∧ s'''.lines.th.items = x :: rest ∧
      ((∀ o ∈ s'''.disp.outstanding, o.phase ≠ .sending) ∨ s'''.lines.hallLast = .command)) :=
  ⟨withLines ready fun l => { l with hallTx := .sending .forward (telegram 30 4 [1]) 1 }, ready, hallBoth .forward, hallBoth .command,
    [outstanding 3 1 (.awaitingAck (.running 0))], [], outstanding 4 2 .sending, telegram 30 4 [1], [], by decide +kernel⟩

theorem test_met_trunkTx_taken : ∃ s : State, s.lines.trunkTx ≠ .free :=
  ⟨withLines ready fun l => { l with trunkTx := .sending .forward (telegram 30 4 [1]) 1 }, by decide +kernel⟩

def aReply (c : Channel) : Reply := { channel := c, telegram := telegram 9 5 [1, 0], restart := false }
def aNotice : Notice := { kind := .localReleased, zone := 255, time := 7, detail := [0] }

/-- Every source of the trunk transmitter waits. -/
def trunkAll (wait : Nat) : State :=
  { withLines ready (fun l => { l with
      trunkActive := true, ht := { items := [telegram 30 4 [1]], discards := 0 }, forwardWait := wait }) with
    mgmt := { ready.mgmt with replies := [aReply .service, aReply .trunk], notices := [aNotice] } }

theorem test_met_trunkTx_first : ∃ (s s' : State) (x : Telegram) (rest : List Telegram) (older younger : List Reply) (r : Reply),
    (s.lines.trunkTx = .free ∧ s.lines.ht.items = x :: rest ∧ s.lines.forwardWait = 4) ∧
    (s'.lines.trunkTx = .free ∧ s'.mgmt.replies = older ++ r :: younger ∧ (∀ x ∈ older, x.channel ≠ .trunk) ∧
      r.channel = .trunk ∧ (s'.lines.ht.items = [] ∨ s'.lines.forwardWait ≠ 4)) :=
  ⟨trunkAll 4, trunkAll 3, telegram 30 4 [1], [], [aReply .service], [], aReply .trunk, by decide +kernel⟩

/-- No reply waits for the trunk. -/
def trunkQuiet (active : Bool) (notices : List Notice) (items : List Telegram) : State :=
  { withLines ready (fun l => { l with trunkActive := active, ht := { items := items, discards := 0 } }) with
    mgmt := { ready.mgmt with replies := [aReply .service], notices := notices } }

theorem test_met_trunkTx_rest : ∃ (s s' s'' s''' : State) (n : Notice) (rest : List Notice) (x : Telegram) (rest' : List Telegram),
    (s.lines.trunkTx = .free ∧ (∀ r ∈ s.mgmt.replies, r.channel ≠ .trunk) ∧ s.lines.trunkActive = true ∧
      s.mgmt.notices = n :: rest ∧ (s.lines.ht.items = [] ∨ s.lines.forwardWait ≠ 4)) ∧
    (s'.lines.trunkTx = .free ∧ (∀ r ∈ s'.mgmt.replies, r.channel ≠ .trunk) ∧
      (s'.lines.trunkActive = false ∨ s'.mgmt.notices = []) ∧ s'.lines.ht.items = x :: rest') ∧
    (s''.lines.trunkTx = .free ∧ (∀ r ∈ s''.mgmt.replies, r.channel ≠ .trunk) ∧ s''.mgmt.notices = [] ∧
      s''.lines.ht.items = [] ∧ s''.lines.trunkActive = true ∧ s''.lines.announcePending = true) ∧
    (s'''.lines.trunkTx = .free ∧ (∀ r ∈ s'''.mgmt.replies, r.channel ≠ .trunk) ∧ s'''.lines.ht.items = [] ∧
      s'''.lines.trunkActive = false) :=
  ⟨trunkQuiet true [aNotice] [telegram 30 4 [1]], trunkQuiet false [aNotice] [telegram 30 4 [1]], trunkQuiet true [] [],
    trunkQuiet false [aNotice] [], aNotice, [], telegram 30 4 [1], [], by decide +kernel⟩

/-- Attempts of a telegram on either line, read back clean or with its last byte changed. -/
theorem test_met_attempts : ∃ (t : Telegram) (k : Nat) (b b' : RxByte),
    (k < t.bytes.length ∧ b.value ≠ t.bytes.getD k 0) ∧ (k < t.bytes.length ∧ b'.stop = false) ∧
    ∀ (source : TxSource) (n : Nat),
      (withLines ready fun l => { l with hallTx := .sending source t n }).lines.hallTx = .sending source t n ∧
      (withLines ready fun l => { l with trunkTx := .sending source t n }).lines.trunkTx = .sending source t n :=
  let t := telegram 30 4 [1]
  ⟨t, 6, { value := 0, stop := true }, { value := t.bytes.getD 6 0, stop := false }, by decide +kernel, by decide +kernel,
    fun _ _ => ⟨rfl, rfl⟩⟩

theorem test_attempt_dropped :
    (after (.txAttemptEnd .trunk [{ value := 0, stop := true }])
      (withLines (trunkAll 3) fun l => { l with trunkTx := .sending .notice (telegram 30 6 [1]) 3 })).mgmt.flags.txLost = true := by decide +kernel

theorem test_met_retries : ∃ (s s' s'' s''' : State) (source : TxSource) (t : Telegram) (n : Nat) (older younger : List Reply)
    (r : Reply), s.lines.hallTx = .waiting source t n ∧ s.lines.trunkTx = .waiting source t n ∧
    (s'.mgmt.replies = older ++ r :: younger ∧ (∀ x ∈ older, x.channel ≠ .service) ∧ r.channel = .service) ∧
    (s''.mgmt.idleTimer = .running 0 ∧ s''.mgmt.notices.length < 8) ∧
    (s'''.mgmt.idleTimer = .running 0 ∧ 8 ≤ s'''.mgmt.notices.length) :=
  let t := telegram 30 4 [1]
  let idle := fun (l : List Notice) => ({ ready with mgmt := { ready.mgmt with idleTimer := .running 0, notices := l } } : State)
  ⟨withLines ready fun l => { l with hallTx := .waiting .forward t 2, trunkTx := .waiting .forward t 2 },
    { ready with mgmt := { ready.mgmt with replies := [aReply .trunk, aReply .service] } }, idle [], idle (List.replicate 8 aNotice),
    .forward, t, 2, [aReply .trunk], [], aReply .service, by decide +kernel⟩

/-! ### Requests: the choice and the common checks -/

/-- Both channels have a request. -/
def bothAsk : State := ask (ask ready .trunk (request 1 [])) .service (request 1 [])

theorem test_met_turn : bothAsk.mgmt.next = some (.trunk, request 1 []) ∧
    ({ bothAsk with mgmt := { bothAsk.mgmt with lastServed := .trunk } } : State).mgmt.next = some (.service, request 1 []) := by
  decide +kernel

theorem test_met_refused : ∃ (s : State) (c : Channel) (t : Telegram) (kind : Byte) (params : List Byte) (status : Status),
    s.mgmt.next = some (c, t) ∧ t.payload = kind :: params ∧ s.commonCheck (.of c t) = some status ∧ kind ≠ 3 ∧ kind ≠ 7 :=
  ⟨ask State.reset .trunk (request 4 [0, 1, 0]), .trunk, request 4 [0, 1, 0], 4, [0, 1, 0], .unconfigured, by decide +kernel⟩

/-- A WRITE_ENTRY and two READ_FLAGS of the trunk that local mode or their shape refuses. -/
theorem test_met_refused_kinds :
    let held : State := { ready with mgmt := { ready.mgmt with localMode := true } }
    let case := fun (s : State) (t : Telegram) (status : Status) =>
      (ask s .trunk t).mgmt.next = some (.trunk, t) ∧ (ask s .trunk t).commonCheck (.of .trunk t) = some status
    case held (request 3 [8, 0, 0, 0, 1, 7]) .reserved ∧ case held (request 7 [255, 1]) .reserved ∧
    case held (request 7 [3, 4]) .reserved ∧ case ready (request 7 [255]) .badValue := by
  decide +kernel

/-- One request for each row of R165. -/
theorem test_met_checks :
    let r := fun (c : Channel) (kind : Byte) (params : List Byte) => Request.of c (request kind params)
    let commit : Commit := { channel := .trunk, requester := 9, tag := 0, copy := .unconfigured }
    let busy : State := { ready with mgmt := { ready.mgmt with commit := some commit } }
    let held : State := { ready with mgmt := { ready.mgmt with localMode := true } }
    ((r .trunk 4 [0, 1]).kind = some .zoneCommand ∧ shapeOk .zoneCommand (r .trunk 4 [0, 1]).params = false) ∧
    (shapeOk .commitImage (r .trunk 13 []).params = true ∧ held.mgmt.localMode = true ∧ (r .trunk 13 []).changing = true) ∧
    ((r .service 13 []).kind = some .commitImage ∧ busy.mgmt.localMode = false ∧
      ∃ m, busy.mgmt.commit = some m ∧ m.channel ≠ .service) ∧
    (State.reset.configured = false ∧ (∀ z : ZoneIx, State.reset.enabled z = false) ∧
      (r .trunk 4 [0, 1, 0]).param 1 ≠ 0) ∧
    (ready.mgmt.localMode = false ∧ ready.mgmt.commit = none ∧ ready.configured = true) := by
  refine ⟨by decide +kernel, by decide +kernel, ⟨by decide +kernel, rfl, _, rfl, by decide⟩, by decide +kernel, by decide +kernel⟩

/-- A changing request of each kind that has one, with the bounds of the flag masks; one that is not changing of each kind that has
one; and a changing request of the service port in held local mode, which passes. -/
theorem test_changing :
    let r := fun (kind : Byte) (params : List Byte) => Request.of .trunk (request kind params)
    let held : State := { ready with mgmt := { ready.mgmt with localMode := true } }
    let changes := fun (b : Bool) (l : List (ReqKind × List Byte)) => ∀ x ∈ l,
      (r x.1.wire x.2).kind = some x.1 ∧ shapeOk x.1 x.2 = true ∧ (r x.1.wire x.2).changing = b
    changes true [(.writeEntry, [8, 0, 0, 0, 1, 7]), (.zoneCommand, [0, 0, 0]), (.sceneRequest, [0, 0]), (.actuatorControl, [0, 0]),
      (.readFlags, [255, 32]), (.readFlags, [3, 4]), (.accumulator, [1, 0, 0, 0, 0, 0, 0]), (.accumulator, [2, 0]),
      (.capture, [0, 0]), (.capture, [2, 0]), (.ring, [1]), (.watch, [1, 0, 0, 0, 0, 0, 0, 0]), (.watch, [2, 0]), (.watch, [3, 0]),
      (.commitImage, []), (.restart, []), (.releaseLocal, [])] ∧
    changes false [(.identify, []), (.readEntry, [0, 0, 0, 0]), (.readFlags, [255, 64]), (.readFlags, [3, 8]),
      (.readFlags, [4, 1]), (.lineStatus, [0]), (.accumulator, [0, 0, 0]), (.capture, [1]), (.ring, [0, 0, 0]),
      (.watch, [0, 0, 0]), (.takeLocal, [])] ∧
    held.commonCheck (.of .service (request 13 [])) = none ∧ (r 13 []).changing = true ∧
    held.commonCheck (.of .trunk (request 13 [])) = some .reserved := by
  decide +kernel

/-! ### Start-up, restart and commit -/

def commitInFlight : Commit := { channel := .service, requester := 9, tag := 0, copy := .unconfigured }

/-- The configuration of a part with zone 0 enabled. -/
def savedConfig : ConfigData := enabledZone.cfg

theorem other_check (x : BitVec 32) : x ≠ x + 1 := by
  intro h
  have := congrArg BitVec.toNat h
  rw [BitVec.toNat_add] at this
  simp at this
  omega

/-- Every image that a load can find. -/
theorem test_met_images : ∃ (s s' s'' s''' : State) (c c' : ConfigData) (k : BitVec 32),
    (s.mgmt.commit = none ∧ s.image = .blank) ∧ s'.mgmt.commit ≠ none ∧
    (s''.mgmt.commit = none ∧ s''.image = .stored c k ∧ imageCheck c ≠ k) ∧
    (s'''.mgmt.commit = none ∧ s'''.image = .stored c' (imageCheck c')) :=
  ⟨State.reset, { State.reset with mgmt := { State.reset.mgmt with commit := some commitInFlight } },
    { State.reset with image := .stored savedConfig (imageCheck savedConfig + 1) },
    { State.reset with image := .stored savedConfig (imageCheck savedConfig) }, savedConfig, savedConfig, _,
    ⟨rfl, rfl⟩, nofun, ⟨rfl, rfl, other_check _⟩, ⟨rfl, rfl⟩⟩

theorem test_met_restart : ∃ (s s' : State), s.mgmt.restartPending = true ∧
    (∃ r ∈ s.mgmt.replies, r.restart = true) ∧ s'.mgmt.restartPending = true ∧ (∀ r ∈ s'.mgmt.replies, r.restart = false) ∧
    s'.image = .torn :=
  ⟨{ ready with mgmt := { ready.mgmt with restartPending := true, replies := [{ aReply .trunk with restart := true }] } },
    { ready with image := .torn, mgmt := { ready.mgmt with restartPending := true, replies := [aReply .trunk] } },
    by decide +kernel⟩

/-! ### Points -/

theorem test_met_reading : ∃ (s : State) (t t' t'' : Telegram),
    (clean t ≠ [] ∧ judgeUnit true (clean t) = some t ∧ t.kind = 1 ∧ t.payload.length = 16 ∧ t.dest = s.own) ∧
    (judgeUnit true (clean t') = some t' ∧ t'.kind = 1 ∧ t'.payload.length = 4 ∧ t'.dest ≠ s.own) ∧
    (judgeUnit true (clean t'') = some t'' ∧ t''.kind = 1 ∧ t''.payload.length = 5) :=
  ⟨coverHall, telegram 254 1 (List.replicate 4 [2, 0, 0, 1]).flatten, telegram 30 1 [2, 0, 0, 1], telegram 254 1 [2, 0, 0, 1, 0],
    by decide +kernel⟩

/-- A reading of the contact: accepted at either limit, faulty by its quality and beyond a limit. -/
theorem test_met_items : ∃ (s : State) (line : Line) (node : Nat) (p : PointIx) (item item' item'' item''' : ReadingItem),
    let keyed := fun (p : PointIx) (i : ReadingItem) => (s.cfg.points[p]).inUse = true ∧ (s.cfg.points[p]).line = some line ∧
      (s.cfg.points[p]).node = node ∧ (s.cfg.points[p]).channel = i.channel.toNat
    (keyed p item ∧ ∀ q, q < p → ¬ keyed q item) ∧
    (item.quality = 0 ∧ (s.cfg.points[p]).min ≤ item.value ∧ item.value = (s.cfg.points[p]).max) ∧
    (keyed p item' ∧ item'.quality ≠ 0) ∧ (keyed p item'' ∧ item''.quality = 0 ∧ item''.value = (s.cfg.points[p]).min - 1) ∧
    ∀ q, ¬ keyed q item''' :=
  ⟨coverHall, .hall, 57, 40, { channel := 2, quality := 0, value := 1 }, { channel := 2, quality := 1, value := 1 },
    { channel := 2, quality := 0, value := -1 }, { channel := 3, quality := 0, value := 1 }, by decide +kernel⟩

/-- Section 1.4: a contact that is made for three readings and then moves is accepted at the third (R14). -/
theorem test_contact_run :
    ([true, false, true, true, true].foldl (fun r v => PointRt.filter r 3 v)
      { PointRt.reset with contact := some false }) = { PointRt.reset with contact := some true } := by decide +kernel

theorem test_met_contact : ∃ (r r' r'' r''' : PointRt) (v : Bool), r.contact = none ∧ r'.contact = some v ∧
    (r''.contact = some (!v) ∧ r''.candidate = some v) ∧ (r'''.contact = some (!v) ∧ r'''.candidate ≠ some v) :=
  ⟨.reset, { PointRt.reset with contact := some true }, { PointRt.reset with contact := some false, candidate := some true },
    { PointRt.reset with contact := some false }, true, by decide +kernel⟩

theorem test_met_contact_run : ∃ (r : PointRt) (c : PointCfg) (v v' : Int) (persistence : Nat),
    c.kind = .coverOpen ∧ v = 0 ∧ v' = 1 ∧ persistence = 15 ∧ r.run = 14 :=
  ⟨{ PointRt.reset with contact := some false, candidate := some true, run := 14 },
    { coverHall.cfg.points[(0 : PointIx)] with kindField := 6 }, 0, 1, 15, by decide +kernel⟩

theorem test_met_stale : ∃ (s s' : State) (p p' : PointIx), (s.points[p]).staleTimer = .running 0 ∧
    ((s'.points[p']).staleTimer = .running 0 ∧ (s'.cfg.points[p']).kind ≠ .coverClosed ∧
      (s'.cfg.points[p']).kind ≠ .coverOpen) :=
  ⟨coverHall.updPoint 40 fun r => { r with state := .fresh, contact := some true, staleTimer := .running 0 },
    coverHall.updPoint 0 fun r => { r with state := .fresh, staleTimer := .running 0 }, 40, 0, by decide +kernel⟩

theorem test_met_notices : ∃ (s s' : State), s.mgmt.notices.length < 8 ∧ 8 ≤ s'.mgmt.notices.length :=
  ⟨{ ready with mgmt := { ready.mgmt with notices := List.replicate 7 aNotice } },
    { ready with mgmt := { ready.mgmt with notices := List.replicate 8 aNotice } }, by decide +kernel⟩

/-! ### Zone evaluation and heating -/

/-- Zone 0 with fresh air at 306 and 620, glazing at 241, and its evaluation due. -/
def evaluated : State :=
  let put := fun (p : PointIx) (kind : PointKind) (v : Int) (s : State) =>
    (setPoint p { aPoint kind (-400) 1000 with channel := p.val } s).updPoint p fun r => { r with state := .fresh, value := some v }
  (put 0 .airTemp 306 (put 1 .airRh 620 (put 3 .glazingTemp 241 coverHall))).updEval 0 fun e => { e with timer := .running 0 }

theorem test_met_evaluation : ∃ (s : State) (z : ZoneIx), (s.zones[z]).eval.timer = .running 0 :=
  ⟨evaluated, 0, by decide +kernel⟩

/-- The first row of section 2.14 with the reference saturation values. -/
theorem test_evaluation_row :
    (fun (e : EvalRt) => ([e.psat, e.pv, e.td, e.margin], [e.dRh, e.dCond, e.d], e.crit))
      ((after (.evaluation 0) evaluated).zones[(0 : ZoneIx)]).eval =
    ([some 4411, some 2735, some 223, some 18], [200, 300, 300], true) := by
  decide +kernel

/-- An armed capture is taken at the evaluation's end with its reason. -/
theorem test_evaluation_captures :
    (after (.evaluation 0) (evaluated.updZone 0 fun r => { r with arming := some 5 })).acct.captures.map CaptureRecord.reason =
      [.accOverflow 5] := by decide +kernel

theorem test_met_vapour : ∃ (psat rh : Int), 0 ≤ psat ∧ psat ≤ 65535 ∧ 0 ≤ rh ∧ rh ≤ 1000 := ⟨65535, 1000, by decide⟩

theorem test_met_mean : ∃ (readings : List Int) (m : Int), (∀ x ∈ readings, 0 ≤ x ∧ x ≤ 1000) ∧ mean readings = some m ∧ m = 1000 :=
  ⟨[1000, 1000, 1000], 1000, by decide⟩

theorem test_reference_rises : ∀ i : Fin 16, referenceSaturation[i.val] + 50 ≤ referenceSaturation[i.val + 1] := by decide

theorem test_met_dewPoint : ∃ (sat : Vector Nat 17) (tc rh : Int), (∀ i : Nat, (h : i < 16) → sat[i] < sat[i + 1]) ∧
    -200 ≤ tc ∧ tc ≤ 600 ∧ 0 ≤ rh ∧ rh ≤ 1000 ∧ satAt sat 16 ≤ vapourPressure (saturationPressure sat tc) rh ∧
    (∀ i : Nat, (h : i < 16) → sat[i] + 50 ≤ sat[i + 1]) :=
  ⟨referenceSaturation, 600, 1000, fun i h => by have := test_reference_rises ⟨i, h⟩; dsimp only at this; omega, by decide, by decide,
    by decide, by decide, by decide +kernel, fun i h => test_reference_rises ⟨i, h⟩⟩

/-- The temperatures of the table from end to end, and one between two of them. -/
theorem test_met_dewPoint_table : ∃ (tc : Int) (i : Nat), -200 ≤ tc ∧ tc ≤ 600 ∧ i < 17 ∧ tc = -200 + 50 * (i : Int) ∧ i = 16 :=
  ⟨600, 16, by decide⟩

/-- A vapour pressure between two entries, with the lower of them the last that does not exceed it. -/
theorem test_met_dewPoint_between : ∃ (pv : Int) (j : Nat), j < 16 ∧ satAt referenceSaturation j ≤ pv ∧
    pv < satAt referenceSaturation 16 ∧ (∀ k : Nat, j < k → k < 16 → pv < satAt referenceSaturation k) ∧ j = 15 :=
  ⟨satAt referenceSaturation 16 - 1, 15, by decide +kernel, by decide +kernel, by decide +kernel,
    fun k h h' => absurd h (by omega), rfl⟩

theorem test_met_dewPoint_low : ∃ (tc rh : Int), -200 ≤ tc ∧ tc ≤ 600 ∧ 0 ≤ rh ∧ rh ≤ 1000 ∧
    vapourPressure (saturationPressure referenceSaturation tc) rh < satAt referenceSaturation 0 :=
  ⟨-200, 0, by decide +kernel⟩

theorem test_met_integration : ∃ (i formed pterm e i' formed' pterm' e' : Int),
    (1000 < pterm + formed.tdiv 64 ∧ 0 < e) ∧ (pterm' + formed'.tdiv 64 < 0 ∧ e' < 0) ∧ i = 64000 ∧ i' = 0 :=
  ⟨64000, 64064, 0, 1, 0, -64, 0, -1, by decide⟩

/-! ### The air handler -/

/-- Zone 0 with covers and purge in the states given, and the arbiter's dwell satisfied. -/
def climate (crit : Bool) (purge : PurgeState) (cover : CoverState) (d h : Int) : State :=
  enabledZone.updZone 0 fun r => { r with
    eval := { r.eval with crit := crit, d := d }, heat := { r.heat with h := h }, purge := { r.purge with state := purge }
    cover := { r.cover with state := cover } }


theorem noVent {s : State} (h : (s.zones[(0 : ZoneIx)]).eval.td = none) : ¬ VentAvailable s 0 := by
  rintro ⟨_, td, _, h', _⟩
  rw [h] at h'
  cases h'

/-- The rows above hold nowhere in a state that only a lower row describes. -/
theorem choice {s : State} {z : ZoneIx} {row : ChoiceRow} {mode : Mode} (h : RowHolds s z row)
    (first : ∀ r ∈ row.above, ¬ RowHolds s z r) (v : ¬ VentAvailable s z) (m : mode = row.mode false) : Chooses s z row mode := by
  subst m
  exact ⟨h, first, by rintro (rfl | rfl) <;> rfl, by rintro rfl; rfl, by rintro rfl; rfl, fun _ h => absurd h v,
    by rintro (rfl | rfl) _ <;> rfl⟩

/-- Every row of R68 makes a choice in some state. -/
theorem test_met_choices : ∃ (s₁ s₂ s₃ s₄ s₅ s₆ : State), Chooses s₁ 0 .disabled .idle ∧ Chooses s₂ 0 .crit .dry ∧
    Chooses s₃ 0 .purge .purge ∧ Chooses s₄ 0 .drying .dry ∧ Chooses s₅ 0 .heating .heat ∧ Chooses s₆ 0 .none .idle := by
  refine ⟨ready, climate true .request .covered 0 0, climate false .request .covered 200 1, climate false .request .openIdle 200 1,
    climate false .inactive .openIdle 199 1, climate false .inactive .openIdle 199 0, ?_, ?_, ?_, ?_, ?_, ?_⟩ <;>
  refine choice (by simp only [RowHolds] <;> decide +kernel) (fun r hr => ?_) (noVent (by decide +kernel)) rfl <;>
  cases r <;> first | exact absurd hr (by decide) | (simp only [RowHolds]; decide +kernel)

/-- The tests of dwell and hold, passed and failed, for the choice of CRIT. -/
theorem test_met_tests :
    let dwelling := (climate true .inactive .openIdle 0 0).updArb 0 fun a => { a with granted := .vent, dwell := .running 5 }
    let held := (climate true .inactive .openIdle 0 0).updZone 0 fun r => { r with held := true }
    (Mode.dry ≠ (dwelling.zones[(0 : ZoneIx)]).arb.granted ∧ ¬ PassesDwell dwelling 0 .crit false) ∧
    (Mode.dry ≠ (held.zones[(0 : ZoneIx)]).arb.granted ∧ PassesDwell held 0 .crit false ∧ ¬ PassesHold held 0 .crit false) := by
  simp only [PassesDwell, PassesHold]
  decide +kernel

/-- Zone 0 under closed covers with a purge in the state given, its grant and what is left of its run; every accumulator adds. -/
def purging (crit : Bool) (purge : PurgeState) (granted : Mode) (left : Nat) : State :=
  ((climate crit purge .covered 0 0).updZone 0 fun r => { r with
    arb := { r.arb with granted := granted }, purge := { r.purge with remainingRun := left, runCounted := 1999 } }).updPart fun p =>
      { p with run := true, accOptions := .replicate 4 (.replicate 6
        { enabled := true, captureOnOverflow := false, freezeOnOverflow := false }) }

/-- Decisions that grant a requested and a suspended purge, and that withdraw a run with and without a remainder. -/
theorem test_met_purgeTold : ∃ (s₁ s₂ s₃ s₄ : State),
    (Chooses s₁ 0 .purge .purge ∧ Chooses s₂ 0 .purge .purge ∧ Chooses s₃ 0 .crit .dry ∧ Chooses s₄ 0 .crit .dry) ∧
    (∀ s ∈ [s₁, s₂], (s.zones[(0 : ZoneIx)]).arb.granted = .idle ∧ (s.zones[(0 : ZoneIx)]).arb.dwell = .stopped ∧
      (s.zones[(0 : ZoneIx)]).held = false) ∧
    (∀ s ∈ [s₃, s₄], (s.zones[(0 : ZoneIx)]).arb.granted = .purge ∧ (s.zones[(0 : ZoneIx)]).purge.state = .run ∧
      (s.zones[(0 : ZoneIx)]).held = false) ∧
    (s₁.zones[(0 : ZoneIx)]).purge.state = .request ∧ (s₂.zones[(0 : ZoneIx)]).purge.state = .suspended ∧
    (s₃.zones[(0 : ZoneIx)]).purge.remainingRun = 0 ∧ (s₄.zones[(0 : ZoneIx)]).purge.remainingRun = 500 := by
  refine ⟨purging false .request .idle 0, purging false .suspended .idle 500, purging true .run .purge 0,
    purging true .run .purge 500, ⟨?_, ?_, ?_, ?_⟩, by decide +kernel⟩ <;>
  refine choice (by simp only [RowHolds]; decide +kernel) (fun r hr => ?_) (noVent (by decide +kernel)) rfl <;>
  cases r <;> first | exact absurd hr (by decide) | (simp only [RowHolds]; decide +kernel)

theorem test_purge_withdrawn :
    (((purging true .run .purge 500).takeDecision 0 false).zones[(0 : ZoneIx)]).purge.state = .suspended ∧
    ((((purging true .run .purge 500).takeDecision 0 false).acct.accs[(0 : ZoneIx)])[(3 : AccIx)]).value = 1 ∧
    (((purging true .run .purge 0).takeDecision 0 false).zones[(0 : ZoneIx)]).purge.state = .wait := by decide +kernel

/-- Covers that leave COVERED with a run under its grant, and with a suspended purge. -/
theorem test_met_leaving : ∃ (s s' : State) (z : ZoneIx) (next : CoverState),
    (∀ u ∈ [s, s'], (u.zones[z]).cover.state = .covered ∧ u.enabled z = true) ∧ next ≠ .covered ∧ next ≠ .disabled ∧
    ((s.zones[z]).purge.state = .run ∧ (s.zones[z]).arb.granted = .purge ∧ ((s.cfg.part.accOptions[z])[(3 : AccIx)]).enabled = true ∧
      s.cfg.part.run = true) ∧
    (s'.zones[z]).purge.state = .suspended :=
  ⟨purging false .run .purge 500, purging false .suspended .idle 500, 0, .prepOpen, by decide +kernel⟩

/-- Zone 0 with its working drive 12, the covers as given. -/
def covers (state : CoverState) : State := coverHall.updCover 0 fun c => { c with state := state, drives := [12] }

theorem test_met_coverTimers : ∃ (s s' s'' s''' : State) (z : ZoneIx), (s.zones[z]).arb.dwell = .running 0 ∧
    (s'.zones[z]).cover.detectTimer = .running 0 ∧ (s''.zones[z]).cover.prepTimer = .running 0 ∧
    ((s'''.zones[z]).cover.motionTimer = .running 0 ∧ (s'''.zones[z]).cover.state = .deploying) :=
  ⟨enabledZone.updArb 0 fun a => { a with dwell := .running 0 },
    enabledZone.updCover 0 fun c => { c with state := .detect, detectTimer := .running 0 },
    enabledZone.updCover 0 fun c => { c with state := .prepClose, prepTimer := .running 0 },
    enabledZone.updCover 0 fun c => { c with state := .deploying, motionTimer := .running 0 }, 0, by decide +kernel⟩

/-- The covers as given, with contact 40 of drive 12 of a kind, FRESH and made or not. -/
def contactAt (state : CoverState) (kind : PointKind) (made : Bool) : State :=
  (setPoint 40 (aContact kind 3) (covers state)).updPoint 40 fun r => { r with state := .fresh, contact := some made }

/-- Contact 40 reports on its working drive in every state of the sequencer; contact 41, of another drive, on none. -/
theorem test_met_contactReports :
    (∀ state ∈ coverStateOrder, ∀ kind ∈ [PointKind.coverClosed, .coverOpen],
      ReportsDrive (contactAt state kind false) 0 (aContact kind 3) ∧
      ((contactAt state kind false).zones[(0 : ZoneIx)]).cover.state = state) ∧
    ∀ w : ZoneIx, ¬ ReportsDrive (covers .deploying) w { aContact .coverOpen 3 with drive := some 13 } := by
  simp only [ReportsDrive, DriveOf]
  decide +kernel

/-- A drive that fails in motion, one whose range is refused while settling, and one that is in order. -/
theorem test_met_driveReports : ∃ (s s' : State) (z : ZoneIx) (a : ActIx),
    ((s.zones[z]).cover.state = .deploying ∧ a ∈ (s.zones[z]).cover.drives ∧ (s.acts[a]).health ≠ .ok) ∧
    ((s'.zones[z]).cover.state = .settle ∧ a ∈ (s'.zones[z]).cover.drives ∧ (s'.acts[a]).health = .ok) :=
  ⟨(covers .deploying).updAct 12 fun r => { r with health := .hand }, covers .settle, 0, 12, by decide +kernel⟩

/-- The covers in PREP_CLOSE, with a cover-work take. -/
def prepared : State := (covers .prepClose).updScene 0 fun e => { e with origin := some .coverWork }

/-- The end of a cover-work take in a zone held, with its drives ready, without drives, and with a drive that is not ready. -/
theorem test_met_sceneReports :
    let none' := setActuator 12 (anActuator .plain 2) prepared
    let byHand := prepared.updAct 12 fun r => { r with control := .overridden }
    ((prepared.zones[(0 : ZoneIx)]).cover.state = .prepClose ∧ (prepared.zones[(0 : ZoneIx)]).scene.origin = some .coverWork) ∧
    ((prepared.updZone 0 fun r => { r with held := true }).zones[(0 : ZoneIx)]).held = true ∧
    ((prepared.zones[(0 : ZoneIx)]).held = false ∧ DrivesReady prepared 0) ∧
    (none'.formDrives 0 = [] ∧ ¬ DrivesReady none' 0) ∧ (byHand.formDrives 0 = [12] ∧ ¬ DrivesReady byHand 0) := by
  simp only [← drivesReady_iff]
  decide +kernel

/-! ### Covers and purge -/

theorem test_met_settle : ∃ (s : State) (z : ZoneIx), (s.zones[z]).cover.settleTimer = .running 0 :=
  ⟨enabledZone.updCover 0 fun c => { c with state := .settle, settleTimer := .running 0 }, 0, by decide +kernel⟩

/-- The covers with a settle time. -/
def settling (n : Nat) (s : State) : State := setZone 0 (fun c => { c with cover := { c.cover with settle := n } }) s

/-- Drive 12 stands at its closed end, at neither, and at its open end. -/
theorem test_met_ends :
    (∀ n ∈ [0, 600], AllClosed (settling n (contactAt .deploying .coverClosed true)) 0 [12] ∧
      ((settling n (contactAt .deploying .coverClosed true)).cfg.zones[(0 : ZoneIx)]).cover.settle = n) ∧
    (¬ AllClosed (contactAt .detect .coverClosed false) 0 [12] ∧ ¬ AllOpen (contactAt .detect .coverClosed false) 0 [12]) ∧
    (¬ AllClosed (contactAt .retracting .coverOpen true) 0 [12] ∧ AllOpen (contactAt .retracting .coverOpen true) 0 [12]) := by
  simp only [← allClosed_iff, ← allOpen_iff]
  decide +kernel

theorem test_end_reached : ((settling 600 (contactAt .deploying .coverClosed true)).coverContact 40 (aContact .coverClosed 3)
    (.changed true)).zones[(0 : ZoneIx)].cover.state = .settle := by decide +kernel

theorem test_met_purge : ∃ (s s' s'' : State) (z : ZoneIx),
    ((s.zones[z]).held = false ∧ (s.zones[z]).purge.state = .wait ∧ (s.zones[z]).purge.remainingWait = 0 ∧ s.enabled z = true ∧
      (s.zones[z]).eval.crit = false ∧ (s.zones[z]).cover.state = .covered ∧ (s.zones[z]).arb.dwell = .stopped ∧
      (s.zones[z]).arb.granted ≠ .purge) ∧
    ((s'.zones[z]).held = false ∧ (s'.zones[z]).purge.state = .wait ∧ (s'.zones[z]).purge.remainingWait = 0 ∧
      (s'.zones[z]).eval.crit = true) ∧
    ((s''.zones[z]).held = false ∧ (s''.zones[z]).purge.state = .run ∧ (s''.zones[z]).purge.remainingRun = 0 ∧
      s''.enabled z = true ∧ (s''.zones[z]).arb.granted = .purge ∧ ((s''.cfg.part.accOptions[z])[3]).enabled = true ∧
      s''.cfg.part.run = true) :=
  ⟨climate false .wait .covered 0 0, climate true .wait .covered 0 0,
    (climate false .run .covered 0 0).updArb 0 fun a => { a with granted := .purge }, 0, by decide +kernel⟩

theorem test_purge_granted :
    ((after (.purgeWaitExpiry 0) (climate false .wait .covered 0 0)).zones[(0 : ZoneIx)]).purge.state = .run := by decide +kernel

/-! ### Scenes -/

/-- A cue of level 500, and its channel, dimmer 7, with a fade on it. -/
def fading : State :=
  (litHall.updCfg fun k => { k with
    headers := k.headers.set 0 { cueCount := 1, protect := false }
    cues := k.cues.set 0 ((k.cues[(0 : SceneIx)]).set 0 { Cue.unconfigured with target := some (.actuator 7), level := 500 }) }).updScene 0
  fun e => { e with
    state := .running, scene := some 0, origin := some .request, cues := [{ status := .pending 0, channels := [7] }]
    touched := [{ act := 7, owner := some 0, fade := some { ls := 0, lt := 500, n := 2, k := 1 }, rangeRefused := false }]
    stepTimer := .running 0 }

theorem test_met_scene : ∃ (s : State) (z : ZoneIx) (i : CueIx) (n : SceneIx) (run : CueRun) (a : ActIx) (t : Touched) (f : Fade),
    ((s.zones[z]).held = false ∧ (s.zones[z]).scene.scene = some n ∧ (s.zones[z]).scene.dueCue = some i.val) ∧
    ((s.zones[z]).scene.cues[i.val]? = some run ∧ a ∈ run.channels ∧ t ∈ (s.zones[z]).scene.touched ∧ t.act = a ∧
      ∀ x ∈ (s.zones[z]).scene.touched, x.act = a → ∀ j ∈ x.owner, j ≤ i.val) ∧
    ((s.zones[z]).scene.stepTimer = .running 0 ∧ (s.zones[z]).scene.touched.find? (fun x => x.act == a) = some t ∧
      t.owner = some i.val ∧ t.fade = some f ∧ run.channels.count a = 1) ∧
    ((s.cfg.acts[a]).inUse = true ∧ (s.cfg.acts[a]).kind = .dimmer ∧ (s.cfg.acts[a]).zone = z) :=
  ⟨fading, 0, 0, 0, { status := .pending 0, channels := [7] }, 7,
    { act := 7, owner := some 0, fade := some { ls := 0, lt := 500, n := 2, k := 1 }, rangeRefused := false },
    { ls := 0, lt := 500, n := 2, k := 1 }, by decide +kernel⟩

/-- Engines at work and done, and reports of a touched channel and of another. -/
theorem test_met_judgements : ∃ (s s' : State) (z : ZoneIx),
    ((s.zones[z]).scene.state = .running ∧ AtWork (s.zones[z]).scene ∧ (∃ t ∈ (s.zones[z]).scene.touched, t.act = 7) ∧
      ¬ ∃ t ∈ (s.zones[z]).scene.touched, t.act = 8) ∧
    ((s'.zones[z]).scene.state = .settling ∧ ¬ AtWork (s'.zones[z]).scene ∧ ∃ t ∈ (s'.zones[z]).scene.touched, t.act = 7) :=
  ⟨fading, fading.updScene 0 fun e => { e with
      state := .settling, cues := [{ status := .started, channels := [7] }]
      touched := [{ act := 7, owner := some 0, fade := none, rangeRefused := true }] }, 0, by
    simp only [← atWork_iff]
    decide +kernel⟩

/-- The beginning of a fade from a requested value, from a confirmed one, and with neither; channels that no cue owns, that a cue of
higher index owns, and that a lower one owns; and a cue that starts. -/
theorem test_met_cueStarts : ∃ (s : State) (z : ZoneIx) (c c' : Cue) (a b d e : ActIx) (i : CueIx) (n : SceneIx) (run : CueRun),
    let owner := fun (a : ActIx) => ((s.zones[z]).scene.touched.find? fun t => t.act == a).map Touched.owner
    (c.fade ≠ 0 ∧ c'.fade = 0) ∧
    ((s.acts[a]).requested = some 5 ∧ (s.acts[b]).requested = none ∧ (s.acts[b]).confirmed = some 6 ∧
      (s.acts[d]).requested = none ∧ (s.acts[d]).confirmed = none) ∧
    (owner a = some none ∧ owner b = some (some 15) ∧ owner d = some (some 0) ∧ owner e = none) ∧
    ((s.zones[z]).scene.cues[i.val]? = some run ∧ (s.zones[z]).scene.scene = some n) ∧ (s.zones[z]).scene.cues[1]? = none :=
  let channel := fun (a : ActIx) (owner : Option Nat) => ({ act := a, owner := owner, fade := none, rangeRefused := false } : Touched)
  ⟨((fading.updScene 0 fun e => { e with touched := [channel 7 none, channel 8 (some 15), channel 9 (some 0)] }).updAct 7 fun r =>
      { r with requested := some 5 }).updAct 8 fun r => { r with confirmed := some 6 }, 0,
    { Cue.unconfigured with fade := 6000 }, .unconfigured, 7, 8, 9, 10, 0, 0, { status := .pending 0, channels := [7] },
    by decide +kernel⟩

theorem test_cue_starts : ((after (.cueDelayExpiry 0 0) fading).acts[(7 : ActIx)]).requested = some 500 ∧
    ((after (.cueDelayExpiry 0 0) fading).acts[(7 : ActIx)]).dispatch = .queued := by decide +kernel

theorem test_fade_ends : ((after (.fadeStep 0) fading).acts[(7 : ActIx)]).requested = some 500 ∧
    ((after (.fadeStep 0) fading).zones[(0 : ZoneIx)]).scene.stepTimer = .stopped := by decide +kernel

/-! ### The dispatcher -/

/-- Dimmer 7 may join its queue. -/
def dimmerReady : State := litHall.updAct 7 fun r => { r with requested := some 500, needsSend := true }

theorem test_met_join : ∃ (s : State) (a : ActIx) (j : Job), (s.cfg.acts[a]).kind.job = some j ∧ MayQueue s a :=
  ⟨dimmerReady, 7, .light, by decide +kernel,
    { inUse := by decide +kernel, owned := by decide +kernel, needsSend := by decide +kernel, idle := by decide +kernel
      control := by decide +kernel, zone := by decide +kernel, retry := by decide +kernel, hold := .inl (by decide +kernel) }⟩

theorem test_met_join_not : ∃ (s : State) (a : ActIx), ¬ MayQueue s a :=
  ⟨litHall, 7, fun h => absurd h.needsSend (by decide +kernel)⟩

theorem test_met_actuatorTimers : ∃ (s : State) (a a' : ActIx), (s.acts[a]).refreshTimer = .running 0 ∧
    (s.acts[a]).retryTimer = .running 0 ∧ (s.acts[a]).overrideTimer = .running 0 ∧
    ((s.acts[a']).overrideTimer = .running 0 ∧ (s.cfg.acts[a']).kind ≠ .dimmer) :=
  let due := fun (r : ActRt) => { r with refreshTimer := .running 0, retryTimer := .running 0, overrideTimer := .running 0 }
  ⟨(dimmerReady.updAct 7 due).updAct 8 due, 7, 8, by decide +kernel⟩

/-- Dimmer 7 in flight under tag 4, behind another command. -/
def inFlight (phase : Phase) (source : Nat) : State :=
  withLines (withCommands (litHall.updAct 7 fun r => { r with dispatch := .inFlight, inFlightTag := some 4, inFlightValue := some 9 })
    [outstanding 3 1 .sending, outstanding 4 7 phase]) fun l =>
    { l with hallTx := if source = 0 then .free else .sending (.command 4) (telegram 20 2 [1, 0, 0, 9]) source }

/-- The acknowledgement of tag 4. -/
def anAck (status : Byte) : Telegram := { dest := 254, src := 20, kind := 3, tag := 4, payload := [1, status, 0, 9] }

theorem test_met_sent : ∃ (s : State) (older younger : List Outstanding) (o : Outstanding) (t : Telegram) (n k : Nat) (b b' : RxByte),
    s.disp.outstanding = older ++ o :: younger ∧ (∀ x ∈ older, x.tag ≠ o.tag) ∧
    s.lines.hallTx = .sending (.command o.tag) t n ∧ 3 ≤ n ∧ k + 1 = t.bytes.length ∧ b.value ≠ t.bytes.getD k 0 ∧ b'.stop = false :=
  ⟨inFlight .sending 3, [outstanding 3 1 .sending], [], outstanding 4 7 .sending, telegram 20 2 [1, 0, 0, 9], 3, 9,
    { value := 0, stop := true }, { value := 0, stop := false }, by decide +kernel⟩

theorem test_met_ackTimeout : ∃ (s : State) (older younger : List Outstanding) (o : Outstanding),
    s.disp.outstanding = older ++ o :: younger ∧ (∀ x ∈ older, x.tag ≠ o.tag) ∧ o.phase = .awaitingAck (.running 0) :=
  ⟨inFlight (.awaitingAck (.running 0)) 0, [outstanding 3 1 .sending], [], outstanding 4 7 (.awaitingAck (.running 0)),
    by decide +kernel⟩

/-- An acknowledgement for each status. -/
theorem test_met_ack : ∃ (s : State) (older younger : List Outstanding) (o : Outstanding) (timer : Timer),
    s.disp.outstanding = older ++ o :: younger ∧ (∀ x ∈ older, x.tag ≠ o.tag) ∧ o.phase = .awaitingAck timer ∧
    ∀ status ∈ [(0 : Byte), 1, 2], clean (anAck status) ≠ [] ∧ judgeUnit true (clean (anAck status)) = some (anAck status) ∧
      (anAck status).dest = s.own ∧ (anAck status).kind = 3 ∧ (anAck status).tag = BitVec.ofNat 4 o.tag ∧
      (anAck status).src = o.node ∧ (anAck status).payload = [o.channel, status, 0, 9] ∧ ((0 : Byte) ++ (9 : Byte)).toInt = o.value :=
  ⟨inFlight (.awaitingAck (.running 7)) 0, [outstanding 3 1 .sending], [], outstanding 4 7 (.awaitingAck (.running 7)), .running 7,
    by decide +kernel⟩

/-- Acknowledgements that match no entry: by tag, node, channel, value, length and status, and one while its command is sent. -/
theorem test_met_ack_unmatched :
    let waits := inFlight (.awaitingAck (.running 7)) 0
    let misses := fun (s : State) (t : Telegram) => judgeUnit true (clean t) = some t ∧ t.dest = s.own ∧ t.kind = 3 ∧
      ∀ o ∈ s.disp.outstanding, t.tag ≠ BitVec.ofNat 4 o.tag ∨ o.phase = .sending ∨ t.src ≠ o.node ∨
        ∀ status hi lo : Byte, t.payload = [o.channel, status, hi, lo] → (hi ++ lo).toInt = o.value → 2 < status.toNat
    misses waits { anAck 0 with tag := 5 } ∧ misses waits { anAck 0 with src := 21 } ∧
    misses waits { anAck 0 with payload := [2, 0, 0, 9] } ∧ misses waits { anAck 0 with payload := [1, 0, 0, 8] } ∧
    misses waits { anAck 0 with payload := [1, 0, 0, 9, 0] } ∧ misses waits (anAck 3) ∧ misses (inFlight .sending 0) (anAck 0) := by
  refine ⟨?_, ?_, ?_, ?_, ?_, ?_, ?_⟩ <;>
    refine ⟨by decide +kernel, by decide +kernel, by decide +kernel, ?_⟩ <;>
    simp only [inFlight, withCommands, withLines, List.forall_mem_cons, List.not_mem_nil, false_implies, implies_true, and_true] <;>
    refine ⟨by decide, ?_⟩
  · decide
  · decide
  · refine .inr (.inr (.inr fun status hi lo h _ => ?_)); simp [outstanding] at h
  · refine .inr (.inr (.inr fun status hi lo h hv => ?_)); simp [outstanding] at h; obtain ⟨_, rfl, rfl⟩ := h; exact absurd hv (by decide)
  · refine .inr (.inr (.inr fun status hi lo h _ => ?_)); simp [outstanding] at h
  · refine .inr (.inr (.inr fun status hi lo h _ => ?_)); simp [anAck, outstanding] at h; obtain ⟨rfl, _⟩ := h; decide
  · decide

theorem test_ack_applied :
    ((after (.receivedUnit .hall (clean (anAck 0))) (inFlight (.awaitingAck (.running 7)) 0)).acts[(7 : ActIx)]).confirmed =
      some 9 := by decide +kernel

/-- Dimmer 7 waits alone, and tag 15 was the last issued. -/
def waiting : State :=
  { dimmerReady.updAct 7 (fun r => { r with dispatch := .queued }) with
    disp := { dimmerReady.disp with queues := { dimmerReady.disp.queues with light := [7] } } }

theorem test_met_noTag : ∃ s : State, ∀ t : Tag, ∃ o ∈ s.disp.outstanding, o.tag = t :=
  ⟨withCommands ready ((indices 16).map fun t => outstanding t 1 .sending), by decide +kernel⟩

/-- Dimmer 7 waits alone with no requested value, as a REFUSED_HAND may leave it (log 33). -/
def unrequested : State := waiting.updAct 7 fun r => { r with requested := none }

/-- Cover drive 12 waits alone with no requested value. -/
def stopping : State :=
  { coverHall.updAct 12 (fun r => { r with dispatch := .queued, needsSend := true }) with
    disp := { coverHall.disp with queues := { coverHall.disp.queues with cover := [12] } } }

/-- A job whose queue is the only one with an entry wins. -/
theorem wins_alone {s : State} {j : Job} {a : ActIx} (h : a ∈ s.disp.queues.get j) (hd : s.dispatchable a = true)
    (alone : ∀ k, k ≠ j → s.disp.queues.get k = []) : Wins s j ∧ ∀ k, Competes s k → k = j := by
  have only : ∀ k, Competes s k → k = j := fun k ⟨_, ha, _⟩ => by
    by_contra hk
    rw [alone k hk] at ha
    cases ha
  refine ⟨⟨⟨a, h, hd⟩, fun k hk hw => ?_, fun _ k hk => ?_⟩, only⟩
  · cases only k hk
    exact ⟨hw, Nat.le_refl _⟩
  · cases only k hk
    exact ⟨Nat.le_refl _, fun _ => Nat.le_refl _⟩

theorem test_met_noCandidate : ∃ s : State, ∀ j, ¬ Competes s j :=
  ⟨ready, fun j h => by obtain ⟨a, ha, _⟩ := h; revert a; cases j <;> decide +kernel⟩

/-- The hypotheses of an arbitration with a winner, of a job that competes alone. -/
structure Arbitrates (s : State) (j : Job) (t : Tag) (a : ActIx) (counts : PerJob Nat) : Prop where
  wins : Wins s j
  tag : NextFreeTag s t
  queue : s.disp.queues.get j = [] ++ a :: []
  dispatchable : s.dispatchable a = true
  job : (s.cfg.acts[a]).kind.job = some j
  queued : (s.acts[a]).dispatch = .queued
  others : ∀ k, k ≠ j → Competes s k → counts.get k = min 15 (s.disp.waitCounts.get k + 1)
  zero : ∀ k, k = j ∨ ¬ Competes s k → counts.get k = 0

theorem arbitrates_alone {s : State} {j : Job} {a : ActIx} (h : s.disp.queues.get j = [a]) (hd : s.dispatchable a = true)
    (alone : ∀ k, k ≠ j → s.disp.queues.get k = []) (ht : NextFreeTag s 0) (hj : (s.cfg.acts[a]).kind.job = some j)
    (hq : (s.acts[a]).dispatch = .queued) : Arbitrates s j 0 a { heat := 0, air := 0, cover := 0, light := 0 } where
  wins := (wins_alone (h ▸ List.mem_singleton_self a) hd alone).1
  tag := ht
  queue := h
  dispatchable := hd
  job := hj
  queued := hq
  others := fun k hk hc => absurd ((wins_alone (h ▸ List.mem_singleton_self a) hd alone).2 k hc) hk
  zero := fun k _ => by cases k <;> rfl

/-- Winners with a requested value, and without: a dimmer and a cover drive. -/
theorem test_met_arbitration : ∃ (s s' s'' : State) (t : Tag) (a a'' : ActIx) (counts : PerJob Nat),
    (Arbitrates s .light t a counts ∧ (s.acts[a]).requested = some 500) ∧
    (Arbitrates s' .light t a counts ∧ (s'.acts[a]).requested = none ∧ (s'.cfg.acts[a]).min ≤ (s'.cfg.acts[a]).max) ∧
    (Arbitrates s'' .cover t a'' counts ∧ (s''.acts[a'']).requested = none ∧ (s''.cfg.acts[a'']).kind = .coverDrive ∧
      (s''.cfg.acts[a'']).min ≤ (s''.cfg.acts[a'']).max) := by
  refine ⟨waiting, unrequested, stopping, 0, 7, 12, _, ⟨arbitrates_alone ?_ ?_ ?_ ⟨0, ?_⟩ ?_ ?_, ?_⟩,
    ⟨arbitrates_alone ?_ ?_ ?_ ⟨0, ?_⟩ ?_ ?_, ?_⟩, arbitrates_alone ?_ ?_ ?_ ⟨0, ?_⟩ ?_ ?_, ?_⟩
  all_goals first | decide +kernel | (intro k hk; cases k <;> first | rfl | exact absurd rfl hk)

theorem test_arbitration_unrequested :
    ((after .arbitration unrequested).acts[(7 : ActIx)]).inFlightValue = some (unrequested.valueToSend 7) := by
  with_unfolding_all rfl

theorem test_arbitration_stop : stopping.valueToSend 12 = 0 := by decide +kernel

theorem test_arbitration : (after .arbitration waiting).disp.lastTag = 0 ∧
    ((after .arbitration waiting).acts[(7 : ActIx)]).dispatch = .inFlight := by decide +kernel

/-! ### Zone commands, scenes, actuators, captures -/

/-- A zone command of the service port. -/
def zoneCommand (s : State) (z action force : Byte) : State := ask s .service (request 4 [z, action, force])

theorem test_met_enable : ∃ (s s' s'' : State) (t : Telegram) (z : ZoneIx),
    (NextIs s .service t 4 [BitVec.ofNat 8 z, 0, 1] ∧ s.enabled z = false) ∧
    (NextIs s' .service t 4 [BitVec.ofNat 8 z, 0, 1] ∧ s'.enabled z = true) ∧
    (NextIs s'' .trunk t 4 [BitVec.ofNat 8 z, 0, 1] ∧ (s''.cfg.zones[z]).eval.protect = true) :=
  ⟨zoneCommand State.reset 0 0 1, zoneCommand enabledZone 0 0 1,
    ask (setZone 0 (fun c => { c with eval := { c.eval with protect := true } }) ready) .trunk (request 4 [0, 0, 1]),
    request 4 [0, 0, 1], 0, by simp only [nextIs_iff]; decide +kernel⟩

theorem test_met_disable : ∃ (s s' s'' : State) (t : Telegram) (z : ZoneIx),
    (NextIs s .service t 4 [BitVec.ofNat 8 z, 1, 0] ∧ s.enabled z = true ∧ (s.zones[z]).cover.state = .covered) ∧
    (NextIs s' .service t 4 [BitVec.ofNat 8 z, 1, 0] ∧ s'.enabled z = false) ∧
    (NextIs s'' .trunk t 4 [BitVec.ofNat 8 z, 1, 0] ∧ (s''.cfg.zones[z]).eval.protect = true) :=
  ⟨zoneCommand (climate false .run .covered 0 0) 0 1 0, zoneCommand ready 0 1 0,
    ask (setZone 0 (fun c => { c with eval := { c.eval with protect := true } }) ready) .trunk (request 4 [0, 1, 0]),
    request 4 [0, 1, 0], 0, by simp only [nextIs_iff]; decide +kernel⟩

theorem test_enable_detects : ((after .zoneEnable (zoneCommand (setZone 0 (fun c =>
    { c with eval := { c.eval with enabled := false } }) coverHall) 0 0 0)).zones[(0 : ZoneIx)]).cover.state = .detect := by
  decide +kernel

/-- Zone 0 disabled, as its covers are. -/
def offAt (s : State) : State := setZone 0 (fun c => { c with eval := { c.eval with enabled := false } }) s

theorem test_met_enable_ends :
    let next := fun (s : State) => zoneCommand (offAt s) 0 0 0
    let noDrives := next (setActuator 12 (anActuator .plain 2) (covers .disabled))
    let closed := next (contactAt .disabled .coverClosed true)
    let opened := next (contactAt .disabled .coverOpen true)
    let between := next (contactAt .disabled .coverOpen false)
    (∀ s ∈ [noDrives, closed, opened, between], s.enabled 0 = false ∧ (s.zones[(0 : ZoneIx)]).cover.state = .disabled ∧
      s.mgmt.next = some (.service, request 4 [0, 0, 0]) ∧ s.commonCheck (.of .service (request 4 [0, 0, 0])) = none) ∧
    noDrives.formDrives 0 = [] ∧ (closed.formDrives 0 = [12] ∧ AllClosed closed 0 [12]) ∧
    (opened.formDrives 0 = [12] ∧ ¬ AllClosed opened 0 [12] ∧ AllOpen opened 0 [12]) ∧
    (between.formDrives 0 = [12] ∧ ¬ AllClosed between 0 [12] ∧ ¬ AllOpen between 0 [12]) ∧
    (∀ x ∈ [(noDrives, CoverState.openIdle), (closed, .covered), (opened, .openIdle), (between, .detect)],
      ((after .zoneEnable x.1).zones[(0 : ZoneIx)]).cover.state = x.2) := by
  simp only [← allClosed_iff, ← allOpen_iff]
  decide +kernel

/-- DISABLE of a zone whose covers move. -/
theorem test_met_disable_moving :
    let s := zoneCommand (covers .deploying) 0 1 0
    (s.mgmt.next = some (.service, request 4 [0, 1, 0]) ∧ s.commonCheck (.of .service (request 4 [0, 1, 0])) = none ∧
      s.enabled 0 = true ∧ (s.zones[(0 : ZoneIx)]).cover.state = .deploying) ∧
    ((after .zoneDisable s).acts[(12 : ActIx)]).requested = some 0 := by decide +kernel

theorem test_met_close : ∃ (s s' s'' s''' : State) (t t' : Telegram) (z : ZoneIx),
    (NextIs s .service t 4 [BitVec.ofNat 8 z, 2, 1] ∧ (s.zones[z]).cover.state = .openIdle ∧ (s.zones[z]).held = false ∧
      (s.zones[z]).cover.drives ≠ []) ∧
    (NextIs s' .trunk t 4 [BitVec.ofNat 8 z, 2, 1]) ∧
    (NextIs s'' .trunk t' 4 [BitVec.ofNat 8 z, 2, 0] ∧ (s''.zones[z]).cover.state ≠ .openIdle) ∧
    (NextIs s''' .trunk t' 4 [BitVec.ofNat 8 z, 2, 0] ∧ (s'''.zones[z]).cover.state = .openIdle ∧ (s'''.zones[z]).held = false ∧
      (s'''.zones[z]).cover.drives = []) :=
  ⟨zoneCommand (covers .openIdle) 0 2 1, ask (covers .openIdle) .trunk (request 4 [0, 2, 1]),
    ask (covers .covered) .trunk (request 4 [0, 2, 0]), ask enabledZone .trunk (request 4 [0, 2, 0]), request 4 [0, 2, 1],
    request 4 [0, 2, 0], 0, by simp only [nextIs_iff]; decide +kernel⟩

/-- The drive check passes: the working drives exist, and are in order. -/
theorem test_met_drives : (covers .openIdle).formDrives 0 ≠ [] ∧ ∀ a ∈ (covers .openIdle).formDrives 0,
    ((covers .openIdle).acts[a]).control = .enabled ∧ ((covers .openIdle).acts[a]).health = .ok ∧
    ((covers .openIdle).cfg.acts[a]).min = 0 ∧ ((covers .openIdle).cfg.acts[a]).max = 2 ∧
    ((covers .openIdle).cfg.acts[a]).deadband = 0 := by decide +kernel

/-- Zone 0 with covers open and a cover-work scene of so many cues, the first on dimmer 7. -/
def workHall (cues delay : Nat) : State :=
  let cue : Cue := { Cue.unconfigured with target := some (.actuator 7), level := 500, delay := delay }
  (setZone 0 (fun c => { c with cover := { c.cover with coverWorkScene := some 31 } })
    (setActuator 7 { anActuator .dimmer 1000 with channel := 2 } (covers .openIdle))).updCfg fun k =>
      { k with headers := k.headers.set 31 { cueCount := cues, protect := false }
               cues := k.cues.set 31 ((k.cues[(31 : SceneIx)]).set 0 cue) }

/-- A cover-work scene at its take: running, settling, complete with the drives ready and with one not ready, and degraded. -/
theorem test_met_coverWork :
    let closed := fun (s : State) => (after .closeCovers (zoneCommand s 0 2 0)).zones[(0 : ZoneIx)]
    let left := fun (s : State) => (closed s).scene.state
    let disabled := fun (s : State) => s.updAct 7 fun r => { r with control := .disabled }
    let byHand := fun (s : State) => s.updAct 12 fun r => { r with health := .hand }
    left (workHall 1 1) = .running ∧ left (workHall 1 0) = .settling ∧ left (workHall 0 0) = .complete ∧
    left (byHand (workHall 0 0)) = .complete ∧ left (disabled (workHall 1 0)) = .completeDegraded ∧
    (closed (workHall 0 0)).cover.state = .deploying ∧ (closed (workHall 1 1)).cover.state = .prepClose := by decide +kernel

theorem test_close_moves : ((after .closeCovers (zoneCommand (covers .openIdle) 0 2 1)).zones[(0 : ZoneIx)]).cover.state = .deploying ∧
    ((after .closeCovers (zoneCommand (covers .openIdle) 0 2 1)).acts[(12 : ActIx)]).requested = some 1 := by decide +kernel

theorem test_met_open : ∃ (s s' s'' : State) (t t' : Telegram) (z : ZoneIx),
    (NextIs s .service t 4 [BitVec.ofNat 8 z, 3, 1] ∧ (s.zones[z]).cover.state = .covered ∧ (s.zones[z]).held = false) ∧
    NextIs s' .trunk t 4 [BitVec.ofNat 8 z, 3, 1] ∧
    (NextIs s'' .trunk t' 4 [BitVec.ofNat 8 z, 3, 0] ∧ (s''.zones[z]).held = true) :=
  ⟨zoneCommand (covers .covered) 0 3 1, ask (covers .covered) .trunk (request 4 [0, 3, 1]),
    ask ((covers .covered).updZone 0 fun r => { r with held := true }) .trunk (request 4 [0, 3, 0]), request 4 [0, 3, 1],
    request 4 [0, 3, 0], 0, by simp only [nextIs_iff]; decide +kernel⟩

theorem test_open_moves : ((after .openCovers (zoneCommand (covers .covered) 0 3 1)).zones[(0 : ZoneIx)]).cover.state =
    .retracting := by decide +kernel

theorem test_met_clear : ∃ (s s' : State) (t : Telegram) (z : ZoneIx),
    (NextIs s .service t 4 [BitVec.ofNat 8 z, 4, 0] ∧ (s.zones[z]).cover.state = .fault) ∧
    (NextIs s' .service t 4 [BitVec.ofNat 8 z, 4, 0] ∧ (s'.zones[z]).cover.state ≠ .fault) :=
  ⟨zoneCommand (covers .fault) 0 4 0, zoneCommand (covers .openIdle) 0 4 0, request 4 [0, 4, 0], 0,
    by simp only [nextIs_iff]; decide +kernel⟩

/-- FAULT without working drives, and with drive 12 at its closed end, at its open end and at neither. -/
theorem test_met_clear_ends :
    (setActuator 12 (anActuator .plain 2) (covers .fault)).formDrives 0 = [] ∧
    (∀ s ∈ [contactAt .fault .coverClosed true, contactAt .fault .coverOpen true, contactAt .fault .coverOpen false],
      s.formDrives 0 = [12] ∧ (s.zones[(0 : ZoneIx)]).cover.state = .fault) ∧
    AllClosed (contactAt .fault .coverClosed true) 0 [12] ∧
    (¬ AllClosed (contactAt .fault .coverOpen true) 0 [12] ∧ AllOpen (contactAt .fault .coverOpen true) 0 [12]) ∧
    (¬ AllClosed (contactAt .fault .coverOpen false) 0 [12] ∧ ¬ AllOpen (contactAt .fault .coverOpen false) 0 [12]) := by
  simp only [← allClosed_iff, ← allOpen_iff]
  decide +kernel

theorem test_met_holds : ∃ (s s' : State) (t t' : Telegram) (z : ZoneIx),
    (NextIs s .service t 4 [BitVec.ofNat 8 z, 6, 0] ∧ (s.zones[z]).held = true ∧ s.enabled z = true) ∧
    (NextIs s' .service t' 4 [BitVec.ofNat 8 z, 5, 0] ∧ (s'.zones[z]).held = false ∧ (s'.zones[z]).purge.state = .run ∧
      (s'.zones[z]).arb.granted = .purge) :=
  ⟨zoneCommand (enabledZone.updZone 0 fun r => { r with held := true, holdCause := some 2 }) 0 6 0,
    zoneCommand ((climate false .run .covered 0 0).updArb 0 fun a => { a with granted := .purge }) 0 5 0, request 4 [0, 6, 0],
    request 4 [0, 5, 0], 0, by simp only [nextIs_iff]; decide +kernel⟩

/-- Zone 0 held, its covers moving out or about to, with a cue of no delay pending. -/
def holding (state : CoverState) : State :=
  ((setActuator 7 { anActuator .dimmer 1000 with channel := 2 } (covers state)).updZone 0 fun r => { r with
    held := true
    cover := { r.cover with lightingReady := true, motionTimer := .paused 158 }
    scene := { r.scene with
      state := .running, scene := some 0, cues := [{ status := .pending 0, channels := [7] }]
      touched := [{ act := 7, owner := none, fade := none, rangeRefused := false }], stepTimer := .paused 250 } }).updAct 7 fun r =>
        { r with needsSend := true, requested := some 9 }

/-- Holds to clear: in motion, and in a preparation that is ready, with its drive ready and with a drive that is not. -/
theorem test_met_clearing :
    let byHand := fun (s : State) => s.updAct 12 fun r => { r with health := .hand }
    (∀ state ∈ [CoverState.deploying, .retracting, .prepClose, .prepOpen, .settle],
      ((holding state).zones[(0 : ZoneIx)]).held = true ∧ ((holding state).zones[(0 : ZoneIx)]).cover.state = state ∧
      ((holding state).zones[(0 : ZoneIx)]).cover.lightingReady = true ∧ dueCues ((holding state).zones[(0 : ZoneIx)]).scene = [0]) ∧
    DrivesReady (holding .prepClose) 0 ∧ ¬ DrivesReady (byHand (holding .prepOpen)) 0 ∧
    MayQueue ((holding .settle).updZone 0 fun r => { r with held := false }) 7 := by
  refine ⟨by decide +kernel, by simp only [← drivesReady_iff]; decide +kernel, by simp only [← drivesReady_iff]; decide +kernel, ?_⟩
  exact { inUse := by decide +kernel, owned := by decide +kernel, needsSend := by decide +kernel, idle := by decide +kernel
          control := by decide +kernel, zone := by decide +kernel, retry := by decide +kernel, hold := .inl (by decide +kernel) }

/-- The worked sequence of section 5.12: RESUME requests CLOSE again, and the motion timer has 158 ms left here. -/
theorem test_resume_moves :
    let u := after .resume (zoneCommand (holding .deploying) 0 6 0)
    (u.zones[(0 : ZoneIx)]).cover.motionTimer = .running 158 ∧ (u.acts[(12 : ActIx)]).requested = some 1 ∧
    (u.zones[(0 : ZoneIx)]).scene.cues = [{ status := .started, channels := [7] }] ∧
    ((after .resume (zoneCommand (holding .prepOpen) 0 6 0)).zones[(0 : ZoneIx)]).cover.state = .retracting := by decide +kernel

theorem test_resume : ((after .resume (zoneCommand (enabledZone.updZone 0 fun r =>
    { r with held := true, holdCause := some 2 }) 0 6 0)).zones[(0 : ZoneIx)]).held = false := by decide +kernel

theorem test_met_sceneRequest : ∃ (s s' s'' : State) (t : Telegram) (z : ZoneIx) (n : SceneIx),
    (NextIs s .trunk t 5 [BitVec.ofNat 8 z, BitVec.ofNat 8 n] ∧ s.enabled z = true ∧ (s.zones[z]).scene.coverWork = false ∧
      (s.cfg.headers[n]).cueCount = 0 ∧ s.acct.frozen = false) ∧
    (NextIs s' .trunk t 5 [BitVec.ofNat 8 z, BitVec.ofNat 8 n] ∧ s'.enabled z = false) ∧
    (NextIs s'' .trunk t 5 [BitVec.ofNat 8 z, BitVec.ofNat 8 n] ∧ s''.enabled z = true ∧
      (s''.zones[z]).scene.coverWork = true) :=
  let t := request 5 [0, 31]
  ⟨ask litHall .trunk t, ask ready .trunk t, ask (litHall.updScene 0 fun e => { e with coverWork := true }) .trunk t, t, 0, 31,
    by simp only [nextIs_iff]; decide +kernel⟩

/-- Requests for scene 31 in a held zone, and in one in which it leaves the engine at work. -/
theorem test_met_sceneRequest_cues :
    let t := request 5 [0, 31]
    let late := ask (workHall 1 6000) .trunk t
    let held := ask ((workHall 1 0).updZone 0 fun r => { r with held := true }) .trunk t
    (∀ s ∈ [late, held], s.mgmt.next = some (.trunk, t) ∧ s.commonCheck (.of .trunk t) = none) ∧
    (held.zones[(0 : ZoneIx)]).held = true ∧ (late.zones[(0 : ZoneIx)]).held = false ∧
    ((after .sceneRequest late).zones[(0 : ZoneIx)]).scene.state = .running ∧
    ((after .sceneRequest held).zones[(0 : ZoneIx)]).scene.cues = [{ status := .pending 0, channels := [7] }] := by decide +kernel

/-- A take adds 1 to SCENE_CHANGES where the accumulator is enabled and RUN is on. -/
theorem test_take_counts :
    let s := ask (purging false .inactive .idle 0) .trunk (request 5 [0, 31])
    ((s.cfg.part.accOptions[(0 : ZoneIx)])[(5 : AccIx)]).enabled = true ∧ s.cfg.part.run = true ∧
    (((after .sceneRequest s).acct.accs[(0 : ZoneIx)])[(5 : AccIx)]).value = 1 := by decide +kernel

theorem test_scene_complete : ((after .sceneRequest (ask litHall .trunk (request 5 [0, 31]))).zones[(0 : ZoneIx)]).scene.state =
    .complete := by decide +kernel

theorem test_met_actuatorControl : ∃ (s s' : State) (t t' t'' : Telegram) (a a' : ActIx),
    (NextIs s .trunk t 6 [BitVec.ofNat 8 a, 0] ∧ (s.cfg.acts[a]).inUse = true ∧ (s.cfg.acts[a]).protect = false ∧
      (s.acts[a]).control = .enabled) ∧
    (NextIs s' .trunk t' 6 [BitVec.ofNat 8 a, 1] ∧ (s'.cfg.acts[a]).inUse = true ∧ (s'.cfg.acts[a]).protect = true ∧
      (s'.acts[a]).control = .overridden) ∧
    ((s.cfg.acts[a']).inUse = false ∧ t''.payload = [6, BitVec.ofNat 8 a', 1]) :=
  ⟨ask litHall .trunk (request 6 [7, 0]),
    ask ((setActuator 7 { anActuator .dimmer 1000 with protectField := 1 } litHall).updAct 7 fun r => { r with control := .overridden })
      .trunk (request 6 [7, 1]), request 6 [7, 0], request 6 [7, 1], request 6 [95, 1], 7, 95,
    by simp only [nextIs_iff]; decide +kernel⟩

/-- Dimmer 7 queued, and as each control leaves it. -/
theorem test_met_control :
    let queued := (dimmerReady.join 7)
    let as := fun (c : Control) => ask (dimmerReady.updAct 7 fun r => { r with control := c }) .trunk (request 6 [7, 1])
    ((queued.acts[(7 : ActIx)]).dispatch = .queued ∧ (queued.cfg.acts[(7 : ActIx)]).kind.job = some .light ∧
      (queued.acts[(7 : ActIx)]).control = .enabled ∧ (dimmerReady.acts[(7 : ActIx)]).dispatch ≠ .queued) ∧
    ∀ c ∈ [Control.disabled, .disabling, .overridden], ((as c).acts[(7 : ActIx)]).control = c ∧
      (as c).mgmt.next = some (.trunk, request 6 [7, 1]) ∧ ((as c).cfg.acts[(7 : ActIx)]).inUse = true ∧
      ((as c).cfg.acts[(7 : ActIx)]).protect = false := by decide +kernel

/-- DISABLE takes a queued actuator out of its queue; ENABLE lets it join again. -/
theorem test_control_queue :
    let off := after .actuatorDisable (ask (dimmerReady.join 7) .trunk (request 6 [7, 0]))
    off.disp.queues.light = [] ∧ (off.acts[(7 : ActIx)]).dispatch = .idle ∧
    (after .actuatorEnable (ask { off with mgmt := ready.mgmt } .trunk (request 6 [7, 1]))).disp.queues.light = [7] := by
  decide +kernel

theorem test_actuator_disabled : ((after .actuatorDisable (ask litHall .trunk (request 6 [7, 0]))).acts[(7 : ActIx)]).control =
    .disabled := by decide +kernel

/-- A capture record of zone 0. -/
def aCapture : CaptureRecord := ready.captureRecord 0 .requested

/-- A capture buffer of so many records. -/
def buffered (n threshold : Nat) (mode : CaptureMode) : State :=
  ({ ready with acct := { ready.acct with captures := List.replicate n aCapture } } : State).updPart fun p =>
    { p with captureMode := mode, captureThreshold := threshold }

theorem test_met_captureTake : ∃ (s s' s'' s''' : State) (t : Telegram) (z : ZoneIx),
    (NextIs s .trunk t 10 [0, BitVec.ofNat 8 z] ∧ s.acct.captures.length < 32 ∧
      ¬ (s.acct.thresholdArmed = true ∧ s.acct.captures.length + 1 = s.cfg.part.captureThreshold)) ∧
    (NextIs s' .trunk t 10 [0, BitVec.ofNat 8 z] ∧ s'.acct.captures.length < 32 ∧ s'.acct.thresholdArmed = true ∧
      s'.acct.captures.length + 1 = s'.cfg.part.captureThreshold) ∧
    (NextIs s'' .trunk t 10 [0, BitVec.ofNat 8 z] ∧ 32 ≤ s''.acct.captures.length ∧ s''.cfg.part.captureMode = .wrap) ∧
    (NextIs s''' .trunk t 10 [0, BitVec.ofNat 8 z] ∧ 32 ≤ s'''.acct.captures.length ∧ s'''.cfg.part.captureMode = .stop) :=
  let t := request 10 [0, 0]
  ⟨ask (buffered 31 1 .wrap) .trunk t, ask (buffered 31 32 .wrap) .trunk t, ask (buffered 32 1 .wrap) .trunk t,
    ask (buffered 32 1 .stop) .trunk t, t, 0, by simp only [nextIs_iff]; decide +kernel⟩

/-! ### Laws -/

/-- States in which the laws hold, and a step from them. -/
theorem test_met_demands : ∃ (s t : State), (∀ z : ZoneIx, DemandsInRange s.zones[z]) ∧ step s = .next t :=
  ⟨{ ready with pending := [.hallTxChoose] }, _, fun z => by
    have h : ∀ z : ZoneIx, ready.zones[z] = .reset .unconfigured := by decide +kernel
    show DemandsInRange ready.zones[z]
    rw [h z]
    exact ⟨by decide, by decide, nofun, by decide, by decide, rfl, nofun, nofun⟩, rfl⟩

theorem test_met_coverLaw : ∃ (s t : State), (∀ z : ZoneIx, CoverLaw (s.enabled z) s.zones[z]) ∧ step s = .next t :=
  ⟨{ ready with pending := [.hallTxChoose] }, _, fun z => by
    have h : ∀ z : ZoneIx, ready.zones[z] = .reset .unconfigured ∧ ready.enabled z = false := by decide +kernel
    show CoverLaw (ready.enabled z) ready.zones[z]
    rw [(h z).1, (h z).2]
    exact ⟨by decide, by decide, by decide, by decide, by decide, by decide, by decide, by decide, by decide⟩, rfl⟩

theorem test_met_tagLaw : ∃ (s t : State), TagLaw s ∧ step s = .next t :=
  ⟨{ ready with pending := [.hallTxChoose] }, _,
    { tags := by decide, actuators := by decide, entry := nofun
      flight := fun a h => absurd h (by revert a; decide +kernel), live := fun a h => absurd h (by revert a; decide +kernel)
      queued := fun j a h => (by cases j <;> cases h), queues := fun j => by cases j <;> decide +kernel }, rfl⟩

theorem test_met_sizes : ∃ (s t : State), WithinSizes s ∧ step s = .next t :=
  ⟨{ ready with pending := [.hallTxChoose] }, _,
    { work := ⟨by decide, by decide, by decide⟩, trunkRequests := by decide, serviceRequests := by decide, replies := by decide
      forwards := by decide, discards := by decide, errors := by decide, forwardWait := by decide
      waitCounts := fun j => by cases j <;> decide, timeouts := by decide +kernel, readOuts := by decide, tags := by decide
      outstanding := by decide, millis := by decide }, rfl⟩

end Sys2Proof.Tests
end

section
/-! SUPPORT. The clock and the point table: an idle step, the contact reports of a changed point, and the obligations about them. -/

namespace Sys2Proof.Machine

/-! ### One millisecond (log 2) -/

theorem step_idle {s : State} (h : s.pending = []) : step s = .next (clockTick s) := by simp [step, h]

theorem clockTick_point (s : State) (p : PointIx) : (clockTick s).points[p] = (s.points[p]).tick := by simp [clockTick]

theorem clockTick_act (s : State) (a : ActIx) : (clockTick s).acts[a] = (s.acts[a]).tick := by simp [clockTick]

theorem clockTick_zone (s : State) (z : ZoneIx) : (clockTick s).zones[z] = (s.zones[z]).tick := by simp [clockTick]

/-- The purge timer's millisecond, by its state. -/
theorem purgeTick_eq (p : PurgeRt) : p.tick =
    if p.state = .wait then { p with remainingWait := p.remainingWait - 1 }
    else if p.state = .run ∧ p.remainingRun ≠ 0 then
      { p with remainingRun := p.remainingRun - 1, runCounted := p.runCounted + 1 }
    else p := by
  unfold PurgeRt.tick
  cases hp : p.state with
  | run => by_cases h : p.remainingRun = 0 <;> simp [h]
  | inactive => simp
  | wait => simp
  | request => simp
  | suspended => simp

theorem run_succ_next {M : Host.Core} {k : Nat} {s t : M.State} (h : M.step s = .next t) : M.run (k + 1) s = M.run k t := by
  simp [Host.Core.run, h]

/-- `k` idle steps take `k` milliseconds from a running stale timer (R17). -/
theorem idle_staleTimer (k : Nat) : ∀ (s : State) (p : PointIx) (n : Nat), s.pending = [] →
    (s.points[p]).staleTimer = .running n → k ≤ n →
    ∃ t : State, Sys2Proof.core.run k s = .next t ∧ (t.points[p]).staleTimer = .running (n - k) := by
  induction k with
  | zero => exact fun s p n _ ht _ => ⟨s, rfl, ht⟩
  | succ k ih =>
    intro s p n hs ht hk
    have htick : ((clockTick s).points[p]).staleTimer = .running (n - 1) := by
      rw [clockTick_point, PointRt.tick, ht, Timer.tick]
    obtain ⟨t, hr, hp⟩ := ih (clockTick s) p (n - 1) hs htick (by omega)
    exact ⟨t, (run_succ_next (M := Sys2Proof.core) (step_idle hs)).trans hr, hp.trans (by congr 1; omega)⟩

/-- Settles O2: the clock's record updates, one block at a time, and an induction on the idle steps for the stale timer. -/
theorem idleStepIsOneMillisecond : Obligations.IdleStepIsOneMillisecond := by
  refine ⟨fun s p n k => idle_staleTimer k s p n, fun s hs => ?_⟩
  intro tick
  have htick : tick = Timer.tick := by funext x; cases x <;> rfl
  clear_value tick
  subst htick
  refine ⟨clockTick s, step_idle hs, ?_, clockTick_point s, clockTick_act s, fun z => ?_, ?_, rfl, rfl, rfl, rfl, rfl, rfl, rfl, hs⟩
  · by_cases h : s.millis = 999 <;> simp [clockTick, h]
  · have hcue : (fun c : CueRun => match c.status with
        | .pending n => { c with status := .pending (n - 1) }
        | .withheld | .started => c) = CueRun.tick := by
      funext c; unfold CueRun.tick; cases c.status <;> rfl
    rw [clockTick_zone]
    intro r
    have hpurge : (if r.held then r.purge else r.purge.tick) =
        if r.held = false ∧ r.purge.state = .wait then { r.purge with remainingWait := r.purge.remainingWait - 1 }
        else if r.held = false ∧ r.purge.state = .run ∧ r.purge.remainingRun ≠ 0 then
          { r.purge with remainingRun := r.purge.remainingRun - 1, runCounted := r.purge.runCounted + 1 }
        else r.purge := by
      rw [purgeTick_eq]
      cases r.held <;> simp
    show ZoneRt.tick r = _
    unfold ZoneRt.tick SceneRt.tick
    rw [hpurge, ← hcue]
    rfl
  · have hout : (fun o : Outstanding => match o.phase with
        | .awaitingAck x => { o with phase := .awaitingAck x.tick }
        | .sending => o) = Outstanding.tick := by
      funext o; unfold Outstanding.tick; cases o.phase <;> rfl
    rw [show (clockTick s).disp = { s.disp with outstanding := s.disp.outstanding.map Outstanding.tick } from rfl,
      ← hout] <;> rfl

/-! ### A changed point tells the cover sequencer (R15) -/

theorem contactReport_eq (before after : Option Bool) : contactReport before after = toldOf before after := by
  cases before <;> cases after <;> rfl

theorem contact_iff (k : PointKind) : k.isContact = true ↔ k = .coverClosed ∨ k = .coverOpen := isContact_iff k

/-- A change of a point's record, and what the cover sequencer is told of it (R13, R15). -/
theorem changePoint_eq (s : State) (p : PointIx) (c : PointCfg) (f : PointRt → PointRt) :
    s.changePoint p c f =
      State.told (s.updPoint p f) p c (toldOf (s.points[p]).contactKnown (f s.points[p]).contactKnown) := by
  unfold State.changePoint State.told
  simp only [State.updPoint_same, known_eq, contactReport_eq, contact_iff] <;> rfl

theorem told_work (s : State) (p : PointIx) (c : PointCfg) (report : Option ContactReport) :
    ZoneWork (fun z => c.zone = .zone z) s (s.told p c report) := by
  unfold State.told
  split
  · split
    · exact zoneWork_coverContact s p c _ fun _ h => h
    · exact .refl _ s
  · exact .refl _ s

/-- A point that is no contact has nothing to tell. -/
theorem told_noContact (s : State) (p : PointIx) {c : PointCfg} (h : ¬ (c.kind = .coverClosed ∨ c.kind = .coverOpen))
    (report : Option ContactReport) : s.told p c report = s := by
  cases report with
  | none => rfl
  | some r => exact if_neg h

/-- Nothing is known of a contact that is not FRESH or has no accepted value. -/
theorem contactKnown_none {r : PointRt} (h : r.state ≠ .fresh ∨ r.contact = none) : r.contactKnown = none := by
  rw [← known_eq]; exact (known_none_iff r).2 h

/-- A contact of which nothing was known becomes unknown without a report, and so does a point of another kind. -/
theorem told_unknown (s : State) (p : PointIx) {c : PointCfg} {r : PointRt}
    (h : (c.kind ≠ .coverClosed ∧ c.kind ≠ .coverOpen) ∨ r.state ≠ .fresh ∨ r.contact = none) :
    s.told p c (toldOf r.contactKnown none) = s := by
  rcases h with ⟨hc, ho⟩ | hr
  · exact told_noContact s p (by simp [hc, ho]) _
  · rw [contactKnown_none hr]; rfl

/-! ### Arrivals (R9 to R14) -/

/-- The matched entry is the first in use that has the item's key (R9). -/
theorem matchPoint_eq_some {s : State} {line : Line} {node channel : Nat} {p : PointIx}
    (hp : (s.cfg.points[p]).inUse = true ∧ (s.cfg.points[p]).line = some line ∧ (s.cfg.points[p]).node = node ∧
      (s.cfg.points[p]).channel = channel)
    (hfirst : ∀ q, q < p → ¬ ((s.cfg.points[q]).inUse = true ∧ (s.cfg.points[q]).line = some line ∧
      (s.cfg.points[q]).node = node ∧ (s.cfg.points[q]).channel = channel)) :
    s.matchPoint line node channel = some p := by
  rw [State.matchPoint, indices, ← Fin.find?_eq_find?_finRange, Fin.find?_eq_some_iff]
  exact ⟨by simpa [and_assoc] using hp, fun q hq => by simpa [and_assoc, ← Bool.not_eq_true] using hfirst q hq⟩

theorem matchPoint_eq_none {s : State} {line : Line} {node channel : Nat}
    (h : ∀ q : PointIx, ¬ ((s.cfg.points[q]).inUse = true ∧ (s.cfg.points[q]).line = some line ∧
      (s.cfg.points[q]).node = node ∧ (s.cfg.points[q]).channel = channel)) : s.matchPoint line node channel = none := by
  rw [State.matchPoint, List.find?_eq_none]
  exact fun q _ => by simpa [and_assoc] using h q

/-- An accepted value, as a contact's filter and a plain point keep it (R12, R14). -/
theorem accept_eq (r : PointRt) (c : PointCfg) (now : Stamp) (v : Int) : r.accept c now v =
    let fresh : PointRt := { r with
      value := some v, state := .fresh, lastArrival := some now, staleTimer := .running (c.staleTimeout * 1000) }
    if c.kind = .coverClosed ∨ c.kind = .coverOpen then fresh.filter (c.persistence.getD 1) (decide (v = 1)) else fresh := by
  have h : (v == 1) = decide (v = 1) := rfl
  simp only [PointRt.accept, contact_iff, h]
  rfl

/-- An item of quality GOOD within the plausible limits is accepted, and no other (R11, R12). -/
theorem admits_iff (c : PointCfg) (item : ReadingItem) :
    c.admits item = true ↔ item.quality = 0 ∧ c.min ≤ item.value ∧ item.value ≤ c.max := by
  simp [PointCfg.admits, and_assoc]

theorem takeItem_unmatched {s : State} {line : Line} {node : Nat} {item : ReadingItem}
    (h : s.matchPoint line node item.channel.toNat = none) : State.takeItem line node s item = s := by
  simp [State.takeItem, h]

theorem takeItem_matched {s : State} {line : Line} {node : Nat} {item : ReadingItem} {p : PointIx}
    (h : s.matchPoint line node item.channel.toNat = some p) : State.takeItem line node s item = s.arrive p item := by
  simp [State.takeItem, h]

/-- With no watch armed an event is compared with nothing (R185). -/
theorem offerWatches_unarmed {s : State} (h : ∀ w : WatchIx, (s.cfg.watches[w]).armed = false) (e : WatchEvent) :
    s.offerWatches e = s := by
  have hstep (w : WatchIx) : s.offerWatch e w = s := by
    have hw : (s.cfg.watches[w]).matchesEvent e = false := by simp only [Watch.matchesEvent, h w, Bool.false_and]
    simp only [State.offerWatch, hw]
    rfl
  have hfold (l : List WatchIx) : l.foldl (State.offerWatch e) s = s := by
    induction l with
    | nil => rfl
    | cons w l ih => rw [List.foldl_cons, hstep w, ih]
  exact hfold _

/-- Settles O33: the matched entry takes the item, and what follows is the report of R15 and, after an accepted one, the watches. -/
theorem itemsAreAcceptedOrFaulty : Obligations.ItemsAreAcceptedOrFaulty := by
  intro s line node item keyed
  refine ⟨fun h => takeItem_unmatched (matchPoint_eq_none h), fun p hp hfirst => ?_⟩
  intro c r contact fresh faulty
  have hmatch := takeItem_matched (line := line) (item := item) (matchPoint_eq_some hp hfirst)
  rw [hmatch]
  refine ⟨fun hq hmin hmax => ?_, fun hbad => ?_⟩
  · intro r'
    have hr' : r.accept c s.now item.value = r' := accept_eq r c s.now item.value
    have ha : s.arrive p item = (State.told (s.updPoint p fun _ => r') p c
        (toldOf r.contactKnown r'.contactKnown)).offerWatches { on := .arrival, target := .point p, value := item.value } := by
      rw [← hr', State.arrive, if_pos ((admits_iff c item).2 ⟨hq, hmin, hmax⟩), changePoint_eq]
      rfl
    refine ⟨?_, ha, fun hc hw => ?_⟩
    · rw [ha]
      exact (told_work _ p c _).any.trans (zoneWork_offerWatches _ _ fun _ => trivial)
    · have hplain : r' = fresh := if_neg hc
      rw [ha, told_noContact _ p hc, hplain, offerWatches_unarmed (by exact hw)]
  · have ha : s.arrive p item = State.told (s.updPoint p fun _ => faulty) p c (toldOf r.contactKnown none) := by
      have hn : ¬ c.admits item = true := fun h => by
        obtain ⟨hq, hmin, hmax⟩ := (admits_iff c item).1 h
        rcases hbad with hb | hb | hb
        · exact hb hq
        · omega
        · omega
      rw [State.arrive, if_neg hn, changePoint_eq]
      rfl
    refine ⟨?_, ha, fun hc => by rw [ha, told_noContact _ p hc]⟩
    rw [ha]
    exact told_work _ p c _

/-- The filter's run stays below the persistence count: a run that reaches it is taken over and starts anew (R14). -/
theorem filter_run_lt (r : PointRt) {persistence : Nat} (v : Bool) (h : 0 < persistence) :
    (r.filter persistence v).run < persistence := by
  unfold PointRt.filter
  split
  · exact h
  · split
    · exact h
    · dsimp only
      generalize (if r.candidate = some v then r.run + 1 else 1) = run
      split
      · exact h
      · exact Nat.lt_of_not_le ‹_›

/-- Settles O34: the filter by the contact state, and by the candidate where the value differs. -/
theorem contactFilterCountsARun : Obligations.ContactFilterCountsARun := by
  refine ⟨fun r c now v hc _ => (accept_eq r c now v).trans (if_pos hc), fun r persistence v => ⟨?_, ?_, ?_, ?_, ?_⟩,
    fun r => ⟨⟨rfl, rfl, rfl⟩, rfl, rfl, rfl⟩⟩
  · intro h
    simp [PointRt.filter, h]
  · intro h
    simp [PointRt.filter, h]
  · intro h hv
    simp [PointRt.filter, h, hv]
  · intro h hv
    simp [PointRt.filter, h, hv]
  · intro h1 h15 hrun
    have hbound := filter_run_lt r v h1
    exact ⟨hbound, by omega⟩

/-! ### Readings and staleness (R8, R18) -/

theorem readingLength_iff (payload : List Byte) : readingLength payload = true ↔ payload.length ∈ [4, 8, 12, 16] := by
  simp [readingLength, or_assoc]

/-- The inspection of a READING goes through its items, which are none where the payload has another length (R8, R9). -/
theorem inspectReading_eq (s : State) (line : Line) (t : Telegram) : s.inspectReading line t =
    (if t.payload.length ∈ [4, 8, 12, 16] then readingItems t.payload else []).foldl
      (State.takeItem line t.src.toNat) s := by
  simp only [State.inspectReading, readingLength_iff]
  split <;> rfl

/-- A READING is inspected, and then offered to the filter where it is in transit (R153). -/
theorem hand_reading (s : State) (line : Line) (t : Telegram) (hk : t.kind = 1) : s.hand line t =
    if t.dest = s.own then s.inspectReading line t
    else match line with
      | .hall => (s.inspectReading line t).offerFilter .ht t
      | .trunk => (s.inspectReading line t).offerFilter .th t := by
  have hr : t.kind = kindReading := hk
  have hc : ¬ t.kind = kindCommand := by rw [hk]; decide
  unfold State.hand State.handOwn State.handTransit
  simp only [if_pos hr, if_neg hc] <;> cases line <;> rfl

theorem receive_valid {s : State} {line : Line} {heard : List RxByte} {t : Telegram} (hne : heard ≠ [])
    (hj : judgeUnit true heard = some t) : s.receive line heard = (s.setLineActive line).hand line t := by
  simp [State.receive, hne, hj]

theorem setLineActive_own (s : State) (line : Line) : (s.setLineActive line).own = s.own := by cases line <;> rfl

/-- Settles O32: reception hands the READING on, and the inspection is the fold over its items. -/
theorem readingsAreTakenItemByItem : Obligations.ReadingsAreTakenItemByItem := by
  refine ⟨fun s line heard t hne hj hk => ?_, fun _ _ _ _ _ => rfl, rfl⟩
  intro items u
  show Host.Outcome.next (s.receive line heard) = _
  rw [receive_valid hne hj, hand_reading _ line t hk, inspectReading_eq, setLineActive_own] <;> cases line <;> rfl

theorem due_iff (t : Timer) : t.due = true ↔ t = .running 0 := by
  rcases t with _ | (_ | n) | n <;> simp [Timer.due]

theorem pointZone_byte (z : PointZone) : z.byte = match z with
    | .zone z => BitVec.ofNat 8 z
    | .all => 255
    | .unlisted n => BitVec.ofNat 8 (4 + n.val) := by cases z <;> rfl

/-- The expiry of a stale timer: the report of R15, then the notice of R18 with the value that is kept. -/
theorem pointStale_eq (s : State) (p : PointIx) : s.pointStale p =
    let u := State.told (s.updPoint p PointRt.expire) p s.cfg.points[p] (toldOf (s.points[p]).contactKnown none)
    if (s.cfg.points[p]).notifyStale then u.raise .pointStale (s.cfg.points[p]).zone.byte
      (BitVec.ofNat 8 p :: match (s.points[p]).value with | some v => numField v | none => [])
    else u := by
  have hc : s.changePoint p s.cfg.points[p] PointRt.expire =
      State.told (s.updPoint p PointRt.expire) p s.cfg.points[p] (toldOf (s.points[p]).contactKnown none) := changePoint_eq ..
  have hv : ((State.told (s.updPoint p PointRt.expire) p s.cfg.points[p]
      (toldOf (s.points[p]).contactKnown none)).points[p]).value = (s.points[p]).value := by
    rw [(told_work _ p _ _).points, State.updPoint_same]; rfl
  simp only [State.pointStale, hc, hv]
  rfl

/-- Settles O35: the expiry's two steps, the first of which is nothing where the point was no known contact. -/
theorem stalePointsAreReported : Obligations.StalePointsAreReported := by
  intro s p hdue c base zone detail reported
  have hexec : exec (.staleExpiry p) s =
      .next (reported (State.told base p c (toldOf (s.points[p]).contactKnown none))) := by
    show Host.Outcome.next (if (s.points[p]).staleTimer.due then s.pointStale p else s) = _
    rw [if_pos ((due_iff _).2 hdue), pointStale_eq, pointZone_byte]
    rfl
  refine ⟨⟨_, hexec, told_work base p c _⟩, hexec, fun h => ?_⟩
  rw [hexec, told_unknown base p h]

end Sys2Proof.Machine
end

section
/-! SUPPORT. The end of a WRITE_ENTRY on each table: the verdict of the table's own rule on the bytes of an entry, and the obligations
about writes of points and refused writes. -/

namespace Sys2Proof.Machine

variable {s : State} {c : Channel} {t : Telegram}

/-! ### From the gathered bytes to the table's rule (R167) -/

/-- A segment that ends a write is answered by the verdict of its table. -/
theorem exec_write {table : Byte} {index : Nat} {bytes : List Byte} {tid : TableId} {v : Verdict}
    (h : EndsWrite s c t table index bytes) (htid : ofCode tableOrder table.toNat = some tid)
    (hv : (s.written c).writeEntry c tid index bytes = v) : exec tid.writeRow s = .next (v.1.replied c t 3 v.2 []) := by
  rw [← hv, ← serve_write h htid rfl]
  cases tid <;> rfl

/-- Bytes that read back as an entry are judged as that entry. -/
theorem decodeThen_reads {α : Type} {r : Reader α} {bytes : List Byte} {x : α} (h : Reads r bytes x) (s : State)
    (write : α → Verdict) : s.decodeThen r bytes write = write x := by
  simp only [State.decodeThen, h.all]

/-- Too many bytes, too few bytes, and an index outside the table: the three refusals of every write (R166, R167). -/
structure Misfits (s : State) (c : Channel) (tid : TableId) (index : Nat) (bytes : List Byte) : Prop where
  tooMany : ∀ extra, extra ≠ [] → s.writeEntry c tid index (bytes ++ extra) = s.refuseWith .badValue
  tooFew : ∀ k, k < bytes.length → s.writeEntry c tid index (bytes.take k) = s.refuseWith .badValue
  outside : OutsideTable tid index → s.writeEntry c tid index bytes = s.refuseWith .badIndex

theorem misfits_of {α : Type} {tid : TableId} {index : Nat} {bytes : List Byte} {r : Reader α} {x : α} (write : α → Verdict)
    (he : ∀ l, s.writeEntry c tid index l = s.decodeThen r l write) (hr : Reads r bytes x) (hg : Grows r)
    (hw : OutsideTable tid index → write x = s.refuseWith .badIndex) : Misfits s c tid index bytes where
  tooMany extra hx := by rw [he, State.decodeThen, hr.tooMany hx]
  tooFew k hk := by rw [he, State.decodeThen, hr.tooFew hg hk]
  outside ho := by rw [he, decodeThen_reads hr]; exact hw ho

theorem asIndex_none {n i : Nat} (h : n ≤ i) : asIndex n i = none := by simp [asIndex, h]

/-- The codes of a group's list, whatever they name, read back (R105). -/
theorem reads_groupCodes (codes : List Byte) (h : codes.length < 256) :
    Reads readGroup (BitVec.ofNat 8 codes.length :: codes) (codes.map BitVec.toNat) := by
  have hr := reads_list (r := readCode) (f := fun b : Byte => [b]) BitVec.toNat codes h fun b _ => reads_code b
  simpa [listField, byteField, readGroup] using hr

theorem nat16_toList {sat : Vector Nat 17} (h : ∀ i : Nat, (hi : i < 17) → sat[i] < 65536) : ∀ v ∈ sat.toList, Nat16 v := by
  intro v hv
  obtain ⟨i, hi, rfl⟩ := Vector.mem_iff_getElem.1 (Vector.mem_toList_iff.1 hv)
  exact h i hi

/-- Every table refuses bytes that do not fit before an index that is outside, and both before its own checks (R166, R167). -/
theorem carriesEntry_misfits {tid : TableId} {bytes : List Byte} (h : CarriesEntry tid bytes) (s : State) (c : Channel)
    (index : Nat) : Misfits s c tid index bytes := by
  cases tid with
  | point =>
    obtain ⟨e, hf, rfl⟩ := h
    exact misfits_of _ (fun _ => rfl) (reads_point e hf) grows_point fun ho => by rw [State.writePoint, asIndex_none ho]
  | actuator =>
    obtain ⟨e, hf, rfl⟩ := h
    exact misfits_of _ (fun _ => rfl) (reads_actuator e hf) grows_actuator fun ho => by
      rw [State.writeActuator, asIndex_none ho]
  | group =>
    obtain ⟨codes, hl, rfl⟩ := h
    exact misfits_of _ (fun _ => rfl) (reads_groupCodes codes hl) grows_group fun ho => by
      rw [State.writeGroup, asIndex_none ho]
  | sceneHeader =>
    obtain ⟨x, hx, rfl⟩ := h
    exact misfits_of _ (fun _ => rfl) (reads_header x hx) grows_header fun ho => by rw [State.writeHeader, asIndex_none ho]
  | cue =>
    obtain ⟨x, hf, rfl⟩ := h
    refine misfits_of _ (fun _ => rfl) (reads_cue x hf) grows_cue fun ho => ?_
    unfold State.writeCue
    rcases ho with ho | ho
    · rw [asIndex_none ho]
    · rw [asIndex_none ho]; cases asIndex 32 (index / 256) <;> rfl
  | zone =>
    obtain ⟨e, hf, rfl⟩ := h
    exact misfits_of _ (fun _ => rfl) (reads_zone e hf) grows_zone fun ho => by rw [State.writeZone, asIndex_none ho]
  | saturation =>
    obtain ⟨sat, hs, rfl⟩ := h
    exact misfits_of _ (fun _ => rfl) (reads_saturation sat (nat16_toList hs)) grows_saturation fun ho => if_neg ho
  | filter =>
    obtain ⟨f, hlo, hhi, rfl⟩ := h
    exact misfits_of _ (fun _ => rfl) (reads_filter f hlo hhi) grows_filter fun ho => by rw [State.writeFilter, asIndex_none ho]
  | part =>
    obtain ⟨p, hf, rfl⟩ := h
    exact misfits_of _ (fun _ => rfl) (reads_part p hf) grows_part fun ho => if_neg ho

/-! ### POINT (R3 to R6) -/

/-- The verdict on a point entry. -/
theorem writePoint_eq (s : State) (c : Channel) (p : PointIx) (e : PointCfg) : s.writePoint c p.val e.raw =
    if protectRefuses c (s.cfg.points[p]).protectField e.protectField.toNat then s.refuseProtected
    else if s.pointValid p e then (s.storePoint p e, .done) else s.refuseWith .badValue := by
  simp only [State.writePoint, asIndex_val, entry_point]
  rfl

/-- A write of a point entry is answered by that verdict. -/
theorem exec_writePoint {p : PointIx} {e : PointCfg} {v : Verdict} (hw : EndsWrite s c t 0 p.val e.bytes) (hf : e.Fits)
    (hv : (s.written c).writePoint c p.val e.raw = v) : exec .writeEntryPoint s = .next (v.1.replied c t 3 v.2 []) :=
  exec_write hw (tid := .point) rfl ((decodeThen_reads (reads_point e hf) _ _).trans hv)

/-- A stored entry with its reset runtime, and the report of R15 for the entry that it replaces (R6). -/
theorem storePoint_eq (s : State) (p : PointIx) (e : PointCfg) : s.storePoint p e =
    State.told ((s.updCfg fun k => { k with points := k.points.set p e }).updPoint p fun _ => .reset) p s.cfg.points[p]
      (toldOf (s.points[p]).contactKnown none) := changePoint_eq ..

/-- The checks read nothing that taking the request changes. -/
theorem pointValid_written (s : State) (c : Channel) (p : PointIx) (e : PointCfg) :
    (s.written c).pointValid p e = s.pointValid p e := by cases c <;> rfl

/-- Settles O13: the end of the write is the table's own rule on the written state. -/
theorem writePointReplacesTheEntry : Obligations.WritePointReplacesTheEntry := by
  intro s c t p e hw hfits hun hok stored
  have hverdict : (s.written c).writePoint c p.val e.raw = ((s.written c).storePoint p e, .done) := by
    rw [writePoint_eq, written_cfg, protectRefuses_of hun, pointValid_written, (pointValid_iff s p e).2 hok]
    rfl
  have hstore : (s.written c).storePoint p e =
      State.told stored p s.cfg.points[p] (toldOf (s.points[p]).contactKnown none) := by
    rw [storePoint_eq, written_cfg, written_points]
    rfl
  refine ⟨(s.written c).storePoint p e, exec_writePoint hw hfits hverdict, ?_, hstore, fun h => ?_⟩
  · rw [hstore]; exact told_work stored p _ _
  · rw [hstore]; exact told_unknown stored p h

/-! ### Entries whose in-use byte is neither yes nor no (log 13) -/

theorem yesNoCode_none {n : Nat} (h : 2 ≤ n) : yesNoCode n = none := by
  simp only [yesNoCode, ofCode, yesNoOrder, List.getElem?_eq_none_iff, List.length_cons, List.length_nil]
  omega

/-- A point entry with any byte in the place of in use. -/
theorem reads_pointCode (e : PointCfg) (h : e.Fits) (b : Byte) :
    Reads readPoint (e.bytes.set 0 b) { e.raw with inUse := b.toNat } := by
  have hp := reads_opt (r := readNat) (f := natField) id e.persistence fun x hx => reads_nat x (h.persistence x hx)
  have hd := reads_opt (r := readCode) (f := byteField) id e.drive fun x hx => reads_byteField x (h.drive x hx)
  rw [Option.map_id] at hp hd
  simp only [PointCfg.bytes, List.append_assoc]
  exact (reads_code b).bind <| (reads_code _).bind <| (reads_nat _ h.node).bind <| (reads_nat _ h.channel).bind <|
    (reads_code _).bind <| (reads_code _).bind <| (reads_int _ h.min).bind <| (reads_int _ h.max).bind <|
    (reads_nat _ h.staleTimeout).bind <| hp.bind <| hd.bind <| (reads_code _).bind <| (reads_code _).last _

/-- An actuator entry with any byte in the place of in use. -/
theorem reads_actuatorCode (e : ActCfg) (h : e.Fits) (b : Byte) :
    Reads readActuator (e.bytes.set 0 b) { e.raw with inUse := b.toNat } := by
  simp only [ActCfg.bytes, List.append_assoc]
  exact (reads_code b).bind <| (reads_nat _ h.node).bind <| (reads_nat _ h.channel).bind <| (reads_code _).bind <|
    (reads_code _).bind <| (reads_int _ h.min).bind <| (reads_int _ h.max).bind <| (reads_nat _ h.deadband).bind <|
    (reads_nat _ h.refresh).bind <| (reads_nat _ h.overrideHold).bind <| (reads_code _).last _

/-- A filter entry with any byte in the place of in use. -/
theorem reads_filterCode (f : FilterEntry) (hlo : Nat16 f.lo) (hhi : Nat16 f.hi) (b : Byte) :
    Reads readFilter (f.bytes.set 0 b) { f.raw with inUse := b.toNat } := by
  simp only [FilterEntry.bytes, List.append_assoc]
  exact (reads_code b).bind <| (reads_nat _ hlo).bind <| (reads_nat _ hhi).bind <| (reads_code _).bind <|
    (reads_code _).last _

theorem writePoint_badCode (s : State) (c : Channel) (p : PointIx) (e : PointCfg) {n : Nat} (hn : 2 ≤ n)
    (hu : Unprotected c (s.cfg.points[p]).protectField e.protectField) :
    s.writePoint c p.val { e.raw with inUse := n } = s.refuseWith .badValue := by
  have he : ({ e.raw with inUse := n } : RawPoint).entry = none := by rw [RawPoint.entry, yesNoCode_none hn]; rfl
  have hp : protectRefuses c (s.cfg.points[p]).protectField ({ e.raw with inUse := n } : RawPoint).protect = false :=
    protectRefuses_of hu
  simp only [State.writePoint, asIndex_val, hp, he]
  rfl

/-! ### ACTUATOR (R127) -/

/-- The verdict on an actuator entry. -/
theorem writeActuator_eq (s : State) (c : Channel) (a : ActIx) (e : ActCfg) : s.writeActuator c a.val e.raw =
    if protectRefuses c (s.cfg.acts[a]).protectField e.protectField.toNat then s.refuseProtected
    else if (s.cfg.acts[a]).inUse && (s.acts[a]).control != .disabled then s.refuseWith .inUse
    else if s.actValid a e then (s.storeActuator a e, .done) else s.refuseWith .badValue := by
  simp only [State.writeActuator, asIndex_val, entry_actuator]
  rfl

theorem writeActuator_badCode (s : State) (c : Channel) (a : ActIx) (e : ActCfg) {n : Nat} (hn : 2 ≤ n)
    (hu : Unprotected c (s.cfg.acts[a]).protectField e.protectField)
    (hl : ((s.cfg.acts[a]).inUse && (s.acts[a]).control != .disabled) = false) :
    s.writeActuator c a.val { e.raw with inUse := n } = s.refuseWith .badValue := by
  have he : ({ e.raw with inUse := n } : RawActuator).entry = none := by rw [RawActuator.entry, yesNoCode_none hn]; rfl
  have hp : protectRefuses c (s.cfg.acts[a]).protectField ({ e.raw with inUse := n } : RawActuator).protect = false :=
    protectRefuses_of hu
  simp only [State.writeActuator, asIndex_val, hp, hl, he]
  rfl

theorem actValid_written (s : State) (c : Channel) (a : ActIx) (e : ActCfg) :
    (s.written c).actValid a e = s.actValid a e := by cases c <;> rfl

/-- A write of an actuator entry is answered by that verdict. -/
theorem exec_writeActuator {a : ActIx} {e : ActCfg} {v : Verdict} (hw : EndsWrite s c t 1 a.val e.bytes) (hf : e.Fits)
    (hv : (s.written c).writeActuator c a.val e.raw = v) : exec .writeEntryActuator s = .next (v.1.replied c t 3 v.2 []) :=
  exec_write hw (tid := .actuator) rfl
    ((decodeThen_reads (reads_actuator e hf) (s.written c) ((s.written c).writeActuator c a.val)).trans hv)

/-- An actuator that is in use and not DISABLED takes no write (R127). -/
theorem locked_iff (s : State) (a : ActIx) : ((s.cfg.acts[a]).inUse && (s.acts[a]).control != .disabled) = true ↔
    (s.cfg.acts[a]).inUse = true ∧ (s.acts[a]).control ≠ .disabled := by simp

/-! ### Scenes at work (R109) -/

theorem isRunning_iff (e : SceneRt) : e.isRunning = true ↔ e.state = .running ∨ e.state = .settling := by
  simp [SceneRt.isRunning]

theorem sceneRunning_iff (s : State) (n : SceneIx) : s.sceneRunning n = true ↔ ∃ z : ZoneIx,
    ((s.zones[z]).scene.state = .running ∨ (s.zones[z]).scene.state = .settling) ∧ (s.zones[z]).scene.scene = some n := by
  simp [State.sceneRunning, mem_indices, isRunning_iff]

/-- The cue at a place of the cue list of a zone's scene (R107). -/
theorem cueOf_of_scene {s : State} {z : ZoneIx} {m : SceneIx} (h : (s.zones[z]).scene.scene = some m) (i : CueIx) :
    s.cueOf z i.val = some ((s.cfg.cues[m])[i]) := by
  unfold State.cueOf
  rw [h]
  exact Vector.getElem?_eq_getElem i.isLt

theorem cueOf_some {s : State} {z : ZoneIx} {i : Nat} {x : Cue} (h : s.cueOf z i = some x) :
    ∃ m, (s.zones[z]).scene.scene = some m := by
  unfold State.cueOf at h
  split at h
  · exact ⟨_, ‹_›⟩
  · cases h

/-- An applied cue of a zone's scene names the group (R109). -/
theorem groupPlace_iff (s : State) (z : ZoneIx) (g : GroupIx) (i : Nat) :
    (match (s.zones[z]).scene.cues[i]?, s.cueOf z i with
      | some run, some c => run.status != .withheld && c.target == some (.group g)
      | _, _ => false) = true ↔
    ∃ run x, (s.zones[z]).scene.cues[i]? = some run ∧ s.cueOf z i = some x ∧ run.status ≠ .withheld ∧
      x.target = some (.group g) := by
  cases (s.zones[z]).scene.cues[i]? <;> cases s.cueOf z i <;> simp

theorem groupRunning_iff (s : State) (g : GroupIx) : s.groupRunning g = true ↔
    ∃ (z : ZoneIx) (m : SceneIx) (i : CueIx) (run : CueRun),
      (((s.zones[z]).scene.state = .running ∨ (s.zones[z]).scene.state = .settling) ∧ (s.zones[z]).scene.scene = some m) ∧
      (s.zones[z]).scene.cues[i.val]? = some run ∧ run.status ≠ .withheld ∧ ((s.cfg.cues[m])[i]).target = some (.group g) := by
  unfold State.groupRunning
  simp only [List.any_eq_true, mem_indices, true_and, Bool.and_eq_true, isRunning_iff, List.mem_range]
  constructor
  · rintro ⟨z, hz, i, hi, hplace⟩
    obtain ⟨run, x, hrun, hx, hw, ht⟩ := (groupPlace_iff s z g i).1 hplace
    obtain ⟨m, hm⟩ := cueOf_some hx
    have hcue := cueOf_of_scene hm (⟨i, hi⟩ : CueIx)
    rw [hx] at hcue
    exact ⟨z, m, ⟨i, hi⟩, run, ⟨hz, hm⟩, hrun, hw, by rw [← Option.some.inj hcue]; exact ht⟩
  · rintro ⟨z, m, i, run, ⟨hz, hm⟩, hrun, hw, ht⟩
    exact ⟨z, hz, i.val, i.isLt, (groupPlace_iff s z g i.val).2 ⟨run, _, hrun, cueOf_of_scene hm i, hw, ht⟩⟩

theorem sceneRunning_written (s : State) (c : Channel) (n : SceneIx) : (s.written c).sceneRunning n = s.sceneRunning n := by
  cases c <;> rfl

theorem groupRunning_written (s : State) (c : Channel) (g : GroupIx) : (s.written c).groupRunning g = s.groupRunning g := by
  cases c <;> rfl

/-! ### GROUP, SCENE_HEADER and CUE (R105, R106, R108) -/

/-- The verdict on a group's list. -/
theorem writeGroup_eq (s : State) (g : GroupIx) (codes : List Nat) : s.writeGroup g.val codes =
    if s.groupRunning g then s.refuseWith .inUse
    else match s.groupList codes with
      | some list => (s.updCfg fun k => { k with groups := k.groups.set g list }, .done)
      | none => s.refuseWith .badValue := by
  simp only [State.writeGroup, asIndex_val] <;> rfl

theorem asIndex_eq_some {n i : Nat} {a : Fin n} (h : asIndex n i = some a) : ∃ hi : i < n, a = ⟨i, hi⟩ := by
  unfold asIndex at h
  split at h
  · exact ⟨‹_›, (Option.some.inj h).symm⟩
  · cases h

theorem noDimmer_of {e : ActCfg} (h : e.inUse = false ∨ e.kind ≠ .dimmer) : (e.inUse && e.kind == .dimmer) = false := by
  rcases h with h | h <;> simp [h]

theorem mapM_none {α β : Type} {f : α → Option β} {l : List α} {x : α} (hx : x ∈ l) (hf : f x = none) : l.mapM f = none := by
  induction l with
  | nil => cases hx
  | cons y l ih =>
    rw [List.mapM_cons]
    rcases List.mem_cons.1 hx with rfl | hx
    · rw [hf]; rfl
    · rw [ih hx]; cases f y <;> rfl

/-- A list that is too long, names an actuator twice, or names one that is no dimmer in use, is no group's list (R105). -/
theorem groupList_none (s : State) {codes : List Byte} (h : 16 < codes.length ∨ ¬ codes.Nodup ∨ ∃ b ∈ codes,
    ∀ a : ActIx, b = BitVec.ofNat 8 a → (s.cfg.acts[a]).inUse = false ∨ (s.cfg.acts[a]).kind ≠ .dimmer) :
    s.groupList (codes.map BitVec.toNat) = none := by
  unfold State.groupList
  rcases h with h | h | ⟨b, hb, h⟩
  · rw [if_neg]; simp; omega
  · rw [if_neg]
    rintro ⟨_, hn⟩
    exact h (List.Nodup.of_map _ hn)
  · split
    · refine mapM_none (List.mem_map_of_mem hb) ?_
      rw [Option.filter_eq_none_iff]
      intro a ha
      have hab : b = BitVec.ofNat 8 a := by
        obtain ⟨_, rfl⟩ := asIndex_eq_some ha
        simp
      exact ne_true_of_eq_false (noDimmer_of (h a hab))
    · rfl

/-- The verdict on a scene header. -/
theorem writeHeader_eq (s : State) (c : Channel) (n : SceneIx) (x : SceneHeader) :
    s.writeHeader c n.val { cueCount := x.cueCount, protect := x.protect.toNat } =
      if protectRefuses c (markByte (s.cfg.headers[n]).protect) (markByte x.protect).toNat then s.refuseProtected
      else if s.sceneRunning n then s.refuseWith .inUse
      else if x.cueCount ≤ 16 then (s.updCfg fun k => { k with headers := k.headers.set n x }, .done)
      else s.refuseWith .badValue := by
  simp only [State.writeHeader, asIndex_val, markByte_toNat, yesNoCode_toNat]

/-- A write of a scene header is answered by that verdict. -/
theorem exec_writeHeader {n : SceneIx} {x : SceneHeader} {v : Verdict} (hw : EndsWrite s c t 3 n.val x.bytes)
    (hf : x.cueCount < 65536)
    (hv : (s.written c).writeHeader c n.val { cueCount := x.cueCount, protect := x.protect.toNat } = v) :
    exec .writeEntrySceneHeader s = .next (v.1.replied c t 3 v.2 []) :=
  exec_write hw (tid := .sceneHeader) rfl
    ((decodeThen_reads (reads_header x hf) (s.written c) ((s.written c).writeHeader c n.val)).trans hv)

/-- The two halves of a cue's table index (R166). -/
theorem cueIndex (n : SceneIx) (i : CueIx) :
    asIndex 32 ((n.val * 256 + i.val) / 256) = some n ∧ asIndex 16 ((n.val * 256 + i.val) % 256) = some i := by
  have := i.isLt
  rw [show (n.val * 256 + i.val) / 256 = n.val by omega, show (n.val * 256 + i.val) % 256 = i.val by omega]
  exact ⟨asIndex_val n, asIndex_val i⟩

/-- The verdict on a cue. -/
theorem writeCue_eq (s : State) (c : Channel) (n : SceneIx) (i : CueIx) (r : RawCue) :
    s.writeCue c (n.val * 256 + i.val) r =
      if c = .trunk ∧ (s.cfg.headers[n]).protect then s.refuseProtected
      else if s.sceneRunning n then s.refuseWith .inUse
      else match s.cueEntry r with
        | some cue => (s.updCfg fun k => { k with cues := k.cues.set n ((k.cues[n]).set i cue) }, .done)
        | none => s.refuseWith .badValue := by
  obtain ⟨hn, hi⟩ := cueIndex n i
  simp only [State.writeCue, hn, hi] <;> rfl

/-- A write of a cue is answered by that verdict. -/
theorem exec_writeCue {n : SceneIx} {i : CueIx} {x : Cue} {v : Verdict}
    (hw : EndsWrite s c t 4 (n.val * 256 + i.val) x.bytes) (hf : x.Fits)
    (hv : (s.written c).writeCue c (n.val * 256 + i.val) x.raw = v) : exec .writeEntryCue s = .next (v.1.replied c t 3 v.2 []) :=
  exec_write hw (tid := .cue) rfl ((decodeThen_reads (reads_cue x hf) _ _).trans hv)

/-- A cue with a field out of its range, or whose target is no dimmer in use, is no cue's entry (R107, R108). -/
theorem cueEntry_none (s : State) {x : Cue} (h : x.level < 0 ∨ 1000 < x.level ∨ 6000 < x.fade ∨ 6000 < x.delay ∨ 15 < x.skip ∨
    ∃ a, x.target = some (.actuator a) ∧ ((s.cfg.acts[a]).inUse = false ∨ (s.cfg.acts[a]).kind ≠ .dimmer)) :
    s.cueEntry x.raw = none := by
  unfold State.cueEntry
  split
  · rename_i target guard ht hg
    refine if_neg fun hr => ?_
    simp only [Bool.and_eq_true, within_iff, Cue.raw] at hr
    rcases h with h | h | h | h | h | ⟨a, ha, h⟩
    · omega
    · omega
    · omega
    · omega
    · omega
    · have hnone : s.cueTarget (CueTarget.actuator a).raw = none := by
        simp only [State.cueTarget, CueTarget.raw, asIndex_val, if_true, Option.filter, noDimmer_of h]
        rfl
      simp only [Cue.raw, ha, Option.map_some, judgeOpt, hnone, Option.map_none] at ht
      cases ht
  · rfl

/-! ### ZONE and SATURATION (R27, R28) -/

theorem judgeOpt_index {n : Nat} (o : Option (Fin n)) : judgeOpt (asIndex n) (o.map Fin.val) = some o := by
  cases o <;> simp [judgeOpt, asIndex_val]

/-- A zone's entry as its bytes carry it: the fields as written with the stored enabled, where every field lies in its range. -/
theorem entry_zone (e : ZoneCfg) (enabled : Bool) : e.raw.entry enabled =
    if e.eval.ok && e.heat.ok && e.arb.ok && e.cover.ok then some { e with eval := { e.eval with enabled := enabled } }
    else none := by
  simp only [RawZone.entry, ZoneCfg.raw, yesNoCode_toNat, List.map_cons, List.map_nil, judgeOpt_index]
  rfl

/-- The verdict on a zone entry. -/
theorem writeZone_eq (s : State) (c : Channel) (z : ZoneIx) (e : ZoneCfg) : s.writeZone c z.val e.raw =
    if protectRefuses c (markByte (s.cfg.zones[z]).eval.protect) (markByte e.eval.protect).toNat then s.refuseProtected
    else if e.eval.ok && e.heat.ok && e.arb.ok && e.cover.ok then
      (s.updCfg fun k => { k with zones := k.zones.set z { e with eval := { e.eval with enabled := s.enabled z } } }, .done)
    else s.refuseWith .badValue := by
  have hm : e.raw.protect = (markByte e.eval.protect).toNat := (markByte_toNat _).symm
  simp only [State.writeZone, asIndex_val, entry_zone, hm]
  split
  · rfl
  · cases e.eval.ok && e.heat.ok && e.arb.ok && e.cover.ok <;> rfl

/-- A write of a zone entry is answered by that verdict. -/
theorem exec_writeZone {z : ZoneIx} {e : ZoneCfg} {v : Verdict} (hw : EndsWrite s c t 5 z.val e.writeBytes) (hf : e.Fits)
    (hv : (s.written c).writeZone c z.val e.raw = v) : exec .writeEntryZone s = .next (v.1.replied c t 3 v.2 []) :=
  exec_write hw (tid := .zone) rfl
    ((decodeThen_reads (reads_zone e hf) (s.written c) ((s.written c).writeZone c z.val)).trans hv)

theorem increasing_iff : ∀ l : List Nat, increasing l = true ↔ l.IsChain (· < ·)
  | [] => by simp [increasing]
  | [_] => by simp [increasing]
  | a :: b :: l => by simp [increasing, increasing_iff (b :: l)]

/-- A table that does not increase, or starts at 0, is refused (R28). -/
theorem writeSaturation_bad (s : State) (sat : Vector Nat 17)
    (h : sat[0] = 0 ∨ ∃ (i : Nat) (h : i < 16), sat[i + 1] ≤ sat[i]) :
    s.writeSaturation 0 sat.toList = s.refuseWith .badValue := by
  have hbad : ¬ (increasing sat.toList && sat.toList.all fun v => within v 1 65535) = true := by
    simp only [Bool.and_eq_true, increasing_iff, List.isChain_iff_getElem, List.all_eq_true, within_iff, not_and]
    intro hinc hall
    rcases h with h | ⟨i, hi, h⟩
    · have := hall sat[0] (by simp)
      omega
    · have := hinc i (by simp; omega)
      simp only [Vector.getElem_toList] at this
      omega
  simp only [State.writeSaturation, if_true, Vector.length_toList, dif_pos, if_neg hbad]

/-! ### FILTER and PART (R154, R168) -/

/-- The verdict on a filter entry. -/
theorem writeFilter_eq (s : State) (i : FilterIx) (f : FilterEntry) : s.writeFilter i.val f.raw =
    if f.valid then (s.updCfg fun k => { k with filter := k.filter.set i f }, .done) else s.refuseWith .badValue := by
  simp only [State.writeFilter, asIndex_val, entry_filter]

theorem writeFilter_badCode (s : State) (i : FilterIx) (f : FilterEntry) {n : Nat} (hn : 2 ≤ n) :
    s.writeFilter i.val { f.raw with inUse := n } = s.refuseWith .badValue := by
  have he : ({ f.raw with inUse := n } : RawFilter).entry = none := by rw [RawFilter.entry, yesNoCode_none hn]; rfl
  simp only [State.writeFilter, asIndex_val, he]

/-- The verdict on the PART record. -/
theorem writePart_eq (s : State) (p : PartRecord) : s.writePart 0 p.raw =
    if p.valid then (s.storePart p, .done) else s.refuseWith .badValue := by
  simp only [State.writePart, record_part, if_true]

/-! ### Refused writes (R3, R105 to R109, R127, R166, R167) -/

theorem protectRefuses_marked {stored written : Byte} (h : ¬ Unprotected c stored written) :
    protectRefuses c stored written.toNat = true :=
  Bool.of_not_eq_false fun hf => h (protectRefuses_iff.1 hf)

theorem unprotected_mark_iff (stored written : Bool) :
    Unprotected .trunk (markByte stored) (markByte written) ↔ stored = false ∧ written = false := by
  cases stored <;> cases written <;> simp [Unprotected, markByte]

theorem tableOfCode (tid : TableId) : ofCode tableOrder (BitVec.ofNat 8 (tableOrder.idxOf tid) : Byte).toNat = some tid := by
  cases tid <;> rfl

theorem exec_writeGroup {g : GroupIx} {codes : List Byte} {v : Verdict}
    (hw : EndsWrite s c t 2 g.val (BitVec.ofNat 8 codes.length :: codes)) (hl : codes.length < 256)
    (hv : (s.written c).writeGroup g.val (codes.map BitVec.toNat) = v) :
    exec .writeEntryGroup s = .next (v.1.replied c t 3 v.2 []) :=
  exec_write hw (tid := .group) rfl ((decodeThen_reads (reads_groupCodes codes hl) _ _).trans hv)

/-- A marked entry, or a mark that differs, refuses a trunk write on each table that has marks (R3). -/
theorem trunkWrites_protected (s : State) (t : Telegram) :
    let refusedState := ((s.written .trunk).setProtectFault).replied .trunk t 3 .protectedEntry []
    (∀ (p : PointIx) (e : PointCfg), EndsWrite s .trunk t 0 p.val e.bytes → e.Fits →
      ¬ Unprotected .trunk (s.cfg.points[p]).protectField e.protectField → exec .writeEntryPoint s = .next refusedState) ∧
    (∀ (a : ActIx) (e : ActCfg), EndsWrite s .trunk t 1 a.val e.bytes → e.Fits →
      ¬ Unprotected .trunk (s.cfg.acts[a]).protectField e.protectField → exec .writeEntryActuator s = .next refusedState) ∧
    (∀ (n : SceneIx) (x : SceneHeader), EndsWrite s .trunk t 3 n.val x.bytes → x.cueCount < 65536 →
      ¬ Unprotected .trunk (markByte (s.cfg.headers[n]).protect) (markByte x.protect) →
      exec .writeEntrySceneHeader s = .next refusedState) ∧
    (∀ (n : SceneIx) (i : CueIx) (x : Cue), EndsWrite s .trunk t 4 (n.val * 256 + i.val) x.bytes → x.Fits →
      (s.cfg.headers[n]).protect = true → exec .writeEntryCue s = .next refusedState) ∧
    ∀ (z : ZoneIx) (e : ZoneCfg), EndsWrite s .trunk t 5 z.val e.writeBytes → e.Fits →
      ¬ Unprotected .trunk (markByte (s.cfg.zones[z]).eval.protect) (markByte e.eval.protect) →
      exec .writeEntryZone s = .next refusedState := by
  intro refusedState
  refine ⟨fun p e hw hf hp => ?_, fun a e hw hf hp => ?_, fun n x hw hf hp => ?_, fun n i x hw hf hp => ?_,
    fun z e hw hf hp => ?_⟩
  · exact exec_writePoint hw hf ((writePoint_eq ..).trans (if_pos (by rw [written_cfg]; exact protectRefuses_marked hp)))
  · exact exec_writeActuator hw hf
      ((writeActuator_eq ..).trans (if_pos (by rw [written_cfg]; exact protectRefuses_marked hp)))
  · exact exec_writeHeader hw hf
      ((writeHeader_eq ..).trans (if_pos (by rw [written_cfg]; exact protectRefuses_marked hp)))
  · exact exec_writeCue hw hf ((writeCue_eq ..).trans (if_pos (by rw [written_cfg]; exact ⟨rfl, hp⟩)))
  · exact exec_writeZone hw hf ((writeZone_eq ..).trans (if_pos (by rw [written_cfg]; exact protectRefuses_marked hp)))

/-- The command is answered with a status, and nothing but the request and the channel's staging record changes. -/
def RefusedWith (s : State) (c : Channel) (t : Telegram) (cmd : Instr) (status : Status) : Prop :=
  exec cmd s = .next ((s.written c).replied c t 3 status [])

theorem pointWrites_refused (p : PointIx) (e : PointCfg) (hf : e.Fits)
    (hu : Unprotected c (s.cfg.points[p]).protectField e.protectField) :
    (EndsWrite s c t 0 p.val e.bytes → e.inUse = true → ¬ PointEntryOk s p e → RefusedWith s c t .writeEntryPoint .badValue) ∧
    (∀ b : Byte, 2 ≤ b.toNat → EndsWrite s c t 0 p.val (e.bytes.set 0 b) →
      RefusedWith s c t .writeEntryPoint .badValue) := by
  refine ⟨fun hw huse hbad => exec_writePoint hw hf (v := (s.written c).refuseWith .badValue) ?_, fun b hb hw => ?_⟩
  · have hv : s.pointValid p e = false := Bool.of_not_eq_true fun h => hbad ((pointValid_iff s p e).1 h huse)
    rw [writePoint_eq, written_cfg, protectRefuses_of hu, pointValid_written, hv]
    rfl
  · exact exec_write hw (tid := .point) rfl ((decodeThen_reads (reads_pointCode e hf b) (s.written c) _).trans
      (writePoint_badCode _ c p e hb (by rw [written_cfg]; exact hu)))

theorem actuatorWrites_refused (a : ActIx) (e : ActCfg) (hf : e.Fits)
    (hu : Unprotected c (s.cfg.acts[a]).protectField e.protectField) :
    let locked := (s.cfg.acts[a]).inUse = true ∧ (s.acts[a]).control ≠ .disabled
    (EndsWrite s c t 1 a.val e.bytes → locked → RefusedWith s c t .writeEntryActuator .inUse) ∧
    (EndsWrite s c t 1 a.val e.bytes → ¬ locked → e.inUse = true → ¬ ActuatorEntryOk s a e →
      RefusedWith s c t .writeEntryActuator .badValue) ∧
    (∀ b : Byte, 2 ≤ b.toNat → EndsWrite s c t 1 a.val (e.bytes.set 0 b) → ¬ locked →
      RefusedWith s c t .writeEntryActuator .badValue) := by
  intro locked
  have hfree (hl : ¬ locked) : ((s.cfg.acts[a]).inUse && (s.acts[a]).control != .disabled) = false :=
    Bool.of_not_eq_true fun h => hl ((locked_iff s a).1 h)
  refine ⟨fun hw hl => exec_writeActuator hw hf (v := (s.written c).refuseWith .inUse) ?_,
    fun hw hl huse hbad => exec_writeActuator hw hf (v := (s.written c).refuseWith .badValue) ?_, fun b hb hw hl => ?_⟩
  · rw [writeActuator_eq, written_cfg, written_acts, protectRefuses_of hu, (locked_iff s a).2 hl]
    rfl
  · have hv : s.actValid a e = false := Bool.of_not_eq_true fun h => hbad ((actValid_iff s a e).1 h huse)
    rw [writeActuator_eq, written_cfg, written_acts, protectRefuses_of hu, hfree hl, actValid_written, hv]
    rfl
  · exact exec_write hw (tid := .actuator) rfl ((decodeThen_reads (reads_actuatorCode e hf b) (s.written c) _).trans
      (writeActuator_badCode _ c a e hb (by rw [written_cfg]; exact hu) (by rw [written_cfg, written_acts]; exact hfree hl)))

theorem groupWrites_refused (g : GroupIx) (codes : List Byte) (hl : codes.length < 256)
    (hw : EndsWrite s c t 2 g.val (BitVec.ofNat 8 codes.length :: codes)) :
    (s.groupRunning g = true → RefusedWith s c t .writeEntryGroup .inUse) ∧
    (s.groupRunning g = false →
      (16 < codes.length ∨ ¬ codes.Nodup ∨ ∃ b ∈ codes, ∀ a : ActIx, b = BitVec.ofNat 8 a →
        (s.cfg.acts[a]).inUse = false ∨ (s.cfg.acts[a]).kind ≠ .dimmer) → RefusedWith s c t .writeEntryGroup .badValue) := by
  refine ⟨fun hr => exec_writeGroup hw hl (v := (s.written c).refuseWith .inUse) ?_,
    fun hr hbad => exec_writeGroup hw hl (v := (s.written c).refuseWith .badValue) ?_⟩
  · rw [writeGroup_eq, groupRunning_written, if_pos hr]
  · rw [writeGroup_eq, groupRunning_written, hr, groupList_none (s.written c) (by rw [written_cfg]; exact hbad)]
    rfl

theorem headerWrites_refused (n : SceneIx) (x : SceneHeader) (hf : x.cueCount < 65536) (hw : EndsWrite s c t 3 n.val x.bytes)
    (hu : Unprotected c (markByte (s.cfg.headers[n]).protect) (markByte x.protect)) :
    (s.sceneRunning n = true → RefusedWith s c t .writeEntrySceneHeader .inUse) ∧
    (s.sceneRunning n = false → 16 < x.cueCount → RefusedWith s c t .writeEntrySceneHeader .badValue) := by
  refine ⟨fun hr => exec_writeHeader hw hf (v := (s.written c).refuseWith .inUse) ?_,
    fun hr hbad => exec_writeHeader hw hf (v := (s.written c).refuseWith .badValue) ?_⟩
  · rw [writeHeader_eq, written_cfg, protectRefuses_of hu, sceneRunning_written, hr]
    rfl
  · rw [writeHeader_eq, written_cfg, protectRefuses_of hu, sceneRunning_written, hr]
    exact if_neg (Nat.not_le.2 hbad)

theorem cueWrites_refused (n : SceneIx) (i : CueIx) (x : Cue) (hf : x.Fits)
    (hw : EndsWrite s c t 4 (n.val * 256 + i.val) x.bytes) (hu : c = .service ∨ (s.cfg.headers[n]).protect = false) :
    (s.sceneRunning n = true → RefusedWith s c t .writeEntryCue .inUse) ∧
    (s.sceneRunning n = false →
      (x.level < 0 ∨ 1000 < x.level ∨ 6000 < x.fade ∨ 6000 < x.delay ∨ 15 < x.skip ∨
        ∃ a, x.target = some (.actuator a) ∧ ((s.cfg.acts[a]).inUse = false ∨ (s.cfg.acts[a]).kind ≠ .dimmer)) →
      RefusedWith s c t .writeEntryCue .badValue) := by
  have hfree : ¬ (c = .trunk ∧ (s.cfg.headers[n]).protect = true) := by
    rcases hu with rfl | hu
    · simp
    · exact fun h => Bool.false_ne_true (hu.symm.trans h.2)
  refine ⟨fun hr => exec_writeCue hw hf (v := (s.written c).refuseWith .inUse) ?_,
    fun hr hbad => exec_writeCue hw hf (v := (s.written c).refuseWith .badValue) ?_⟩
  · rw [writeCue_eq, written_cfg, if_neg hfree, sceneRunning_written, if_pos hr]
  · rw [writeCue_eq, written_cfg, if_neg hfree, sceneRunning_written, hr,
      cueEntry_none (s.written c) (by rw [written_cfg]; exact hbad)]
    rfl

theorem zoneWrites_refused (z : ZoneIx) (e : ZoneCfg) (hf : e.Fits) (hw : EndsWrite s c t 5 z.val e.writeBytes)
    (hu : Unprotected c (markByte (s.cfg.zones[z]).eval.protect) (markByte e.eval.protect)) (hbad : ¬ ZoneEntryOk e) :
    RefusedWith s c t .writeEntryZone .badValue := by
  refine exec_writeZone hw hf (v := (s.written c).refuseWith .badValue) ?_
  have hv : (e.eval.ok && e.heat.ok && e.arb.ok && e.cover.ok) = false :=
    Bool.of_not_eq_true fun h => hbad ((zoneOk_iff e).1 h)
  rw [writeZone_eq, written_cfg, protectRefuses_of hu, hv]
  rfl

theorem filterWrites_refused (i : FilterIx) (f : FilterEntry) (hlo : f.lo < 65536) (hhi : f.hi < 65536) :
    (EndsWrite s c t 7 i.val f.bytes → f.inUse = true → ¬ FilterEntryOk f →
      RefusedWith s c t .writeEntryFilter .badValue) ∧
    (∀ b : Byte, 2 ≤ b.toNat → EndsWrite s c t 7 i.val (f.bytes.set 0 b) →
      RefusedWith s c t .writeEntryFilter .badValue) := by
  refine ⟨fun hw huse hbad => ?_, fun b hb hw => ?_⟩
  · have hv : f.valid = false := Bool.of_not_eq_true fun h => hbad ((filterValid_iff f).1 h huse)
    refine exec_write hw (tid := .filter) (v := (s.written c).refuseWith .badValue) rfl
      ((decodeThen_reads (reads_filter f hlo hhi) (s.written c) ((s.written c).writeFilter i.val)).trans ?_)
    rw [writeFilter_eq, hv]
    rfl
  · exact exec_write hw (tid := .filter) rfl ((decodeThen_reads (reads_filterCode f hlo hhi b) (s.written c) _).trans
      (writeFilter_badCode _ i f hb))

theorem saturationWrites_refused (sat : Vector Nat 17) (hf : ∀ i : Nat, (h : i < 17) → sat[i] < 65536)
    (hw : EndsWrite s c t 6 0 (saturationBytes sat)) (hbad : sat[0] = 0 ∨ ∃ (i : Nat) (h : i < 16), sat[i + 1] ≤ sat[i]) :
    RefusedWith s c t .writeEntrySaturation .badValue :=
  exec_write hw (tid := .saturation) rfl ((decodeThen_reads (reads_saturation sat (nat16_toList hf)) (s.written c) _).trans
    (writeSaturation_bad _ sat hbad))

theorem partWrites_refused (p : PartRecord) (hf : p.Fits) (hw : EndsWrite s c t 8 0 p.bytes) (hbad : ¬ PartRecordOk p) :
    RefusedWith s c t .writeEntryPart .badValue := by
  have hv : p.valid = false := Bool.of_not_eq_true fun h => hbad ((partValid_iff p).1 h)
  refine exec_write hw (tid := .part) (v := (s.written c).refuseWith .badValue) rfl
    ((decodeThen_reads (reads_part p hf) (s.written c) _).trans ?_)
  rw [writePart_eq, hv]
  rfl

/-- Settles O18: the protect check, the bytes that do not fit, the entries that are running, and each table's own rules. -/
theorem protectedEntriesRefuseTrunkWrites : Obligations.ProtectedEntriesRefuseTrunkWrites := by
  refine ⟨fun s t => ?_, fun s c t tid index bytes hbytes => ?_, fun s n g => ⟨sceneRunning_iff s n, groupRunning_iff s g⟩,
    fun s c t => ⟨pointWrites_refused, actuatorWrites_refused, groupWrites_refused, headerWrites_refused, cueWrites_refused,
      zoneWrites_refused, saturationWrites_refused, filterWrites_refused, partWrites_refused⟩⟩
  · obtain ⟨hpoint, hact, hheader, hcue, hzone⟩ := trunkWrites_protected s t
    exact ⟨hpoint, hact, hheader, hcue, hzone, unprotected_mark_iff,
      fun p a => ⟨by simp [PointCfg.protect], by simp [ActCfg.protect]⟩⟩
  · obtain ⟨tooMany, tooFew, outside⟩ := carriesEntry_misfits hbytes (s.written c) c index
    exact ⟨fun extra hx hw => exec_write hw (tableOfCode tid) (tooMany extra hx),
      fun k hk hw => exec_write hw (tableOfCode tid) (tooFew k hk),
      fun ho hw => exec_write hw (tableOfCode tid) (outside ho)⟩

end Sys2Proof.Machine
end

section
/-! SUPPORT. READ_ENTRY: the bytes of each table's entry, field by field, and the segment that a reading returns. -/

namespace Sys2Proof.Machine

/-! ### Codes and their named values (R166, R170) -/

/-- A byte names a value where it is the value's place in the order of its rule. -/
theorem ofCode_iff {α : Type} [DecidableEq α] {order : List α} {x : α} (hn : order.Nodup) (hx : x ∈ order)
    (hl : order.length ≤ 256) (b : Byte) : ofCode order b.toNat = some x ↔ b = BitVec.ofNat 8 (order.idxOf x) := by
  have hlt := List.idxOf_lt_length_of_mem hx
  rw [ofCode, List.getElem?_eq_some_iff, ← BitVec.toNat_inj, BitVec.toNat_ofNat, Nat.mod_eq_of_lt (by omega)]
  constructor
  · rintro ⟨h, rfl⟩
    exact (hn.idxOf_getElem _ h).symm
  · intro h
    exact ⟨by omega, by simp only [h, List.getElem_idxOf]⟩

/-- A byte within the places of an order names the value of its place. -/
theorem ofCode_of_lt {α : Type} {order : List α} {n : Nat} (h : n < order.length) : ∃ x ∈ order, ofCode order n = some x :=
  ⟨order[n], List.getElem_mem h, List.getElem?_eq_getElem h⟩

theorem pointKind_wire (x : PointKind) : BitVec.ofNat 8 (pointKindOrder.idxOf x) = x.wire := by cases x <;> rfl

theorem actKind_wire (x : ActKind) : BitVec.ofNat 8 (actKindOrder.idxOf x) = x.wire := by cases x <;> rfl

theorem kindField_point (c : PointCfg) (h : c.kindField.toNat ≤ 7) : c.kindField = c.kind.wire := by
  obtain ⟨x, hx, hc⟩ := ofCode_of_lt (order := pointKindOrder) (Nat.lt_succ_of_le h)
  have hkind : c.kind = x := by rw [PointCfg.kind, hc]; rfl
  rw [hkind, ← pointKind_wire]
  exact (ofCode_iff (by decide) hx (by decide) _).1 hc

theorem kindField_act (c : ActCfg) (h : c.kindField.toNat ≤ 7) : c.kindField = c.kind.wire := by
  obtain ⟨x, hx, hc⟩ := ofCode_of_lt (order := actKindOrder) (Nat.lt_succ_of_le h)
  have hkind : c.kind = x := by rw [ActCfg.kind, hc]; rfl
  rw [hkind, ← actKind_wire]
  exact (ofCode_iff (by decide) hx (by decide) _).1 hc

theorem zoneField_act (c : ActCfg) (h : c.zoneField.toNat ≤ 3) : c.zoneField = BitVec.ofNat 8 c.zone := by
  have hz : c.zone.val = c.zoneField.toNat := Nat.mod_eq_of_lt (Nat.lt_succ_of_le h)
  rw [hz, BitVec.ofNat_toNat, BitVec.setWidth_eq]

theorem line_iff (c : PointCfg) (l : Line) : c.line = some l ↔ c.lineField = BitVec.ofNat 8 (lineOrder.idxOf l) :=
  ofCode_iff (by decide) (by cases l <;> decide) (by decide) _

theorem dir_iff (f : FilterEntry) (d : FilterDir) : f.dir = some d ↔ f.dirField = BitVec.ofNat 8 (filterDirOrder.idxOf d) :=
  ofCode_iff (by decide) (by cases d <;> decide) (by decide) _

/-- A byte that names no action passes nothing (R154). -/
theorem action_pass_iff (f : FilterEntry) : f.action = .pass ↔ f.actionField = 0 := by
  have h := ofCode_iff (order := filterActionOrder) (x := .pass) (by decide) (by decide) (by decide) f.actionField
  rw [show f.actionField = 0 ↔ ofCode filterActionOrder f.actionField.toNat = some .pass from h.symm, FilterEntry.action]
  cases ofCode filterActionOrder f.actionField.toNat <;> simp

/-! ### Shown times (log 3) -/

theorem shownUnits_bounds (unit ms : Nat) : ms / unit ≤ shownUnits unit ms ∧ shownUnits unit ms ≤ ms / unit + 1 ∧
    (ms % unit = 0 → shownUnits unit ms = ms / unit) := by
  unfold shownUnits
  have hb := Bool.toNat_le (Config.partUnitShown unit ms)
  split
  · exact ⟨by omega, by omega, fun _ => rfl⟩
  · exact ⟨by omega, by omega, fun h => absurd h ‹_›⟩

/-! ### Fields of one byte and of several -/

theorem listField_counted {α : Type} (f : α → List Byte) (l : List α) : listField f l = counted f l := rfl

theorem indexList (l : List ActIx) : listField (fun a : ActIx => byteField a.val) l = counted indexByte l := rfl

theorem cueTarget_field (x : CueTarget) : x.field = x.wire := by cases x <;> rfl

theorem guard_field (g : Guard) : g.field = g.wire := by
  cases g with
  | climateIs c => cases c <;> rfl
  | pointAbove p x => rfl
  | pointBelow p x => rfl
  | pointFresh p => rfl

theorem cueStatus_bytes (x : CueStatus) : x.bytes = x.wire := by cases x <;> rfl

theorem aggregate_bytes (a : Aggregate) : a.bytes = a.wire := by
  simp only [Aggregate.bytes, Aggregate.wire, optNum, optField_presence, setClear_byte]

theorem touched_bytes (x : Touched) : x.bytes = x.wire := by
  simp only [Touched.bytes, Touched.wire, optField_presence, yesNo_byte, List.append_assoc]
  rfl

theorem arming_bytes (o : Option AccIx) : armingField o = presence (fun a : AccIx => [0, BitVec.ofNat 8 a]) o := by
  cases o <;> rfl

theorem named_filterAction (a : FilterAction) : named filterActionOrder a = [match a with | .pass => (0 : Byte) | .block => 1] := by
  cases a <;> rfl

theorem named_run (b : Bool) : named runOrder b = [if b then 0 else 1] := by cases b <;> rfl

theorem named_captureMode (m : CaptureMode) : named captureModeOrder m = [match m with | .wrap => (0 : Byte) | .stop => 1] := by
  cases m <;> rfl

theorem accOptions_bytes (o : AccOptions) :
    o.bytes = [flagByte o.enabled, flagByte o.captureOnOverflow, flagByte o.freezeOnOverflow] := by
  simp [AccOptions.bytes]

theorem runningPaused_bytes (p : PurgeRt) (held : Bool) :
    runningPausedField (p.state == .wait && !held) p.remainingWait =
      (if p.state = .wait ∧ held = false then 0 else 1) :: wordField (BitVec.ofNat 32 (shownUnits 1000 p.remainingWait)) := by
  cases p.state <;> cases held <;> rfl

/-! ### The bytes of each entry (R166) -/

theorem actRt_bytes (r : ActRt) : r.bytes = [r.control.wire, r.dispatch.wire] ++ presence numField r.requested ++
    [flagByte r.needsSend, flagByte r.refreshOnly] ++ presence numField r.inFlightValue ++
    presence (fun t : Tag => countField t.val) r.inFlightTag ++ presence numField r.confirmed ++
    presence numField r.rangeRefused ++ [r.health.wire] ++ numField r.timeouts ++ timerBytes 0 1 1000 r.refreshTimer ++
    timerBytes 0 1 1000 r.retryTimer ++ timerBytes 0 1 1000 r.overrideTimer := by
  simp [ActRt.bytes, optNum, optField_presence, timer_stoppedRunning, perSecond, countField]

theorem header_bytes (x : SceneHeader) : x.bytes = numField x.cueCount ++ [flagByte x.protect] := by
  simp [SceneHeader.bytes]

theorem cue_bytes (c : Cue) : c.bytes = presence CueTarget.wire c.target ++ numField c.level ++ numField c.fade ++
    numField c.delay ++ presence Guard.wire c.guard ++ numField c.skip := by
  rw [Cue.bytes, funext cueTarget_field, funext guard_field, optField_presence, optField_presence]
  rfl

theorem saturation_bytes (sat : Vector Nat 17) : saturationBytes sat = sat.toList.flatMap fun p => numField p := by
  simp only [saturationBytes, List.bind_eq_flatMap, List.pure_def, List.flatMap_assoc, List.flatMap_singleton]
  rfl

theorem filter_bytes (f : FilterEntry) :
    f.bytes = [flagByte f.inUse] ++ numField f.lo ++ numField f.hi ++ [f.dirField, f.actionField] := by
  simp [FilterEntry.bytes]

theorem part_bytes (p : PartRecord) :
    let perJob := fun (x : PerJob Nat) => numField x.heat ++ numField x.air ++ numField x.cover ++ numField x.light
    p.bytes = numField p.own ++ numField p.supervisor ++ numField p.ackTimeout ++ perJob p.priority ++ perJob p.maxWait ++
      [match p.filterDefault with | .pass => (0 : Byte) | .block => 1, if p.run then 0 else 1] ++
      (p.accOptions.toList.flatMap fun z => z.toList.flatMap fun o =>
        [flagByte o.enabled, flagByte o.captureOnOverflow, flagByte o.freezeOnOverflow]) ++
      [match p.captureMode with | .wrap => (0 : Byte) | .stop => 1] ++ numField p.captureThreshold ++ [flagByte p.ringFreeze] := by
  intro perJob
  have hjob (x : PerJob Nat) : perJobBytes x = perJob x := by
    simp [perJobBytes, jobOrder, PerJob.get, perJob]
  rw [PartRecord.bytes, hjob, hjob, named_filterAction, named_run, named_captureMode, funext accOptions_bytes, yesNo_byte]
  simp only [natField_eq, List.append_assoc, List.cons_append, List.nil_append]

theorem zoneCfg_bytes (c : ZoneCfg) :
    let evaluation := numField c.eval.period ++ numField c.eval.rhOpen ++ numField c.eval.rhNight ++ numField c.eval.krh ++
      numField c.eval.mthr ++ numField c.eval.kc ++ numField c.eval.mcrit ++ [flagByte c.eval.protect]
    let rest := numField c.heat.openOffset ++ numField c.heat.nightOffset ++ numField c.heat.spMin ++ numField c.heat.spMax ++
      numField c.heat.kp ++ numField c.heat.ki ++ numField c.arb.dwell ++ numField c.arb.don ++ numField c.arb.doff ++
      numField c.arb.voff ++ numField c.arb.hvent ++ numField c.arb.fIdle ++ numField c.arb.fNight ++ numField c.arb.fHeat ++
      numField c.arb.fdMin ++ numField c.arb.fdMax ++ numField c.arb.fVent ++ numField c.arb.fPurge ++ numField c.arb.dMin ++
      numField c.arb.dPurge ++ numField c.cover.prep ++ numField c.cover.motion ++ numField c.cover.detect ++
      numField c.cover.settle ++ numField c.cover.waitA ++ numField c.cover.runB ++ numField c.cover.fanLevel ++
      presence indexByte c.cover.openScene ++ presence indexByte c.cover.coverWorkScene ++
      presence indexByte c.cover.nightScene
    c.readBytes = evaluation ++ [flagByte c.eval.enabled] ++ rest ∧ c.writeBytes = evaluation ++ rest := by
  intro evaluation rest
  have heval : c.eval.bytes = evaluation := by simp only [EvalCfg.bytes, natField_eq, yesNo_byte, evaluation]
  have hrest : c.heat.bytes ++ c.arb.bytes ++ c.cover.bytes = rest := by
    simp only [HeatCfg.bytes, ArbCfg.bytes, CoverCfg.bytes, natField_eq, optIndex_presence, List.append_assoc, rest]
  constructor
  · rw [ZoneCfg.readBytes, heval, yesNo_byte, ← hrest]
    simp only [List.append_assoc]
  · rw [ZoneCfg.writeBytes, heval, ← hrest]
    simp only [List.append_assoc]

theorem evalRt_bytes (e : EvalRt) : e.bytes = e.ta.wire ++ e.rh.wire ++ e.tw.wire ++ e.tg.wire ++ e.tout.wire ++
    presence numField e.tc ++ presence numField e.psat ++ presence numField e.pv ++ presence numField e.td ++
    presence numField e.margin ++ [setByte e.heldMargin] ++ numField e.dRh ++ numField e.dCond ++ numField e.d ++
    [setByte e.crit, setByte e.noAirData, setByte e.tClamp, setByte e.dewLow] ++ timerBytes 1 0 1000 e.timer ++
    presence wordField e.lastTime := by
  unfold EvalRt.bytes
  simp only [aggregate_bytes, optNum, optStamp, optField_presence, timer_runningStopped, perSecond,
    setClear_byte, List.append_assoc, List.cons_append, List.nil_append]

theorem heatRt_bytes (h : HeatRt) : h.bytes = presence numField h.spa ++ [setByte h.heldSetpoint] ++ presence numField h.e ++
    numField h.h ++ numField h.i ++ [setByte h.integLimit] := by
  simp [HeatRt.bytes, optNum, optField_presence]

theorem arbRt_bytes (a : ArbRt) : a.bytes = [a.granted.wire] ++ presence wordField a.grantTime ++ timerBytes 1 0 1000 a.dwell ++
    presence (fun m : Mode => [m.wire]) a.chosen ++ presence (fun p : Pending => [p.wire]) a.pending ++
    [flagByte a.ventAvailable] ++ presence (fun c : ModeCause => [c.wire]) a.lastCause ++ presence wordField a.lastDecision := by
  simp only [ArbRt.bytes, optStamp, optField_presence, timer_runningStopped, perSecond, yesNo_byte, funext named_mode,
    funext named_pending, funext named_modeCause]

theorem coverRt_bytes (c : CoverRt) : c.bytes = [c.state.wire] ++ presence (fun r : FaultReason => [r.wire]) c.reason ++
    counted indexByte c.drives ++ timerBytes 0 1 1000 c.detectTimer ++ timerBytes 0 1 1000 c.prepTimer ++
    timerBytes 0 1 1000 c.motionTimer ++ timerBytes 0 1 1000 c.settleTimer ++
    [flagByte c.lightingReady, flagByte c.workSceneTaken] := by
  simp only [CoverRt.bytes, named_coverState, funext named_faultReason, optField_presence, indexList,
    timer_stoppedRunningPaused, perSecond, yesNo_byte, List.append_assoc, List.cons_append, List.nil_append]

theorem purgeRt_bytes (p : PurgeRt) (held : Bool) : p.bytes held =
    [p.state.wire, if p.state = .wait ∧ held = false then 0 else 1] ++
    wordField (BitVec.ofNat 32 (shownUnits 1000 p.remainingWait)) ++ numField (shownUnits 1000 p.remainingRun) ++
    numField (p.runCounted / 1000 : Nat) ++ presence wordField p.runStart := by
  simp [PurgeRt.bytes, runningPaused_bytes, optStamp, optField_presence, perSecond]

theorem sceneRt_bytes (e : SceneRt) : e.bytes = [e.state.wire] ++ presence indexByte e.scene ++
    presence (fun o : TakeOrigin => [o.wire]) e.origin ++ presence wordField e.takeTime ++
    counted (fun c : CueRun => c.status.wire) e.cues ++ counted Touched.wire e.touched ++ timerBytes 0 1 1 e.stepTimer ++
    [flagByte e.coverWork] ++ presence indexByte e.degraded := by
  simp only [SceneRt.bytes, named_sceneState, optIndex_presence, funext named_takeOrigin, optField_presence, optStamp,
    cueStatus_bytes, funext touched_bytes, listField_counted, timer_stoppedRunningPaused, yesNo_byte]

theorem zoneRt_bytes (r : ZoneRt) : r.bytes = r.eval.bytes ++ r.heat.bytes ++ r.arb.bytes ++ r.cover.bytes ++
    r.purge.bytes r.held ++ r.scene.bytes ++ presence (fun a : AccIx => [0, BitVec.ofNat 8 a]) r.arming ++ [flagByte r.held] ++
    presence indexByte r.holdCause := by
  simp only [ZoneRt.bytes, arming_bytes, yesNo_byte, optIndex_presence]

/-! ### The entry of a table index, and its reading -/

theorem asIndex_map {n : Nat} {α : Type} (f : Fin n → α) (i : Nat) :
    (asIndex n i).map f = if h : i < n then some (f ⟨i, h⟩) else none := by
  unfold asIndex; split <;> rfl

theorem entryBytes_cue (s : State) (index : Nat) : s.entryBytes .cue index =
    if h : index / 256 < 32 ∧ index % 256 < 16 then some ((s.cfg.cues[index / 256])[index % 256]).bytes else none := by
  simp only [State.entryBytes, asIndex]
  by_cases hn : index / 256 < 32 <;> by_cases hi : index % 256 < 16 <;> simp [hn, hi]

theorem entryBytes_eq (s : State) (tid : TableId) (index : Nat) : s.entryBytes tid index = match tid with
    | .point => if h : index < 128 then some ((s.cfg.points[index]).bytes ++ (s.points[index]).bytes) else none
    | .actuator => if h : index < 96 then some ((s.cfg.acts[index]).bytes ++ (s.acts[index]).bytes) else none
    | .group => if h : index < 16 then some (groupBytes s.cfg.groups[index]) else none
    | .sceneHeader => if h : index < 32 then some (s.cfg.headers[index]).bytes else none
    | .cue =>
      if h : index / 256 < 32 ∧ index % 256 < 16 then some ((s.cfg.cues[index / 256])[index % 256]).bytes else none
    | .zone => if h : index < 4 then some ((s.cfg.zones[index]).readBytes ++ (s.zones[index]).bytes) else none
    | .saturation => if index = 0 then some (saturationBytes s.cfg.saturation) else none
    | .filter => if h : index < 16 then some (s.cfg.filter[index]).bytes else none
    | .part => if index = 0 then some s.cfg.part.bytes else none := by
  cases tid with
  | point => exact asIndex_map ..
  | actuator => exact asIndex_map ..
  | group => exact asIndex_map ..
  | sceneHeader => exact asIndex_map ..
  | cue => exact entryBytes_cue s index
  | zone => exact asIndex_map ..
  | saturation => rfl
  | filter => exact asIndex_map ..
  | part => rfl

section
variable {s : State} {c : Channel} {t : Telegram}

/-- The common checks of a known kind leave the request to that kind's rows. -/
theorem kind_of_next {kind : Byte} {params : List Byte} (h : NextIs s c t kind params) :
    (Request.of c t).kind = ReqKind.ofCode kind := by
  unfold Request.kind; rw [request_kindByte h.payload]

theorem entryBytes_taken (s : State) (c : Channel) (tid : TableId) (index : Nat) :
    (s.taken c).entryBytes tid index = s.entryBytes tid index := by cases c <;> cases tid <;> rfl

/-- READ_ENTRY's own rule on a table, an index and a segment. -/
theorem exec_readEntry {tid : TableId} {hi lo seg : Byte}
    (h : NextIs s c t 2 [BitVec.ofNat 8 (tableOrder.idxOf tid), hi, lo, seg]) : exec .readEntry s = .next (
      match s.entryBytes tid (hi.toNat * 256 + lo.toNat) with
      | none => (s.taken c).replied c t 2 .badIndex []
      | some bytes =>
        if seg.toNat < segmentCount bytes then
          (s.taken c).replied c t 2 .done ([BitVec.ofNat 8 (tableOrder.idxOf tid), hi, lo, seg,
            BitVec.ofNat 8 (segmentCount bytes)] ++ (bytes.drop (25 * seg.toNat)).take 25)
        else (s.taken c).replied c t 2 .badValue []) := by
  have hrow : (Request.of c t).row = .readEntry := by
    unfold Request.row; rw [kind_of_next h]; rfl
  show Host.Outcome.next (s.serve .readEntry readEntryOwn) = _
  rw [serve_own _ _ h hrow]
  have hbytes : ((ofCode tableOrder ((Request.of c t).param 0)).bind fun table =>
      (s.taken c).entryBytes table (Request.of c t).tableIndex) = s.entryBytes tid (hi.toNat * 256 + lo.toNat) := by
    rw [request_param h.payload, ← entryBytes_taken s c]
    simp only [Request.tableIndex, request_param h.payload, List.getD_cons_zero, List.getD_cons_succ, tableOfCode]
    rfl
  have hseg : (Request.of c t).param 3 = seg.toNat := by rw [request_param h.payload]; rfl
  unfold readEntryOwn
  rw [hbytes, hseg, request_params h.payload]
  cases s.entryBytes tid (hi.toNat * 256 + lo.toNat) with
  | none => exact congrArg _ (reply_now _ rfl h.payload)
  | some bytes =>
    by_cases hs : seg.toNat < segmentCount bytes
    · simp only [segmented, if_pos hs]
      exact congrArg _ ((reply_now _ rfl h.payload).trans (by simp [State.doneWith, byteField, segmentOf]))
    · simp only [segmented, if_neg hs]
      exact congrArg _ (reply_now _ rfl h.payload)

end

/-- Settles O19: the bytes of each record, the entry at an index, and the reading of a segment. -/
theorem readEntryReturnsTheEntry : Obligations.ReadEntryReturnsTheEntry := by
  refine ⟨fun unit ms _ => shownUnits_bounds unit ms, ⟨pointCfg_bytes, fun c => ?_, pointRt_bytes⟩,
    ⟨actCfg_bytes, fun c => ⟨kindField_act c, by simp [ActCfg.protect], zoneField_act c⟩, actRt_bytes⟩,
    ⟨fun _ => rfl, header_bytes, cue_bytes, saturation_bytes, fun f => ?_, part_bytes⟩,
    ⟨zoneCfg_bytes, evalRt_bytes, heatRt_bytes, arbRt_bytes, coverRt_bytes, purgeRt_bytes, sceneRt_bytes, zoneRt_bytes⟩,
    entryBytes_eq, fun s c t tid hi lo seg h => exec_readEntry h⟩
  · exact ⟨line_iff c .hall, line_iff c .trunk, kindField_point c, by simp [PointCfg.notifyStale], by simp [PointCfg.protect]⟩
  · exact ⟨filter_bytes f, dir_iff f .ht, dir_iff f .th, dir_iff f .both, action_pass_iff f⟩

end Sys2Proof.Machine
end

section
/-! SUPPORT. What a change of the covers reaches: for every operation that such a change runs, the parts of the zone and of the
accounts that it may change, and how many notices and ring records it adds at most. -/

namespace Sys2Proof.Machine

variable {z : ZoneIx} {s t u : State}

/-! ### The relation -/

/-- The parts of the state that work in a zone may reach: blocks of the zone's record, the scene record's fields that only a take
or the cover sequencer writes, the actuators of a kind, an accumulator of the zone, and the configuration's RUN. -/
inductive Part where
  | arb | purge | cover | scene | take | coverWork | acts (kind : ActKind) | acc (i : AccIx) | run
  deriving DecidableEq

/-- A part is in `t` what it is in `s`. -/
def Part.Stands (z : ZoneIx) (s t : State) : Part → Prop
  | .arb => (t.zones[z]).arb = (s.zones[z]).arb
  | .purge => (t.zones[z]).purge = (s.zones[z]).purge
  | .cover => (t.zones[z]).cover = (s.zones[z]).cover
  | .scene => (t.zones[z]).scene = (s.zones[z]).scene
  | .take => (t.zones[z]).scene.scene = (s.zones[z]).scene.scene ∧ (t.zones[z]).scene.origin = (s.zones[z]).scene.origin ∧
      (t.zones[z]).scene.takeTime = (s.zones[z]).scene.takeTime
  | .coverWork => (t.zones[z]).scene.coverWork = (s.zones[z]).scene.coverWork
  | .acts k => ∀ a : ActIx, (s.cfg.acts[a]).kind = k → t.acts[a] = s.acts[a]
  | .acc i => (t.acct.accs[z])[i] = (s.acct.accs[z])[i]
  | .run => t.cfg = s.cfg

/-- A record is in the ring, with at most so many behind it. -/
def Recent (rec : RingRecord) (n : Nat) (ring : List RingRecord) : Prop :=
  ∃ older younger, ring = older ++ rec :: younger ∧ younger.length ≤ n

/-- `t` is `s` after work in one zone that changes no part but the listed ones, appends at most so many notices, and so many
records to the ring. -/
structure Reaches (z : ZoneIx) (parts : List Part) (notices records : Nat) (s t : State) : Prop where
  work : OneZoneWork z s t
  held : (t.zones[z]).held = (s.zones[z]).held
  frozen : t.acct.frozen = s.acct.frozen
  stands : ∀ p, p ∉ parts → p.Stands z s t
  notices : ∃ l, t.mgmt.notices = s.mgmt.notices ++ l ∧ l.length ≤ notices
  ring : ∀ rec n, Recent rec n s.acct.ring → n + records < 16 → Recent rec (n + records) t.acct.ring

theorem Part.Stands.refl (p : Part) (s : State) : p.Stands z s s := by
  cases p with
  | take => exact ⟨rfl, rfl, rfl⟩
  | acts k => exact fun _ _ => rfl
  | _ => rfl

theorem Part.stands_trans {p : Part} (hc : t.cfg.acts = s.cfg.acts) (h : p.Stands z s t) (h' : p.Stands z t u) :
    p.Stands z s u := by
  cases p with
  | take => exact ⟨h'.1.trans h.1, h'.2.1.trans h.2.1, h'.2.2.trans h.2.2⟩
  | acts k => exact fun a ha => (h' a (by rw [hc]; exact ha)).trans (h a ha)
  | _ => exact Eq.trans h' h

section
variable {parts parts' : List Part} {n n' r r' : Nat}

theorem Reaches.refl (s : State) : Reaches z [] 0 0 s s :=
  ⟨.refl _ s, rfl, rfl, fun p _ => .refl p s, ⟨[], by simp, by simp⟩, fun _ _ h _ => h⟩

theorem Reaches.trans (h : Reaches z parts n r s t) (h' : Reaches z parts' n' r' t u) :
    Reaches z (parts ++ parts') (n + n') (r + r') s u where
  work := h.work.trans h'.work
  held := h'.held.trans h.held
  frozen := h'.frozen.trans h.frozen
  stands p hp := by
    rw [List.mem_append, not_or] at hp
    exact Part.stands_trans h.work.acts (h.stands p hp.1) (h'.stands p hp.2)
  notices := by
    obtain ⟨l, hl, hn⟩ := h.notices
    obtain ⟨l', hl', hn'⟩ := h'.notices
    exact ⟨l ++ l', by rw [hl', hl, List.append_assoc], by rw [List.length_append]; omega⟩
  ring rec k hr hk := by
    have := h'.ring rec (k + r) (h.ring rec k hr (by omega)) (by omega)
    rwa [Nat.add_assoc] at this

theorem Recent.mono {rec : RingRecord} {k k' : Nat} {ring : List RingRecord} (h : Recent rec k ring) (hk : k ≤ k') :
    Recent rec k' ring := by
  obtain ⟨older, younger, rfl, hy⟩ := h
  exact ⟨older, younger, rfl, by omega⟩

theorem Reaches.mono (h : Reaches z parts n r s t) (hp : parts ⊆ parts') (hn : n ≤ n') (hr : r ≤ r') :
    Reaches z parts' n' r' s t where
  work := h.work
  held := h.held
  frozen := h.frozen
  stands p hp' := h.stands p fun hm => hp' (hp hm)
  notices := by
    obtain ⟨l, hl, hln⟩ := h.notices
    exact ⟨l, hl, by omega⟩
  ring rec k hrec hk := (h.ring rec k hrec (by omega)).mono (by omega)

/-- A fold whose steps raise and record nothing reaches what its steps reach. -/
theorem Reaches.foldl {α : Type} (f : State → α → State) (l : List α) (h : ∀ s a, a ∈ l → Reaches z parts 0 0 s (f s a)) :
    ∀ s, Reaches z parts 0 0 s (l.foldl f s) := by
  induction l with
  | nil => exact fun s => (Reaches.refl s).mono (List.nil_subset _) (Nat.le_refl _) (Nat.le_refl _)
  | cons a l ih =>
    intro s
    exact ((h s a (List.mem_cons_self ..)).trans (ih (fun s b hb => h s b (List.mem_cons_of_mem _ hb)) (f s a))).mono
      (List.append_subset.2 ⟨List.Subset.refl _, List.Subset.refl _⟩) (Nat.le_refl _) (Nat.le_refl _)

/-- A zone's record has the same part. -/
def Part.Kept (r r' : ZoneRt) : Part → Prop
  | .arb => r'.arb = r.arb
  | .purge => r'.purge = r.purge
  | .cover => r'.cover = r.cover
  | .scene => r'.scene = r.scene
  | .take => r'.scene.scene = r.scene.scene ∧ r'.scene.origin = r.scene.origin ∧ r'.scene.takeTime = r.scene.takeTime
  | .coverWork => r'.scene.coverWork = r.scene.coverWork
  | .acts _ | .acc _ | .run => True

theorem Part.Kept.stands {f : ZoneRt → ZoneRt} {p : Part} (h : p.Kept s.zones[z] (f s.zones[z])) :
    p.Stands z s (s.updZone z f) := by
  cases p with
  | acts k => exact fun _ _ => rfl
  | acc i => rfl
  | run => rfl
  | _ =>
    unfold Part.Stands
    rw [State.updZone_same]
    exact h

theorem reaches_updZone (f : ZoneRt → ZoneRt) (he : (f s.zones[z]).eval = (s.zones[z]).eval)
    (hh : (f s.zones[z]).heat = (s.zones[z]).heat) (hd : (f s.zones[z]).held = (s.zones[z]).held)
    (hp : ∀ p, p ∉ parts → p.Kept s.zones[z] (f s.zones[z])) : Reaches z parts 0 0 s (s.updZone z f) where
  work := zoneWork_updZone z f rfl he hh
  held := by rw [State.updZone_same]; exact hd
  frozen := rfl
  stands p h := (hp p h).stands
  notices := ⟨[], by simp, by simp⟩
  ring _ _ h _ := h

end

theorem Part.not_mem_singleton {p q : Part} (h : p ∉ [q]) : p ≠ q := fun e => h (by rw [e]; exact List.mem_singleton.2 rfl)

theorem reaches_updArb (s : State) (f : ArbRt → ArbRt) : Reaches z [.arb] 0 0 s (s.updArb z f) := by
  refine reaches_updZone _ rfl rfl rfl fun p hp => ?_
  have hne := Part.not_mem_singleton hp
  cases p <;> simp_all [Part.Kept]

theorem reaches_updPurge (s : State) (f : PurgeRt → PurgeRt) : Reaches z [.purge] 0 0 s (s.updPurge z f) := by
  refine reaches_updZone _ rfl rfl rfl fun p hp => ?_
  have hne := Part.not_mem_singleton hp
  cases p <;> simp_all [Part.Kept]

/-- An update of the scene record that writes neither the take's fields nor the cover sequencer's. -/
theorem reaches_updScene (s : State) (f : SceneRt → SceneRt) (hs : ∀ e, (f e).scene = e.scene) (ho : ∀ e, (f e).origin = e.origin)
    (ht : ∀ e, (f e).takeTime = e.takeTime) (hc : ∀ e, (f e).coverWork = e.coverWork) :
    Reaches z [.scene] 0 0 s (s.updScene z f) := by
  refine reaches_updZone _ rfl rfl rfl fun p hp => ?_
  have hne := Part.not_mem_singleton hp
  cases p <;> simp_all [Part.Kept]

/-! ### Requests -/

theorem join_frame (s : State) (a : ActIx) : s.join a = { s with acts := (s.join a).acts, disp := (s.join a).disp } := by
  unfold State.join
  split
  · rfl
  · split <;> rfl

/-- A job request changes actuators and queues alone. -/
theorem jobRequest_frame (s : State) (k : ActKind) (w : ZoneIx) (a : ActIx) (v : Int) : s.jobRequest k w a v =
    { s with acts := (s.jobRequest k w a v).acts, disp := (s.jobRequest k w a v).disp } := by
  unfold State.jobRequest
  dsimp only
  split
  · exact join_frame _ a
  · rfl

theorem join_other {a b : ActIx} (h : b ≠ a) (s : State) : (s.join a).acts[b] = s.acts[b] := by
  unfold State.join
  split
  · rfl
  · split
    · exact State.updAct_other _ h _
    · rfl

theorem join_requested (s : State) (a b : ActIx) : ((s.join a).acts[b]).requested = (s.acts[b]).requested := by
  by_cases h : b = a
  · subst h
    unfold State.join
    split
    · rfl
    · split
      · rw [State.updAct_same]; rfl
      · rfl
  · rw [join_other h]

theorem jobRequest_other {a b : ActIx} (h : b ≠ a) (s : State) (k : ActKind) (w : ZoneIx) (v : Int) :
    (s.jobRequest k w a v).acts[b] = s.acts[b] := by
  unfold State.jobRequest
  dsimp only
  split
  · rw [join_other h, State.updAct_other _ h]
  · rfl

/-- A request of another kind leaves an actuator as it is. -/
theorem jobRequest_kind {s : State} {k : ActKind} {w : ZoneIx} {a b : ActIx} {v : Int} (h : (s.cfg.acts[b]).kind ≠ k) :
    (s.jobRequest k w a v).acts[b] = s.acts[b] := by
  by_cases hb : b = a
  · subst hb
    have hk : ((s.cfg.acts[b]).kind == k) = false := beq_false_of_ne h
    unfold State.jobRequest
    simp only [hk, Bool.and_false, Bool.false_and]
    rfl
  · exact jobRequest_other hb s k w v

theorem reaches_jobRequest (s : State) (k : ActKind) (a : ActIx) (v : Int) :
    Reaches z [.acts k] 0 0 s (s.jobRequest k z a v) where
  work := zoneWork_jobRequest s k z a v rfl
  held := by rw [jobRequest_frame]
  frozen := by rw [jobRequest_frame]
  stands p hp := by
    have hne := Part.not_mem_singleton hp
    cases p with
    | acts k' => exact fun b hb => jobRequest_kind fun e => hne (by rw [← e, hb])
    | take => rw [jobRequest_frame]; exact ⟨rfl, rfl, rfl⟩
    | _ => rw [jobRequest_frame]; rfl
  notices := ⟨[], by rw [jobRequest_frame]; simp, by simp⟩
  ring _ _ h _ := by rw [jobRequest_frame]; exact h

theorem reaches_requestFans (s : State) (v : Int) : Reaches z [.acts .purgeFan] 0 0 s (s.requestFans z v) := by
  unfold State.requestFans State.requestAll
  exact Reaches.foldl _ _ (fun s a _ => reaches_jobRequest s .purgeFan a v) s

theorem reaches_requestDrives (s : State) (v : Int) : Reaches z [.acts .coverDrive] 0 0 s (s.requestDrives z v) :=
  Reaches.foldl _ _ (fun s a _ => reaches_jobRequest s .coverDrive a v) s

/-! ### Notices, the ring and the accumulators -/

theorem appendRing_frame (s : State) (w : ZoneIx) (e : RingEntry) : s.appendRing w e =
    { s with acct := { s.acct with ring := (s.appendRing w e).acct.ring } } := by
  unfold State.appendRing
  split <;> rfl

/-- An append moves a record one place back in the ring, which loses only its oldest. -/
theorem recent_append {rec new : RingRecord} {n : Nat} {ring : List RingRecord} (h : Recent rec n ring) (hn : n + 1 < 16) :
    Recent rec (n + 1) ((if ring.length < 16 then ring else ring.drop 1) ++ [new]) := by
  obtain ⟨older, younger, rfl, hy⟩ := h
  split
  · exact ⟨older, younger ++ [new], by simp, by simp; omega⟩
  · rename_i hlen
    cases older with
    | nil => simp at hlen; omega
    | cons x older => exact ⟨older, younger ++ [new], by simp, by simp; omega⟩

theorem reaches_appendRing (s : State) (e : RingEntry) : Reaches z [] 0 1 s (s.appendRing z e) where
  work := zoneWork_appendRing s z e
  held := by rw [appendRing_frame]
  frozen := by rw [appendRing_frame]
  stands p _ := by
    cases p with
    | acts k => exact fun _ _ => by rw [appendRing_frame]
    | take => rw [appendRing_frame]; exact ⟨rfl, rfl, rfl⟩
    | _ => rw [appendRing_frame]; rfl
  notices := ⟨[], by rw [appendRing_frame]; simp, by simp⟩
  ring rec n h hn := by
    unfold State.appendRing
    split
    · exact h.mono (by omega)
    · exact recent_append h hn

/-- What is appended to a ring that is not frozen is its youngest record. -/
theorem recent_appendRing {s : State} (h : s.acct.frozen = false) (w : ZoneIx) (e : RingEntry) :
    Recent { time := s.now, zone := w, entry := e } 0 (s.appendRing w e).acct.ring := by
  rw [State.appendRing, h]
  exact ⟨_, [], rfl, by simp⟩

theorem raise_frame (s : State) (k : NoticeKind) (w : Byte) (d : List Byte) : s.raise k w d =
    { s with mgmt := (s.raise k w d).mgmt } := by
  unfold State.raise
  split <;> rfl

theorem reaches_raise (s : State) (k : NoticeKind) (w : Byte) (d : List Byte) : Reaches z [] 1 0 s (s.raise k w d) where
  work := zoneWork_raise s k w d
  held := by rw [raise_frame]
  frozen := by rw [raise_frame]
  stands p _ := by
    cases p with
    | acts k => exact fun _ _ => by rw [raise_frame]
    | take => rw [raise_frame]; exact ⟨rfl, rfl, rfl⟩
    | _ => rw [raise_frame]; rfl
  notices := by
    unfold State.raise
    split
    · exact ⟨_, rfl, by simp⟩
    · exact ⟨[], by simp [State.setNoticeLost], by simp⟩
  ring _ _ h _ := by rw [raise_frame]; exact h

/-- A notice is kept where its queue has room (R173). -/
theorem mem_raise {s : State} (h : s.mgmt.notices.length < 8) (k : NoticeKind) (w : Byte) (d : List Byte) :
    { kind := k, zone := w, time := s.now, detail := d } ∈ (s.raise k w d).mgmt.notices := by
  rw [State.raise, if_pos h]
  exact List.mem_append_right _ (List.mem_singleton.2 rfl)

theorem reaches_setAcc (s : State) (i : AccIx) (x : Accumulator) : Reaches z [.acc i] 0 0 s (s.setAcc z i x) where
  work := zoneWork_setAcc s z i x
  held := rfl
  frozen := rfl
  stands p hp := by
    have hne := Part.not_mem_singleton hp
    cases p with
    | acc j =>
      have hij : (i : Nat) ≠ j := fun e => hne (by rw [Fin.ext e])
      simp [Part.Stands, State.setAcc, hij]
    | acts k => exact fun _ _ => rfl
    | take => exact ⟨rfl, rfl, rfl⟩
    | _ => rfl
  notices := ⟨[], by simp [State.setAcc], by simp⟩
  ring _ _ h _ := h

theorem reaches_stopRun (s : State) : Reaches z [.run] 0 0 s (s.updPart fun p => { p with run := false }) where
  work := zoneWork_updCfg _ rfl
  held := rfl
  frozen := rfl
  stands p hp := by
    have hne := Part.not_mem_singleton hp
    cases p with
    | run => exact absurd rfl hne
    | acts k => exact fun _ _ => rfl
    | take => exact ⟨rfl, rfl, rfl⟩
    | _ => rfl
  notices := ⟨[], by simp [State.updPart], by simp⟩
  ring _ _ h _ := h

theorem reaches_accOverflow (s : State) (i : AccIx) (v : BitVec 32) : Reaches z [.run] 1 0 s (s.accOverflow z i v) := by
  have hrun (t : State) (b : Bool) : Reaches z [.run] 0 0 t (if b then t.updPart fun p => { p with run := false } else t) := by
    cases b
    · exact (Reaches.refl t).mono (List.nil_subset _) (Nat.le_refl _) (Nat.le_refl _)
    · exact reaches_stopRun t
  have harm (t : State) (b : Bool) : Reaches z [] 0 0 t (if b then
      t.updZone z fun r => { r with arming := match r.arming with | some first => some first | none => some i } else t) := by
    cases b
    · exact Reaches.refl t
    · rw [if_pos rfl]
      refine reaches_updZone _ rfl rfl rfl fun p _ => ?_
      cases p <;> simp [Part.Kept]
  unfold State.accOverflow
  exact ((reaches_raise s .accOverflow _ _).trans (hrun _ _)).trans (harm _ _)

theorem reaches_offer (s : State) (i : AccIx) (n : Nat) : Reaches z [.acc i, .run] 1 0 s (s.offer z i n) := by
  unfold State.offer
  split
  · dsimp only
    split
    · exact (reaches_setAcc s i _).mono (by simp) (Nat.zero_le _) (Nat.le_refl _)
    · exact (reaches_setAcc s i _).trans (reaches_accOverflow _ i _)
  · exact (Reaches.refl s).mono (by simp) (Nat.zero_le _) (Nat.le_refl _)

/-- An offer is accounted (R177). -/
theorem offer_accounted (s : State) (z : ZoneIx) (i : AccIx) (n : Nat) : Accounted s (s.offer z i n) z i n := by
  intro he hr
  have hset (x : Accumulator) : (((s.setAcc z i x).acct.accs[z])[i]) = x := by simp [State.setAcc]
  have hsum : BitVec.ofNat 32 ((s.acc z i).value.toNat + n) = (s.acc z i).value + BitVec.ofNat 32 n := by
    apply BitVec.eq_of_toNat_eq; simp
  unfold State.offer
  rw [he, hr]
  simp only [Bool.and_self, if_true]
  split
  · rw [hset]; exact hsum
  · rw [(reaches_accOverflow _ i _).stands (.acc i) (by simp), hset]; exact hsum

/-! ### What has been requested (R129) -/

theorem request_requested (r : ActRt) (c : ActCfg) (v : Int) : (r.request c v).requested = some v := by
  unfold ActRt.request
  dsimp only
  split
  · rfl
  all_goals split <;> rfl

/-- A request of an actuator of the kind and zone stores its value within the limits. -/
theorem jobRequest_requested {s : State} {k : ActKind} {a : ActIx} (hu : (s.cfg.acts[a]).inUse = true)
    (hk : (s.cfg.acts[a]).kind = k) (hz : (s.cfg.acts[a]).zone = z) (v : Int) :
    ((s.jobRequest k z a v).acts[a]).requested = some ((s.cfg.acts[a]).limited v) := by
  unfold State.jobRequest
  rw [if_pos (by rw [hu, hk, hz]; simp), join_requested, State.updAct_same, request_requested]
  rfl

/-- The same request of a list of actuators reaches each of them that is of the kind and zone. -/
theorem foldRequests_requested {k : ActKind} {v : Int} {a : ActIx} (l : List ActIx) : ∀ s : State,
    (s.cfg.acts[a]).inUse = true → (s.cfg.acts[a]).kind = k → (s.cfg.acts[a]).zone = z →
    a ∈ l ∨ (s.acts[a]).requested = some ((s.cfg.acts[a]).limited v) →
    ((l.foldl (fun s a => s.jobRequest k z a v) s).acts[a]).requested = some ((s.cfg.acts[a]).limited v) := by
  induction l with
  | nil => exact fun s _ _ _ h => h.resolve_left List.not_mem_nil
  | cons b l ih =>
    intro s hu hk hz h
    have hc : (s.jobRequest k z b v).cfg = s.cfg := by rw [jobRequest_frame]
    rw [List.foldl_cons, ih (s.jobRequest k z b v) (by rw [hc]; exact hu) (by rw [hc]; exact hk) (by rw [hc]; exact hz), hc]
    rw [hc]
    by_cases hb : a = b
    · subst hb
      exact .inr (jobRequest_requested hu hk hz v)
    · rcases h with h | h
      · exact .inl ((List.mem_cons.1 h).resolve_left hb)
      · exact .inr (by rw [jobRequest_other hb]; exact h)

theorem requestFans_requested (s : State) (z : ZoneIx) (v : Int) : FansRequested s (s.requestFans z v) z v := by
  intro a hu hk hz
  unfold State.requestFans State.requestAll
  exact foldRequests_requested (indices 96) s hu hk hz (.inl (mem_indices a))

theorem requestDrives_requested (s : State) (z : ZoneIx) (v : Int) : DrivesRequested s (s.requestDrives z v) z v :=
  fun _ ha hu hk hz => foldRequests_requested _ s hu hk hz (.inl ha)

/-- Drive requests change actuators and queues alone. -/
theorem requestDrives_frame (s : State) (z : ZoneIx) (v : Int) : s.requestDrives z v =
    { s with acts := (s.requestDrives z v).acts, disp := (s.requestDrives z v).disp } := by
  have hfold (l : List ActIx) : ∀ s : State, l.foldl (fun s a => s.jobRequest .coverDrive z a v) s =
      { s with acts := (l.foldl (fun s a => s.jobRequest .coverDrive z a v) s).acts
               disp := (l.foldl (fun s a => s.jobRequest .coverDrive z a v) s).disp } := by
    induction l with
    | nil => exact fun s => rfl
    | cons a l ih =>
      intro s
      rw [List.foldl_cons, ih, jobRequest_frame]
  exact hfold _ s

/-! ### The purge timer -/

/-- The parts that a change of the purge timer in or out of PURGE_RUN reaches. -/
def purgeParts : List Part := [.purge, .acts .purgeFan, .acc accPurgeRun, .run]

theorem reaches_purgeEnterWait (s : State) : Reaches z [.purge] 0 0 s (s.purgeEnterWait z) := reaches_updPurge s _

theorem reaches_purgeGranted (s : State) : Reaches z purgeParts 1 0 s (s.purgeGranted z) := by
  unfold State.purgeGranted
  exact ((reaches_updPurge s _).trans (reaches_requestFans _ _)).mono (by decide) (by decide) (by decide)

theorem reaches_purgeLeaveRun (s : State) : Reaches z purgeParts 1 0 s (s.purgeLeaveRun z) := by
  unfold State.purgeLeaveRun
  exact (((reaches_requestFans s 0).trans (reaches_offer _ accPurgeRun _)).trans (reaches_updPurge _ _)).mono
    (by decide) (by decide) (by decide)

theorem reaches_purgeWithdrawn (s : State) : Reaches z purgeParts 1 0 s (s.purgeWithdrawn z) := by
  unfold State.purgeWithdrawn
  split
  · dsimp only
    split
    · exact ((reaches_purgeLeaveRun s).trans (reaches_purgeEnterWait _)).mono (by decide) (by decide) (by decide)
    · exact ((reaches_purgeLeaveRun s).trans (reaches_updPurge _ _)).mono (by decide) (by decide) (by decide)
  · exact (Reaches.refl s).mono (by decide) (by decide) (by decide)

theorem reaches_tellPurge (s : State) (l g : Mode) : Reaches z purgeParts 1 0 s (s.tellPurge z l g) := by
  unfold State.tellPurge
  dsimp only
  split
  · exact reaches_purgeGranted s
  · split
    · exact reaches_purgeWithdrawn s
    · exact (Reaches.refl s).mono (by decide) (by decide) (by decide)

/-- The purge timer neither runs, nor waits for a grant, nor is suspended: no decision concerns it (R68, R74). -/
def PurgeRests (s : State) (z : ZoneIx) : Prop := (s.zones[z]).purge.state = .wait ∨ (s.zones[z]).purge.state = .inactive

theorem tellPurge_rests {s : State} (h : PurgeRests s z) (l g : Mode) : s.tellPurge z l g = s := by
  unfold State.tellPurge
  rcases h with h | h <;> simp only [h] <;> simp

theorem purgeLeaveRun_left (s : State) (z : ZoneIx) : PurgeRunLeft s (s.purgeLeaveRun z) z where
  fans a hu hk hz := by
    have hleft : Reaches z [.acc accPurgeRun, .run, .purge] 1 0 (s.requestFans z 0) (s.purgeLeaveRun z) := by
      unfold State.purgeLeaveRun
      exact (reaches_offer _ accPurgeRun _).trans (reaches_updPurge _ _)
    have hcfg := (reaches_requestFans s (z := z) 0).work.acts
    rw [hleft.stands (.acts .purgeFan) (by decide) a (by rw [hcfg]; exact hk)]
    exact requestFans_requested s z 0 a hu hk hz
  account he hr := by
    have hfans : Reaches z [.acts .purgeFan] 0 0 s (s.requestFans z 0) := reaches_requestFans s 0
    have hcfg : (s.requestFans z 0).cfg = s.cfg := hfans.stands .run (by decide)
    have hacc : ((s.requestFans z 0).acct.accs[z])[accPurgeRun] = (s.acct.accs[z])[accPurgeRun] :=
      hfans.stands (.acc accPurgeRun) (by decide)
    have hoffer := offer_accounted (s.requestFans z 0) z accPurgeRun ((s.zones[z]).purge.runCounted / perSecond)
      (by rw [hcfg]; exact he) (by rw [hcfg]; exact hr)
    rw [hacc] at hoffer
    unfold State.purgeLeaveRun
    generalize s.requestFans z 0 = t at hoffer ⊢
    exact hoffer

/-! ### The arbiter -/

/-- The parts that the outputs of a mode reach (R77). -/
def airParts : List Part := [.acts .ahuMode, .acts .supplyFan, .acts .oaDamper]

theorem reaches_airRequest (s : State) (m : Mode) (n : Bool) (d : Int) (a : ActIx) :
    Reaches z airParts 0 0 s (s.airRequest z m n d a) := by
  unfold State.airRequest
  dsimp only
  split
  · exact (reaches_jobRequest s .ahuMode a _).mono (by decide) (by decide) (by decide)
  · exact (reaches_jobRequest s .supplyFan a _).mono (by decide) (by decide) (by decide)
  · exact (reaches_jobRequest s .oaDamper a _).mono (by decide) (by decide) (by decide)
  all_goals exact (Reaches.refl s).mono (by decide) (by decide) (by decide)

theorem reaches_airOutputs (s : State) : Reaches z airParts 0 0 s (s.airOutputs z) :=
  Reaches.foldl _ _ (fun s a _ => reaches_airRequest s _ _ _ a) s

/-- The parts that a decision of the arbiter reaches, with what it tells the purge timer. -/
def decisionParts : List Part := .arb :: purgeParts ++ airParts

theorem reaches_changeMode (s : State) (m : Mode) (c : ModeCause) : Reaches z (.arb :: purgeParts) 1 1 s (s.changeMode z m c) :=
  (((reaches_updArb s _).trans (reaches_appendRing _ _)).trans (reaches_tellPurge _ _ _)).mono
    (by decide) (by decide) (by decide)

theorem changeMode_rests {s : State} (h : PurgeRests s z) (m : Mode) (c : ModeCause) :
    Reaches z [.arb] 0 1 s (s.changeMode z m c) := by
  have hchange : Reaches z [.arb] 0 1 s ((s.updArb z fun r => { r with
      granted := m, grantTime := some s.now, dwell := .seconds (s.cfg.zones[z]).arb.dwell, pending := none
      lastCause := some c }).appendRing z (.ahu (s.zones[z]).arb.granted m c)) :=
    (reaches_updArb s _).trans (reaches_appendRing _ _)
  have hpurge := hchange.stands .purge (by decide)
  unfold State.changeMode
  dsimp only
  rw [tellPurge_rests (by unfold PurgeRests; rw [hpurge]; exact h)]
  exact hchange

/-- The arbiter's record with the choice noted (R67). -/
def State.choiceNoted (s : State) (z : ZoneIx) : State :=
  s.updArb z fun a => { a with
    ventAvailable := s.ventAvailable z, chosen := some ((s.choiceRow z).mode (s.ventAvailable z)), lastDecision := some s.now }

/-- A decision notes the choice, and then notes why nothing changes or changes the mode (R67, R71 to R73). -/
theorem arbitrateMode_cases (s : State) (z : ZoneIx) (r : Bool) :
    (∃ p, s.arbitrateMode z r = (s.choiceNoted z).updArb z fun a => { a with pending := p }) ∨
    ∃ m c, s.arbitrateMode z r = (s.choiceNoted z).changeMode z m c := by
  unfold State.arbitrateMode
  dsimp only
  split
  · exact .inl ⟨none, rfl⟩
  · split
    · exact .inl ⟨some .dwell, rfl⟩
    · split
      · exact .inl ⟨some .hold, rfl⟩
      · exact .inr ⟨_, _, rfl⟩

theorem reaches_choiceNoted (s : State) : Reaches z [.arb] 0 0 s (s.choiceNoted z) := reaches_updArb s _

theorem reaches_arbitrateMode (s : State) (r : Bool) : Reaches z (.arb :: purgeParts) 1 1 s (s.arbitrateMode z r) := by
  rcases arbitrateMode_cases s z r with ⟨p, h⟩ | ⟨m, c, h⟩ <;> rw [h]
  · exact ((reaches_choiceNoted s).trans (reaches_updArb _ _)).mono (by decide) (by decide) (by decide)
  · exact ((reaches_choiceNoted s).trans (reaches_changeMode _ m c)).mono (by decide) (by decide) (by decide)

theorem arbitrateMode_rests {s : State} (h : PurgeRests s z) (r : Bool) : Reaches z [.arb] 0 1 s (s.arbitrateMode z r) := by
  have hnoted : PurgeRests (s.choiceNoted z) z := by
    unfold PurgeRests
    rw [(reaches_choiceNoted s).stands .purge (by decide)]
    exact h
  rcases arbitrateMode_cases s z r with ⟨p, h⟩ | ⟨m, c, h⟩ <;> rw [h]
  · exact ((reaches_choiceNoted s).trans (reaches_updArb _ _)).mono (by decide) (by decide) (by decide)
  · exact ((reaches_choiceNoted s).trans (changeMode_rests hnoted m c)).mono (by decide) (by decide) (by decide)

/-- The outputs follow the decision where the zone is enabled. -/
theorem takeDecision_outputs (s : State) (z : ZoneIx) (r : Bool) :
    Reaches z airParts 0 0 (s.arbitrateMode z r) (s.takeDecision z r) := by
  unfold State.takeDecision
  dsimp only
  split
  · exact reaches_airOutputs _
  · exact (Reaches.refl _).mono (by decide) (by decide) (by decide)

theorem reaches_takeDecision (s : State) (r : Bool) : Reaches z decisionParts 1 1 s (s.takeDecision z r) :=
  (reaches_arbitrateMode s r).trans (takeDecision_outputs s z r)

theorem takeDecision_rests {s : State} (h : PurgeRests s z) (r : Bool) :
    Reaches z (.arb :: airParts) 0 1 s (s.takeDecision z r) :=
  (arbitrateMode_rests h r).trans (takeDecision_outputs s z r)

/-! ### What a decision leaves in the arbiter's record (R67, R71, R73) -/

theorem updArb_arb (s : State) (z : ZoneIx) (f : ArbRt → ArbRt) : ((s.updArb z f).zones[z]).arb = f (s.zones[z]).arb := by
  rw [State.updArb_eq, State.updZone_same]

theorem changeMode_arb (s : State) (z : ZoneIx) (m : Mode) (c : ModeCause) : ((s.changeMode z m c).zones[z]).arb =
    { (s.zones[z]).arb with granted := m, grantTime := some s.now, dwell := .seconds (s.cfg.zones[z]).arb.dwell
                            pending := none, lastCause := some c } := by
  have hrest (t : State) (e : RingEntry) (l : Mode) : Reaches z purgeParts 1 1 t ((t.appendRing z e).tellPurge z l m) :=
    ((reaches_appendRing t e).trans (reaches_tellPurge _ _ _)).mono (by decide) (by decide) (by decide)
  unfold State.changeMode
  exact ((hrest _ _ _).stands .arb (by decide)).trans (updArb_arb ..)

theorem arbitrateMode_decided (s : State) (z : ZoneIx) (r : Bool) :
    ((s.arbitrateMode z r).zones[z]).arb.lastDecision = some s.now := by
  have hnoted : ((s.choiceNoted z).zones[z]).arb.lastDecision = some s.now := by rw [State.choiceNoted, updArb_arb]
  rcases arbitrateMode_cases s z r with ⟨p, h⟩ | ⟨m, c, h⟩
  · rw [h, updArb_arb]
    exact hnoted
  · rw [h, changeMode_arb]
    exact hnoted

theorem takeDecision_arb (s : State) (z : ZoneIx) (r : Bool) :
    ((s.takeDecision z r).zones[z]).arb = ((s.arbitrateMode z r).zones[z]).arb :=
  (takeDecision_outputs s z r).stands .arb (by decide)

theorem takeDecision_decided (s : State) (z : ZoneIx) (r : Bool) :
    ((s.takeDecision z r).zones[z]).arb.lastDecision = some s.now := by
  rw [takeDecision_arb, arbitrateMode_decided]

/-- The mode that the arbiter would choose is the one it has granted. -/
def GrantChosen (s : State) (z : ZoneIx) : Prop := (s.zones[z]).arb.granted = (s.choiceRow z).mode (s.ventAvailable z)

/-- A decision that chooses what is granted changes neither the grant nor its cause (R67). -/
theorem takeDecision_granted {s : State} (h : GrantChosen s z) (r : Bool) :
    ((s.takeDecision z r).zones[z]).arb.granted = (s.zones[z]).arb.granted ∧
    ((s.takeDecision z r).zones[z]).arb.lastCause = (s.zones[z]).arb.lastCause := by
  rw [takeDecision_arb]
  unfold State.arbitrateMode
  dsimp only
  rw [if_pos h.symm, updArb_arb, updArb_arb]
  exact ⟨rfl, rfl⟩

theorem purgeClaims_rests {s : State} (h : PurgeRests s z) : (s.zones[z]).purgeClaims = false := by
  unfold ZoneRt.purgeClaims
  rcases h with h | h <;> rw [h] <;> rfl

/-- The row that chooses while no purge claims the grant (R68). -/
def restRow (enabled crit : Bool) (granted : Mode) (don doff d h : Int) : ChoiceRow :=
  if !enabled then .disabled
  else if crit then .crit
  else if don ≤ d ∨ ((granted = .dry ∨ granted = .vent) ∧ doff ≤ d) then .drying
  else if 0 < h then .heating
  else .none

theorem choiceRow_rests {s : State} (h : PurgeRests s z) : s.choiceRow z =
    restRow (s.enabled z) (s.zones[z]).eval.crit (s.zones[z]).arb.granted (s.cfg.zones[z]).arb.don (s.cfg.zones[z]).arb.doff
      (s.zones[z]).eval.d (s.zones[z]).heat.h := by
  unfold State.choiceRow
  dsimp only
  rw [purgeClaims_rests h]
  rfl

theorem restRow_ne_purge (enabled crit : Bool) (granted : Mode) (don doff d h : Int) :
    restRow enabled crit granted don doff d h ≠ .purge := by
  unfold restRow
  split
  · simp
  · split
    · simp
    · split
      · simp
      · split <;> simp

theorem restRow_ne_disabled (crit : Bool) (granted : Mode) (don doff d h : Int) :
    restRow true crit granted don doff d h ≠ .disabled := by
  unfold restRow
  simp only [Bool.not_true, Bool.false_eq_true, if_false]
  split
  · simp
  · split
    · simp
    · split <;> simp

/-- A grant of the drying row's own modes keeps that row and brings no other to it. -/
theorem restRow_again (enabled crit : Bool) (don doff d h : Int) (vent : Bool) :
    (restRow enabled crit ((restRow enabled crit .purge don doff d h).mode vent) don doff d h).mode vent =
      (restRow enabled crit .purge don doff d h).mode vent := by
  unfold restRow
  cases enabled
  · rfl
  · cases crit
    · by_cases hd : don ≤ d
      · simp [hd]
      · by_cases hh : 0 < h <;> simp [hd, hh, ChoiceRow.mode]
    · rfl

theorem mode_ne_purge {row : ChoiceRow} (h : row ≠ .purge) (vent : Bool) : row.mode vent ≠ .purge := by
  cases row with
  | purge => exact absurd rfl h
  | _ => cases vent <;> decide

theorem changeCause_release {row : ChoiceRow} (h : row ≠ .disabled) : changeCause row .purge true = .purgeEnd := by
  cases row with
  | disabled => exact absurd rfl h
  | _ => rfl

/-- A release takes the grant from a purge that claims it no more, whatever dwell and hold (R71, R72, R75). -/
theorem takeDecision_release {s : State} (he : s.enabled z = true) (hg : (s.zones[z]).arb.granted = .purge)
    (hp : PurgeRests s z) :
    ((s.takeDecision z true).zones[z]).arb.granted = (s.choiceRow z).mode (s.ventAvailable z) ∧
    ((s.takeDecision z true).zones[z]).arb.granted ≠ .purge ∧
    ((s.takeDecision z true).zones[z]).arb.lastCause = some .purgeEnd := by
  have hrow : s.choiceRow z ≠ .purge := by
    rw [choiceRow_rests hp]
    apply restRow_ne_purge
  have hne := mode_ne_purge hrow (s.ventAvailable z)
  have henabled : s.choiceRow z ≠ .disabled := by
    rw [choiceRow_rests hp, he]
    apply restRow_ne_disabled
  have hdwell : dwellPasses (s.choiceRow z) (s.zones[z]).arb true = true := by simp [dwellPasses, leavesPurge, ← hg]
  have hhold : holdPasses (s.zones[z]).held (s.choiceRow z) (s.zones[z]).arb true = true := by
    simp [holdPasses, leavesPurge, ← hg]
  rw [takeDecision_arb]
  unfold State.arbitrateMode
  dsimp only
  rw [if_neg (by rw [hg]; exact hne), hdwell, hhold]
  simp only [Bool.not_true, Bool.false_eq_true, if_false]
  rw [changeMode_arb, hg, changeCause_release henabled]
  exact ⟨rfl, hne, rfl⟩

/-- What the choice reads besides the grant. -/
structure SameChoice (z : ZoneIx) (s t : State) : Prop where
  eval : (t.zones[z]).eval = (s.zones[z]).eval
  heat : (t.zones[z]).heat = (s.zones[z]).heat
  purge : (t.zones[z]).purge = (s.zones[z]).purge
  cover : (t.zones[z]).cover = (s.zones[z]).cover
  cfg : t.cfg.zones = s.cfg.zones

theorem Reaches.sameChoice {parts : List Part} {n r : Nat} (h : Reaches z parts n r s t) (hp : .purge ∉ parts)
    (hc : .cover ∉ parts) : SameChoice z s t :=
  ⟨h.work.eval z, h.work.heat z, h.stands .purge hp, h.stands .cover hc, h.work.zonesCfg⟩

theorem SameChoice.vent (h : SameChoice z s t) : t.ventAvailable z = s.ventAvailable z := by
  unfold State.ventAvailable
  dsimp only
  rw [h.eval, h.heat, h.cfg]

theorem SameChoice.enabled (h : SameChoice z s t) : t.enabled z = s.enabled z := by
  unfold State.enabled
  rw [h.cfg]

theorem SameChoice.rests (h : SameChoice z s t) (hp : PurgeRests s z) : PurgeRests t z := by
  unfold PurgeRests
  rw [h.purge]
  exact hp

/-- Work that leaves the arbiter's record alone keeps the choice. -/
theorem GrantChosen.stands (h : SameChoice z s t) (ha : (t.zones[z]).arb = (s.zones[z]).arb) (hg : GrantChosen s z) :
    GrantChosen t z := by
  have hrow : t.choiceRow z = s.choiceRow z := by
    unfold State.choiceRow ZoneRt.purgeClaims
    dsimp only
    rw [h.enabled, h.eval, h.heat, h.purge, h.cover, h.cfg, ha]
  unfold GrantChosen
  rw [ha, hrow, h.vent]
  exact hg

/-- The mode chosen at the release of a purge is chosen again: the new grant brings a higher row only to the mode it has. -/
theorem grantChosen_of_release (h : SameChoice z s t) (hp : PurgeRests s z) (hg : (s.zones[z]).arb.granted = .purge)
    (ht : (t.zones[z]).arb.granted = (s.choiceRow z).mode (s.ventAvailable z)) : GrantChosen t z := by
  unfold GrantChosen
  rw [choiceRow_rests hp, hg] at ht
  rw [h.vent, choiceRow_rests (h.rests hp), h.enabled, h.eval, h.heat, h.cfg, ht]
  exact (restRow_again ..).symm

/-! ### The covers leave COVERED (R102) -/

/-- The purge timer at rest. -/
def PurgeRt.resting : PurgeRt := { state := .inactive, remainingWait := 0, remainingRun := 0, runCounted := 0, runStart := none }

theorem purgeInactive_idle {s : State} (h : (s.zones[z]).purge.state ≠ .run) :
    s.purgeInactive z = s.updPurge z fun _ => PurgeRt.resting := by
  unfold State.purgeInactive
  rw [if_neg h]
  rfl

/-- A run is left, the purge timer rests, and an enabled zone decides about the grant. -/
theorem purgeInactive_run {s : State} (h : (s.zones[z]).purge.state = .run) : s.purgeInactive z =
    if ((s.purgeLeaveRun z).updPurge z fun _ => PurgeRt.resting).enabled z then
      ((s.purgeLeaveRun z).updPurge z fun _ => PurgeRt.resting).takeDecision z true
    else (s.purgeLeaveRun z).updPurge z fun _ => PurgeRt.resting := by
  unfold State.purgeInactive
  rw [if_pos h]
  rfl

theorem updPurge_purge (s : State) (z : ZoneIx) (f : PurgeRt → PurgeRt) :
    ((s.updPurge z f).zones[z]).purge = f (s.zones[z]).purge := by
  rw [State.updPurge_eq, State.updZone_same]

/-- What follows the run's end reaches the arbiter alone. -/
theorem purgeInactive_decision {s : State} (h : (s.zones[z]).purge.state = .run) : Reaches z (.arb :: airParts) 0 1
    ((s.purgeLeaveRun z).updPurge z fun _ => PurgeRt.resting) (s.purgeInactive z) := by
  rw [purgeInactive_run h]
  split
  · exact takeDecision_rests (.inr (by rw [updPurge_purge]; rfl)) true
  · exact (Reaches.refl _).mono (List.nil_subset _) (by decide) (by decide)

theorem reaches_purgeInactive (s : State) : Reaches z decisionParts 1 1 s (s.purgeInactive z) := by
  by_cases h : (s.zones[z]).purge.state = .run
  · exact (((reaches_purgeLeaveRun s).trans (reaches_updPurge _ _)).trans (purgeInactive_decision h)).mono
      (by decide) (by decide) (by decide)
  · rw [purgeInactive_idle h]
    exact (reaches_updPurge s _).mono (by decide) (by decide) (by decide)

theorem purgeInactive_purge (s : State) (z : ZoneIx) : ((s.purgeInactive z).zones[z]).purge = PurgeRt.resting := by
  by_cases h : (s.zones[z]).purge.state = .run
  · exact ((purgeInactive_decision h).stands .purge (by decide)).trans (updPurge_purge ..)
  · rw [purgeInactive_idle h, updPurge_purge]

/-- A run that has been left stays left through work that reaches neither the fans nor the account. -/
theorem PurgeRunLeft.between {parts parts' : List Part} {n n' r r' : Nat} {s' t' : State} (h : PurgeRunLeft s' t' z)
    (hs : Reaches z parts n r s s') (ht : Reaches z parts' n' r' t' t) (hrun : .run ∉ parts) (hpurge : .purge ∉ parts)
    (hacc : .acc accPurgeRun ∉ parts) (hacc' : .acc accPurgeRun ∉ parts') (hfan' : .acts .purgeFan ∉ parts')
    (hw : OneZoneWork z s' t') : PurgeRunLeft s t z where
  fans a hu hk hz := by
    have hcfg : s'.cfg = s.cfg := hs.stands .run hrun
    have := h.fans a (by rw [hcfg]; exact hu) (by rw [hcfg]; exact hk) (by rw [hcfg]; exact hz)
    rw [ht.stands (.acts .purgeFan) hfan' a (by rw [hw.acts, hcfg]; exact hk), this, hcfg]
  account he hr := by
    have hcfg : s'.cfg = s.cfg := hs.stands .run hrun
    have hp : (s'.zones[z]).purge = (s.zones[z]).purge := hs.stands .purge hpurge
    have ha : (s'.acct.accs[z])[accPurgeRun] = (s.acct.accs[z])[accPurgeRun] := hs.stands (.acc accPurgeRun) hacc
    have ht' : (t.acct.accs[z])[accPurgeRun] = (t'.acct.accs[z])[accPurgeRun] := ht.stands (.acc accPurgeRun) hacc'
    have := h.account (by rw [hcfg]; exact he) (by rw [hcfg]; exact hr)
    rw [hp] at this
    exact ((congrArg Accumulator.value ht').trans this).trans (by
      rw [show (s'.acct.accs[z])[(3 : AccIx)] = (s.acct.accs[z])[(3 : AccIx)] from ha])

theorem purgeInactive_left {s : State} (h : (s.zones[z]).purge.state = .run) : PurgeRunLeft s (s.purgeInactive z) z :=
  (purgeLeaveRun_left s z).between (Reaches.refl s) ((reaches_updPurge _ _).trans (purgeInactive_decision h))
    List.not_mem_nil List.not_mem_nil List.not_mem_nil (by decide) (by decide) (reaches_purgeLeaveRun s).work

/-- A run's end releases a PURGE grant, and the mode granted instead would be chosen again. -/
theorem purgeInactive_release {s : State} (h : (s.zones[z]).purge.state = .run) (he : s.enabled z = true)
    (hg : (s.zones[z]).arb.granted = .purge) : GrantChosen (s.purgeInactive z) z ∧
      ((s.purgeInactive z).zones[z]).arb.granted ≠ .purge ∧
      ((s.purgeInactive z).zones[z]).arb.lastCause = some .purgeEnd := by
  have hleft : Reaches z purgeParts 1 0 s ((s.purgeLeaveRun z).updPurge z fun _ => PurgeRt.resting) :=
    ((reaches_purgeLeaveRun s).trans (reaches_updPurge _ _)).mono (by decide) (by decide) (by decide)
  have hp : PurgeRests ((s.purgeLeaveRun z).updPurge z fun _ => PurgeRt.resting) z := .inr (by rw [updPurge_purge]; rfl)
  have harb := hleft.stands .arb (by decide)
  have henabled : ((s.purgeLeaveRun z).updPurge z fun _ => PurgeRt.resting).enabled z = true := by
    unfold State.enabled
    rw [hleft.work.zonesCfg]
    exact he
  have hsame := (purgeInactive_decision h).sameChoice (by decide) (by decide)
  rw [purgeInactive_run h, if_pos henabled] at hsame ⊢
  generalize (s.purgeLeaveRun z).updPurge z (fun _ => PurgeRt.resting) = left at *
  have hgranted : (left.zones[z]).arb.granted = .purge := (congrArg ArbRt.granted harb).trans hg
  obtain ⟨hmode, hne, hcause⟩ := takeDecision_release henabled hgranted hp
  exact ⟨grantChosen_of_release hsame hp hgranted hmode, hne, hcause⟩

/-! ### Scenes -/

/-- The parts that the cues and fades of a take reach. -/
def cueParts : List Part := [.scene, .acts .dimmer]

theorem reaches_beginFade (s : State) (c : Cue) (a : ActIx) : Reaches z cueParts 0 0 s (s.beginFade z c a) := by
  have hrequest : Reaches z cueParts 0 0 s (s.jobRequest .dimmer z a c.level) :=
    (reaches_jobRequest s .dimmer a _).mono (by decide) (by decide) (by decide)
  unfold State.beginFade
  dsimp only
  split
  · exact hrequest
  · split
    · exact hrequest
    · refine Reaches.mono (parts := [.scene]) (n := 0) (r := 0) ?_ (by decide) (by decide) (by decide)
      exact reaches_updScene s _ (fun _ => rfl) (fun _ => rfl) (fun _ => rfl) fun _ => rfl

theorem reaches_updTouched (s : State) (a : ActIx) (f : Touched → Touched) :
    Reaches z [.scene] 0 0 s (s.updScene z fun e => e.updTouched a f) :=
  reaches_updScene s _ (fun _ => rfl) (fun _ => rfl) (fun _ => rfl) fun _ => rfl

theorem reaches_claim (s : State) (i : Nat) (c : Cue) (a : ActIx) : Reaches z cueParts 0 0 s (s.claim z i c a) := by
  have hnone : Reaches z cueParts 0 0 s s := (Reaches.refl s).mono (by decide) (by decide) (by decide)
  have hclaim (f : Touched → Touched) : Reaches z cueParts 0 0 s ((s.updScene z fun e => e.updTouched a f).beginFade z c a) :=
    ((reaches_updTouched s a f).trans (reaches_beginFade _ c a)).mono (by decide) (by decide) (by decide)
  unfold State.claim
  split
  · exact hnone
  · dsimp only
    split
    · split
      · exact hnone
      · exact hclaim _
    · split
      · exact hnone
      · exact hclaim _

theorem reaches_restStepTimer (s : State) : Reaches z [.scene] 0 0 s (s.restStepTimer z) :=
  reaches_updScene s _ (fun e => by cases e.fading <;> rfl) (fun e => by cases e.fading <;> rfl)
    (fun e => by cases e.fading <;> rfl) fun e => by cases e.fading <;> rfl

theorem reaches_updCues (s : State) (f : List CueRun → List CueRun) :
    Reaches z [.scene] 0 0 s (s.updScene z fun e => { e with cues := f e.cues }) :=
  reaches_updScene s _ (fun _ => rfl) (fun _ => rfl) (fun _ => rfl) fun _ => rfl

theorem reaches_startCue (s : State) (i : Nat) : Reaches z cueParts 0 0 s (s.startCue z i) := by
  unfold State.startCue
  split
  · have hclaims (t : State) (c : Cue) (l : List ActIx) : Reaches z cueParts 0 0 t (l.foldl (fun s a => s.claim z i c a) t) :=
      Reaches.foldl _ _ (fun s a _ => reaches_claim s i c a) t
    exact (((reaches_updCues s fun l => l.modify i fun r => { r with status := .started }).trans (hclaims _ _ _)).trans
      (reaches_restStepTimer _)).mono (by decide) (by decide) (by decide)
  · exact (Reaches.refl s).mono (by decide) (by decide) (by decide)

theorem reaches_startDueCues (s : State) : Reaches z cueParts 0 0 s (s.startDueCues z) := by
  unfold State.startDueCues
  refine Reaches.foldl _ _ (fun s i _ => ?_) s
  split
  · exact reaches_startCue s i
  · exact (Reaches.refl s).mono (by decide) (by decide) (by decide)

theorem reaches_sceneJudge (s : State) : Reaches z [.scene] 0 0 s (s.sceneJudge z).1 := by
  have hfound (state : SceneState) (degraded : Option ActIx) :
      Reaches z [.scene] 0 0 s (s.updScene z fun e => { e with state := state, degraded := degraded }) :=
    reaches_updScene s _ (fun _ => rfl) (fun _ => rfl) (fun _ => rfl) fun _ => rfl
  unfold State.sceneJudge
  split
  · exact hfound _ _
  · split
    · exact hfound _ _
    · exact hfound _ _

theorem reaches_judgeIfDone (s : State) : Reaches z [.scene] 0 0 s (s.judgeIfDone z).1 := by
  unfold State.judgeIfDone
  dsimp only
  split
  · exact reaches_sceneJudge s
  · exact (Reaches.refl s).mono (by decide) (by decide) (by decide)

/-- The zone's record of a take, before the ring and the count. -/
def State.takeNoted (s : State) (z : ZoneIx) (n : SceneIx) (o : TakeOrigin) : State :=
  s.updScene z fun e => { e with
    scene := some n, origin := some o, takeTime := some s.now, cues := s.takeCues z n
    touched := (firstAppearances ((s.takeCues z n).flatMap CueRun.channels)).map fun a =>
      { act := a, owner := none, fade := none, rangeRefused := false }
    stepTimer := .stopped, state := .running }

theorem takeRecord_eq (s : State) (z : ZoneIx) (n : SceneIx) (o : TakeOrigin) : s.takeRecord z n o =
    ((s.takeNoted z n o).appendRing z (.scene (s.zones[z]).scene.scene n o)).offer z accSceneChanges 1 := rfl

theorem takeNoted_scene (s : State) (z : ZoneIx) (n : SceneIx) (o : TakeOrigin) :
    ((s.takeNoted z n o).zones[z]).scene.scene = some n ∧ ((s.takeNoted z n o).zones[z]).scene.origin = some o ∧
      ((s.takeNoted z n o).zones[z]).scene.takeTime = some s.now := by
  rw [State.takeNoted, State.updScene_eq, State.updZone_same]
  exact ⟨rfl, rfl, rfl⟩

theorem reaches_takeNoted (s : State) (n : SceneIx) (o : TakeOrigin) : Reaches z [.scene, .take] 0 0 s (s.takeNoted z n o) := by
  unfold State.takeNoted
  rw [State.updScene_eq]
  refine reaches_updZone _ rfl rfl rfl fun p hp => ?_
  cases p <;> simp_all [Part.Kept]

/-- The cues that start with the take, and its judgement. -/
theorem takeScene_cues (s : State) (z : ZoneIx) (n : SceneIx) (o : TakeOrigin) :
    Reaches z cueParts 0 0 (s.takeRecord z n o) (s.takeScene z n o).1 := by
  unfold State.takeScene
  dsimp only
  split
  · exact (reaches_judgeIfDone _).mono (by decide) (by decide) (by decide)
  · exact ((reaches_startDueCues _).trans (reaches_judgeIfDone _)).mono (by decide) (by decide) (by decide)

/-- The parts that a take reaches. -/
def sceneParts : List Part := [.scene, .take, .acts .dimmer, .acc accSceneChanges, .run]

theorem reaches_takeScene (s : State) (n : SceneIx) (o : TakeOrigin) : Reaches z sceneParts 1 1 s (s.takeScene z n o).1 := by
  have hrecord : Reaches z [.scene, .take, .acc accSceneChanges, .run] 1 1 s (s.takeRecord z n o) :=
    ((reaches_takeNoted s n o).trans (reaches_appendRing _ _)).trans (reaches_offer _ accSceneChanges 1)
  exact (hrecord.trans (takeScene_cues s z n o)).mono (by decide) (by decide) (by decide)

theorem takeRecord_taken (s : State) (z : ZoneIx) (n : SceneIx) (o : TakeOrigin) :
    SceneTaken s (s.takeRecord z n o) z (some n) o := by
  intro m hm
  cases hm
  have hring := reaches_appendRing (z := z) (s.takeNoted z n o) (.scene (s.zones[z]).scene.scene n o)
  have hnoted := (reaches_takeNoted s n o).trans hring
  have hfields := takeNoted_scene s z n o
  rw [takeRecord_eq]
  generalize (s.takeNoted z n o).appendRing z (.scene (s.zones[z]).scene.scene n o) = t at hring hnoted ⊢
  have hoffer := reaches_offer (z := z) t accSceneChanges 1
  obtain ⟨hn, ho, ht⟩ := hfields
  obtain ⟨hn', ho', ht'⟩ := Part.stands_trans hring.work.acts (hring.stands .take (by decide)) (hoffer.stands .take (by decide))
  have hcfg : t.cfg = s.cfg := hnoted.stands .run (by decide)
  have hacc : (t.acct.accs[z])[accSceneChanges] = (s.acct.accs[z])[accSceneChanges] :=
    hnoted.stands (.acc accSceneChanges) (by decide)
  refine ⟨hn'.trans hn, ho'.trans ho, ht'.trans ht, fun he hr => ?_⟩
  have hcount := offer_accounted t z accSceneChanges 1 (by rw [hcfg]; exact he) (by rw [hcfg]; exact hr)
  rw [hacc] at hcount
  exact hcount

/-- What was taken stays taken and counted through work that reaches neither. -/
theorem SceneTaken.between {parts parts' : List Part} {n n' r r' : Nat} {s' t' : State} {o : Option SceneIx} {origin : TakeOrigin}
    (h : SceneTaken s' t' z o origin) (hs : Reaches z parts n r s s') (ht : Reaches z parts' n' r' t' t)
    (hrun : .run ∉ parts) (hacc : .acc accSceneChanges ∉ parts) (hacc' : .acc accSceneChanges ∉ parts')
    (htake : .take ∉ parts') : SceneTaken s t z o origin := by
  intro m hm
  obtain ⟨hscene, horigin, htime, haccounted⟩ := h m hm
  obtain ⟨hscene', horigin', htime'⟩ := ht.stands .take htake
  refine ⟨hscene'.trans hscene, horigin'.trans horigin, htime'.trans (htime.trans (by rw [hs.work.now])), fun he hr => ?_⟩
  have hcfg : s'.cfg = s.cfg := hs.stands .run hrun
  have ha : (s'.acct.accs[z])[accSceneChanges] = (s.acct.accs[z])[accSceneChanges] := hs.stands (.acc accSceneChanges) hacc
  have ht' : (t.acct.accs[z])[accSceneChanges] = (t'.acct.accs[z])[accSceneChanges] := ht.stands (.acc accSceneChanges) hacc'
  exact (congrArg Accumulator.value ht').trans ((haccounted (by rw [hcfg]; exact he) (by rw [hcfg]; exact hr)).trans (by
    rw [show (s'.acct.accs[z])[(5 : AccIx)] = (s.acct.accs[z])[(5 : AccIx)] from ha]))

theorem takeScene_taken (s : State) (z : ZoneIx) (n : SceneIx) (o : TakeOrigin) :
    SceneTaken s (s.takeScene z n o).1 z (some n) o :=
  (takeRecord_taken s z n o).between (Reaches.refl s) (takeScene_cues s z n o) List.not_mem_nil List.not_mem_nil
    (by decide) (by decide)

end Sys2Proof.Machine
end

section
/-! SUPPORT. A change of the cover sequencer's state, step by step in the order of R86, and what it leaves in the zone. -/

namespace Sys2Proof.Machine

variable {z : ZoneIx} {s t u : State} {next : CoverState} {cause : CoverCause} {index : Nat}

/-! ### The steps of a change (R86) -/

/-- The zone's record with the new state of the covers. -/
def State.coverEntered (s : State) (z : ZoneIx) (next : CoverState) (cause : CoverCause) : State :=
  s.updZone z fun r => { r with
    cover := r.cover.enter (s.cfg.zones[z]).cover r.held (s.formDrives z) next cause
    scene := { r.scene with coverWork := next.isWork } }

/-- With the ring's record of the change. -/
def State.coverRecorded (s : State) (z : ZoneIx) (next : CoverState) (cause : CoverCause) : State :=
  (s.coverEntered z next cause).appendRing z (.cover (s.zones[z]).cover.state next cause)

/-- With the drives requested and the purge timer told. -/
def State.coverPurged (s : State) (z : ZoneIx) (next : CoverState) (cause : CoverCause) : State :=
  ((s.coverRecorded z next cause).coverDriveStep z next).coverPurgeStep z (s.zones[z]).cover.state next

/-- With the scene taken and the notice raised. -/
def State.coverNoticed (s : State) (z : ZoneIx) (next : CoverState) (cause : CoverCause) (index : Nat) : State :=
  ((s.coverPurged z next cause).coverSceneStep z next).coverNoticeStep z (s.zones[z]).cover.state next cause index

/-- A change that is no disabling ends with the arbiter's decision. -/
theorem coverChange_eq (h : next ≠ .disabled) : s.coverChange z next cause index =
    (s.coverNoticed z next cause index).takeDecision z ((s.zones[z]).cover.state == .covered) := by
  unfold State.coverChange
  exact if_neg h

theorem reaches_coverEntered (s : State) (z : ZoneIx) (next : CoverState) (cause : CoverCause) :
    Reaches z [.cover, .scene, .coverWork] 0 0 s (s.coverEntered z next cause) := by
  refine reaches_updZone _ rfl rfl rfl fun p hp => ?_
  cases p <;> simp_all [Part.Kept]

theorem coverEntered_cover (s : State) (z : ZoneIx) (next : CoverState) (cause : CoverCause) :
    ((s.coverEntered z next cause).zones[z]).cover =
      (s.zones[z]).cover.enter (s.cfg.zones[z]).cover (s.zones[z]).held (s.formDrives z) next cause := by
  rw [State.coverEntered, State.updZone_same]

theorem coverEntered_scene (s : State) (z : ZoneIx) (next : CoverState) (cause : CoverCause) :
    ((s.coverEntered z next cause).zones[z]).scene = { (s.zones[z]).scene with coverWork := next.isWork } := by
  rw [State.coverEntered, State.updZone_same]

theorem reaches_coverDriveStep (s : State) (z : ZoneIx) (next : CoverState) :
    Reaches z [.acts .coverDrive] 0 0 s (s.coverDriveStep z next) := by
  have hnone : Reaches z [.acts .coverDrive] 0 0 s s := (Reaches.refl s).mono (by decide) (by decide) (by decide)
  cases next with
  | deploying => exact reaches_requestDrives s _
  | retracting => exact reaches_requestDrives s _
  | _ => exact hnone

theorem coverDriveStep_rest (s : State) (z : ZoneIx) (h : next.isMotion = false) : s.coverDriveStep z next = s := by
  cases next with
  | deploying => cases h
  | retracting => cases h
  | _ => rfl

theorem reaches_coverPurgeStep (s : State) (z : ZoneIx) (left next : CoverState) :
    Reaches z decisionParts 1 1 s (s.coverPurgeStep z left next) := by
  unfold State.coverPurgeStep
  split
  · exact (reaches_purgeEnterWait s).mono (by decide) (by decide) (by decide)
  · split
    · exact reaches_purgeInactive s
    · exact (Reaches.refl s).mono (by decide) (by decide) (by decide)

/-- Where the covers do not leave COVERED, the purge timer at most begins its wait. -/
theorem coverPurgeStep_stays (s : State) (z : ZoneIx) {left next : CoverState} (h : left ≠ .covered ∨ next = .covered) :
    Reaches z [.purge] 0 0 s (s.coverPurgeStep z left next) := by
  unfold State.coverPurgeStep
  split
  · exact reaches_purgeEnterWait s
  · rw [if_neg (h.resolve_right ‹_›)]
    exact (Reaches.refl s).mono (by decide) (by decide) (by decide)

theorem reaches_coverSceneStep (s : State) (z : ZoneIx) (next : CoverState) :
    Reaches z sceneParts 1 1 s (s.coverSceneStep z next) := by
  unfold State.coverSceneStep
  split
  · exact reaches_takeScene s _ _
  · exact (Reaches.refl s).mono (by decide) (by decide) (by decide)

theorem reaches_coverNoticeStep (s : State) (z : ZoneIx) (left next : CoverState) (cause : CoverCause) (index : Nat) :
    Reaches z [] 1 0 s (s.coverNoticeStep z left next cause index) := by
  have hnone : Reaches z [] 1 0 s s := (Reaches.refl s).mono (by decide) (by decide) (by decide)
  cases next with
  | covered => exact reaches_raise s _ _ _
  | openIdle => exact reaches_raise s _ _ _
  | fault => exact reaches_raise s _ _ _
  | _ => exact hnone

/-- The parts that a change reaches when the record stands. -/
def changeParts : List Part := decisionParts ++ sceneParts

theorem coverNoticed_of_purged (s : State) (z : ZoneIx) (next : CoverState) (cause : CoverCause) (index : Nat) :
    Reaches z sceneParts 2 1 (s.coverPurged z next cause) (s.coverNoticed z next cause index) :=
  ((reaches_coverSceneStep _ z next).trans (reaches_coverNoticeStep _ z _ next cause index)).mono
    (by decide) (by decide) (by decide)

theorem coverChange_of_purged (h : next ≠ .disabled) : Reaches z changeParts 3 2 (s.coverPurged z next cause)
    (s.coverChange z next cause index) := by
  rw [coverChange_eq h]
  exact ((coverNoticed_of_purged s z next cause index).trans (reaches_takeDecision _ _)).mono (by decide) (by decide) (by decide)

theorem coverChange_of_recorded (h : next ≠ .disabled) : Reaches z (.acts .coverDrive :: changeParts) 4 3
    (s.coverRecorded z next cause) (s.coverChange z next cause index) :=
  (((reaches_coverDriveStep _ z next).trans (reaches_coverPurgeStep _ z _ next)).trans (coverChange_of_purged h)).mono
    (by decide) (by decide) (by decide)

theorem reaches_coverRecorded (s : State) (z : ZoneIx) (next : CoverState) (cause : CoverCause) :
    Reaches z [.cover, .scene, .coverWork] 0 1 s (s.coverRecorded z next cause) :=
  (reaches_coverEntered s z next cause).trans (reaches_appendRing _ _)

theorem coverRecorded_of_entered (s : State) (z : ZoneIx) (next : CoverState) (cause : CoverCause) :
    Reaches z [] 0 1 (s.coverEntered z next cause) (s.coverRecorded z next cause) := reaches_appendRing _ _

/-! ### What every change leaves (R85, R86) -/

theorem coverChange_cover (h : next ≠ .disabled) : ((s.coverChange z next cause index).zones[z]).cover =
    (s.zones[z]).cover.enter (s.cfg.zones[z]).cover (s.zones[z]).held (s.formDrives z) next cause :=
  (((coverRecorded_of_entered s z next cause).trans (coverChange_of_recorded h)).stands .cover (by decide)).trans
    (coverEntered_cover ..)

theorem coverChange_coverWork (h : next ≠ .disabled) :
    ((s.coverChange z next cause index).zones[z]).scene.coverWork = next.isWork :=
  (((coverRecorded_of_entered s z next cause).trans (coverChange_of_recorded h)).stands .coverWork (by decide)).trans
    (congrArg SceneRt.coverWork (coverEntered_scene ..))

theorem coverChange_recorded (h : next ≠ .disabled) (hf : s.acct.frozen = false) :
    { time := s.now, zone := z, entry := .cover (s.zones[z]).cover.state next cause } ∈
      (s.coverChange z next cause index).acct.ring := by
  have hnew : Recent { time := s.now, zone := z, entry := .cover (s.zones[z]).cover.state next cause } 0
      (s.coverRecorded z next cause).acct.ring := recent_appendRing (s := s.coverEntered z next cause) hf z _
  obtain ⟨older, younger, hring, _⟩ := (coverChange_of_recorded h).ring _ 0 hnew (by decide)
  rw [hring]
  simp

theorem coverChange_decided (h : next ≠ .disabled) :
    ((s.coverChange z next cause index).zones[z]).arb.lastDecision = some s.now := by
  rw [coverChange_eq h, takeDecision_decided]
  exact congrArg some (((reaches_coverRecorded s z next cause).trans (reaches_coverDriveStep _ z next)).trans
    ((reaches_coverPurgeStep _ z _ next).trans (coverNoticed_of_purged s z next cause index))).work.now

/-- A change that raises a notice raises it behind at most two others. -/
theorem coverChange_noticed (h : next ≠ .disabled) {kind : NoticeKind} {detail : List Byte}
    (hraise : ∀ t : State, t.coverNoticeStep z (s.zones[z]).cover.state next cause index = t.raise kind (zoneByte z) detail) :
    Noticed s (s.coverChange z next cause index) kind z detail := by
  intro hlen
  have hbefore := ((reaches_coverRecorded s z next cause).trans (reaches_coverDriveStep _ z next)).trans
    ((reaches_coverPurgeStep _ z (s.zones[z]).cover.state next).trans (reaches_coverSceneStep _ z next))
  obtain ⟨l, hl, hcount⟩ := hbefore.notices
  have hmem := mem_raise (s := (s.coverPurged z next cause).coverSceneStep z next) (by
    show ((((s.coverRecorded z next cause).coverDriveStep z next).coverPurgeStep z (s.zones[z]).cover.state next).coverSceneStep
      z next).mgmt.notices.length < 8
    rw [hl, List.length_append]; omega) kind (zoneByte z) detail
  rw [← hraise] at hmem
  obtain ⟨l', hl', _⟩ := (reaches_takeDecision (z := z) (s.coverNoticed z next cause index)
    ((s.zones[z]).cover.state == .covered)).notices
  rw [coverChange_eq h, hl']
  refine List.mem_append_left _ ?_
  have hnow : ((s.coverPurged z next cause).coverSceneStep z next).now = s.now := hbefore.work.now
  rw [hnow] at hmem
  exact hmem

/-- The scene that a new state calls for is taken where no purge ends before it. -/
theorem coverChange_scene (h : next ≠ .disabled) (hstay : (s.zones[z]).cover.state ≠ .covered ∨ next = .covered)
    {scene : Option SceneIx} {origin : TakeOrigin}
    (hscene : (s.cfg.zones[z]).cover.sceneOf next = scene.map fun n => (n, origin)) :
    SceneTaken s (s.coverChange z next cause index) z scene origin := by
  have hbefore : Reaches z [.cover, .scene, .coverWork, .acts .coverDrive, .purge] 0 1 s (s.coverPurged z next cause) :=
    ((reaches_coverRecorded s z next cause).trans (reaches_coverDriveStep _ z next)).trans (coverPurgeStep_stays _ z hstay)
  cases scene with
  | none => nofun
  | some n =>
    have htaken : (s.coverPurged z next cause).coverSceneStep z next = ((s.coverPurged z next cause).takeScene z n origin).1 := by
      unfold State.coverSceneStep
      rw [hbefore.work.zonesCfg, hscene]
      rfl
    have hafter : Reaches z decisionParts 2 1 ((s.coverPurged z next cause).takeScene z n origin).1
        (s.coverChange z next cause index) := by
      rw [coverChange_eq h, ← htaken]
      exact (reaches_coverNoticeStep _ z _ next cause index).trans (reaches_takeDecision _ _)
    exact (takeScene_taken _ z n origin).between hbefore hafter (by decide) (by decide) (by decide) (by decide)

/-- A change to a state of rest (R85, R86). -/
theorem coverChange_rests (h : next = .covered ∨ next = .openIdle ∨ next = .fault) :
    CoverRests s (s.coverChange z next cause index) z next cause.reason cause := by
  have hn : next ≠ .disabled := by rcases h with rfl | rfl | rfl <;> decide
  refine ⟨zoneWork_coverChange s z next cause index rfl, ?_, ?_, coverChange_recorded hn, coverChange_decided hn⟩
  · rw [coverChange_cover hn]
    rcases h with rfl | rfl | rfl <;> simp [CoverRt.enter, CoverState.isMotion, CoverState.isPrep]
  · rw [coverChange_coverWork hn]
    rcases h with rfl | rfl | rfl <;> rfl

/-! ### COVERED and OPEN_IDLE (R86, R87, R91, R99) -/

/-- Entering COVERED begins the purge wait, and no later step of the change concerns it. -/
theorem coverChange_wait : ((s.coverChange z .covered cause index).zones[z]).purge = { (s.zones[z]).purge with
    state := .wait, remainingWait := (s.cfg.zones[z]).cover.waitA * 60 * 1000, remainingRun := 0, runStart := none } := by
  have hbefore : Reaches z [.cover, .scene, .coverWork, .acts .coverDrive] 0 1 s
      ((s.coverRecorded z .covered cause).coverDriveStep z .covered) :=
    (reaches_coverRecorded s z .covered cause).trans (reaches_coverDriveStep _ z .covered)
  have hwait : ((s.coverPurged z .covered cause).zones[z]).purge = { (s.zones[z]).purge with
      state := .wait, remainingWait := (s.cfg.zones[z]).cover.waitA * 60 * 1000, remainingRun := 0, runStart := none } := by
    have hpurge := hbefore.stands .purge (by decide)
    have hcfg := hbefore.work.zonesCfg
    unfold State.coverPurged State.coverPurgeStep State.purgeEnterWait
    rw [if_pos rfl, updPurge_purge, hpurge]
    unfold State.purgeWaitA
    rw [hcfg]
    rfl
  have hnoticed := coverNoticed_of_purged s z .covered cause index
  have hrests : PurgeRests (s.coverNoticed z .covered cause index) z := by
    unfold PurgeRests
    rw [hnoticed.stands .purge (by decide), hwait]
    exact .inl rfl
  rw [coverChange_eq (by decide), (takeDecision_rests hrests _).stands .purge (by decide), hnoticed.stands .purge (by decide)]
  exact hwait

theorem coverChange_closed (s : State) (z : ZoneIx) (cause : CoverCause) (index : Nat) (hc : cause.reason = none) :
    CoversClosed s (s.coverChange z .covered cause index) z cause where
  rests := hc ▸ coverChange_rests (.inl rfl)
  purge := coverChange_wait
  scene := coverChange_scene (by decide) (.inr rfl) rfl
  notice := coverChange_noticed (by decide) fun _ => rfl

theorem coverChange_opened (s : State) (z : ZoneIx) (cause : CoverCause) (index : Nat) (hc : cause.reason = none)
    (hleft : (s.zones[z]).cover.state ≠ .covered) : CoversOpened s (s.coverChange z .openIdle cause index) z cause where
  rests := hc ▸ coverChange_rests (.inr (.inl rfl))
  scene := coverChange_scene (by decide) (.inl hleft) rfl
  notice := coverChange_noticed (by decide) fun _ => rfl

/-! ### Out of COVERED (R75, R102) -/

/-- A change out of COVERED, other than by disabling, ends the purge and releases its grant. -/
theorem coverChange_leaves (hleft : (s.zones[z]).cover.state = .covered) (hc : next ≠ .covered) (hd : next ≠ .disabled) :
    LeavesCovered s (s.coverChange z next cause index) z := by
  have hdriven : Reaches z [.cover, .scene, .coverWork, .acts .coverDrive] 0 1 s
      ((s.coverRecorded z next cause).coverDriveStep z next) :=
    (reaches_coverRecorded s z next cause).trans (reaches_coverDriveStep _ z next)
  have hpurged : s.coverPurged z next cause = ((s.coverRecorded z next cause).coverDriveStep z next).purgeInactive z := by
    unfold State.coverPurged State.coverPurgeStep
    rw [if_neg hc, if_pos hleft]
  have hnoticed := coverNoticed_of_purged s z next cause index
  rw [hpurged] at hnoticed
  have hchange := coverChange_eq (s := s) (z := z) (cause := cause) (index := index) hd
  rw [hleft, beq_self_eq_true] at hchange
  generalize (s.coverRecorded z next cause).coverDriveStep z next = driven at hdriven hnoticed
  generalize s.coverNoticed z next cause index = noticed at hnoticed hchange
  have hrests : PurgeRests noticed z := by
    unfold PurgeRests
    rw [hnoticed.stands .purge (by decide), purgeInactive_purge]
    exact .inr rfl
  have hlast := takeDecision_rests hrests true
  have hrun : (driven.zones[z]).purge = (s.zones[z]).purge := hdriven.stands .purge (by decide)
  rw [hchange]
  refine ⟨?_, fun h => ?_, fun h a ha => ?_, fun he hg => ?_⟩
  · rw [hlast.stands .purge (by decide), hnoticed.stands .purge (by decide), purgeInactive_purge]
    rfl
  · exact (purgeInactive_left (by rw [hrun]; exact h)).between hdriven (hnoticed.trans hlast) (by decide) (by decide)
      (by decide) (by decide) (by decide) (reaches_purgeInactive driven).work
  · have hidle : Reaches z [.purge] 0 0 driven (driven.purgeInactive z) := by
      rw [purgeInactive_idle (by rw [hrun]; exact h)]
      exact reaches_updPurge _ _
    exact ((hdriven.trans hidle).trans (hnoticed.trans hlast)).stands (.acts .purgeFan) (by decide) a ha
  · have harb : (driven.zones[z]).arb = (s.zones[z]).arb := hdriven.stands .arb (by decide)
    have hsame := hnoticed.sameChoice (by decide) (by decide)
    have hstay : (noticed.zones[z]).arb = ((driven.purgeInactive z).zones[z]).arb := hnoticed.stands .arb (by decide)
    have henabled : driven.enabled z = true := by
      unfold State.enabled
      rw [hdriven.work.zonesCfg]
      exact he
    by_cases hstate : (driven.zones[z]).purge.state = .run
    · obtain ⟨hchosen, hne, hcause⟩ := purgeInactive_release hstate henabled (by rw [harb]; exact hg)
      obtain ⟨hgranted, hlastCause⟩ := takeDecision_granted (hchosen.stands hsame hstay) true
      rw [hgranted, hlastCause, hstay]
      exact ⟨hne, hcause⟩
    · have hidle : ((driven.purgeInactive z).zones[z]).arb = (driven.zones[z]).arb := by
        rw [purgeInactive_idle hstate]
        exact (reaches_updPurge _ _).stands .arb (by decide)
      have hgrant : (noticed.zones[z]).arb.granted = .purge := by rw [hstay, hidle, harb]; exact hg
      have hzone : noticed.enabled z = true := by
        unfold State.enabled at henabled ⊢
        rw [hnoticed.work.zonesCfg, (reaches_purgeInactive (z := z) driven).work.zonesCfg]
        exact henabled
      obtain ⟨_, hne, hcause⟩ := takeDecision_release hzone hgrant hrests
      exact ⟨hne, hcause⟩

/-! ### Changes after the drives have been stopped (R90, R91) -/

section
variable {v : Int} {reason : Option FaultReason}

theorem CoverRests.of_requested (h : CoverRests (s.requestDrives z v) u z next reason cause) :
    CoverRests s u z next reason cause := by
  have hwork := (zoneWork_requestDrives (zs := fun w => w = z) s z v rfl).trans h.work
  rw [requestDrives_frame] at h
  exact ⟨hwork, h.cover, h.noWork, h.record, h.decided⟩

theorem CoversClosed.of_requested (h : CoversClosed (s.requestDrives z v) u z cause) : CoversClosed s u z cause := by
  have hrests := h.rests.of_requested
  rw [requestDrives_frame] at h
  exact ⟨hrests, h.purge, h.scene, h.notice⟩

theorem CoversOpened.of_requested (h : CoversOpened (s.requestDrives z v) u z cause) : CoversOpened s u z cause := by
  have hrests := h.rests.of_requested
  rw [requestDrives_frame] at h
  exact ⟨hrests, h.scene, h.notice⟩

/-- A change to a state without motion leaves the drives as they have been requested. -/
theorem DrivesRequested.coverChange (h : DrivesRequested s t z v) (hs : t.cfg = s.cfg) (hn : next ≠ .disabled)
    (hm : next.isMotion = false) : DrivesRequested s (t.coverChange z next cause index) z v := by
  have hreach : Reaches z (.cover :: .coverWork :: changeParts) 4 4 t (t.coverChange z next cause index) := by
    have hpurged := reaches_coverPurgeStep (t.coverRecorded z next cause) z (t.zones[z]).cover.state next
    have hchange := coverChange_of_purged (s := t) (z := z) (cause := cause) (index := index) hn
    unfold State.coverPurged at hchange
    rw [coverDriveStep_rest _ z hm] at hchange
    exact (((reaches_coverRecorded t z next cause).trans hpurged).trans hchange).mono (by decide) (by decide) (by decide)
  intro a ha hu hk hz
  rw [hreach.stands (.acts .coverDrive) (by decide) a (by rw [hs]; exact hk)]
  exact h a ha hu hk hz

theorem requestDrives_stop (hn : next ≠ .disabled) (hm : next.isMotion = false) :
    DrivesRequested s ((s.requestDrives z v).coverChange z next cause index) z v :=
  (requestDrives_requested s z v).coverChange (by rw [requestDrives_frame]) hn hm

end

/-! ### FAULT (R90, R92 to R94) -/

theorem isMotion_iff (c : CoverState) : c.isMotion = true ↔ c = .deploying ∨ c = .retracting := by cases c <;> simp [CoverState.isMotion]

theorem coverChange_fails (s : State) (z : ZoneIx) (reason : FaultReason) (index : Nat)
    (h : (s.zones[z]).cover.state.isMotion = false) :
    CoversFail s (s.coverChange z .fault (.fault reason) index) z reason index where
  rests := coverChange_rests (.inr (.inr rfl))
  stopped hm := by rw [(isMotion_iff _).2 hm] at h; cases h
  notice := coverChange_noticed (by decide) fun _ => rfl
  leaves hleft := coverChange_leaves hleft (by decide) (by decide)

theorem enterFault_fails (s : State) (z : ZoneIx) (reason : FaultReason) (index : Nat) :
    CoversFail s (s.enterFault z reason index) z reason index := by
  unfold State.enterFault
  dsimp only
  cases hm : (s.zones[z]).cover.state.isMotion with
  | false =>
    rw [if_neg Bool.false_ne_true]
    exact coverChange_fails s z reason index hm
  | true =>
    rw [if_pos rfl]
    have hrests : CoverRests (s.requestDrives z driveStop)
        ((s.requestDrives z driveStop).coverChange z .fault (.fault reason) index) z .fault (some reason) (.fault reason) :=
      coverChange_rests (.inr (.inr rfl))
    have hnotice : Noticed (s.requestDrives z driveStop)
        ((s.requestDrives z driveStop).coverChange z .fault (.fault reason) index) .coverFault z
        [BitVec.ofNat 8 (faultReasonOrder.idxOf reason),
          BitVec.ofNat 8 (coverStateOrder.idxOf ((s.requestDrives z driveStop).zones[z]).cover.state), BitVec.ofNat 8 index] :=
      coverChange_noticed (by decide) fun _ => rfl
    refine ⟨hrests.of_requested, fun _ => requestDrives_stop (by decide) rfl, ?_, fun hleft => ?_⟩
    · generalize (s.requestDrives z driveStop).coverChange z .fault (.fault reason) index = u at hnotice
      rw [requestDrives_frame] at hnotice
      exact hnotice
    · rw [hleft] at hm
      cases hm

/-! ### Motion (R90) -/

theorem limited_drive {c : ActCfg} (hmin : c.min = 0) (hmax : c.max = 2) {v : Int} (h0 : 0 ≤ v) (h2 : v ≤ 2) :
    c.limited v = v := by
  unfold ActCfg.limited
  rw [if_neg (by omega), if_neg (by omega)]

theorem driveOf_formDrives {a : ActIx} (h : a ∈ s.formDrives z) : DriveOf s z a := by
  have := List.mem_of_mem_take h
  rw [List.mem_filter, Bool.and_eq_true, isDriveOf_iff] at this
  exact this.2.1

/-- The value that motion requests of the drives (R90). -/
def motionValue : CoverState → Int
  | .retracting => driveOpen
  | _ => driveClose

theorem coverDriveStep_motion (s : State) (z : ZoneIx) (h : next.isMotion = true) :
    s.coverDriveStep z next = s.requestDrives z (motionValue next) := by
  rcases (isMotion_iff _).1 h with rfl | rfl <;> rfl

/-- The record with which motion begins after a preparation (R85). -/
theorem enter_motion {r : CoverRt} (c : CoverCfg) (formed : List ActIx) (hm : next.isMotion = true)
    (hprep : r.state.isPrep = true) (hc : cause.reason = none) : r.enter c false formed next cause =
      { state := next, reason := none, drives := formed, detectTimer := .stopped, prepTimer := .stopped
        motionTimer := .running (c.motion * 1000), settleTimer := .stopped, lightingReady := false
        workSceneTaken := r.workSceneTaken } := by
  unfold CoverRt.enter
  rw [hc, hprep]
  rcases (isMotion_iff _).1 hm with rfl | rfl <;> rfl

/-- Motion that the drive check lets pass (R90). -/
theorem coverChange_moves (hm : next.isMotion = true) (hprep : (s.zones[z]).cover.state.isPrep = true)
    (hheld : (s.zones[z]).held = false) (hready : DrivesReady s z) (hc : cause.reason = none) :
    CoversMove s (s.coverChange z next cause index) z next (motionValue next) (s.zones[z]).cover.workSceneTaken where
  cover := by
    rw [coverChange_cover (by rintro rfl; cases hm), hheld]
    exact enter_motion _ _ hm hprep hc
  requested a ha := by
    have hd : next ≠ .disabled := by rintro rfl; cases hm
    obtain ⟨_, hall⟩ := hready
    obtain ⟨_, _, hmin, hmax, _⟩ := hall a ha
    obtain ⟨huse, hkind, hzone⟩ := driveOf_formDrives ha
    have hrecorded := reaches_coverRecorded s z next cause
    have hcfg : (s.coverRecorded z next cause).cfg = s.cfg := hrecorded.stands .run (by decide)
    have hdrives : ((s.coverRecorded z next cause).zones[z]).cover.drives = s.formDrives z := by
      have hcover : ((s.coverRecorded z next cause).zones[z]).cover = _ :=
        ((coverRecorded_of_entered s z next cause).stands .cover (by decide)).trans (coverEntered_cover ..)
      rw [hcover]
      exact if_pos (.inr hm)
    have hrequested := requestDrives_requested (s.coverRecorded z next cause) z (motionValue next) a (by rw [hdrives]; exact ha)
      (by rw [hcfg]; exact huse) (by rw [hcfg]; exact hkind) (by rw [hcfg]; exact hzone)
    have hafter : Reaches z changeParts 4 3 ((s.coverRecorded z next cause).requestDrives z (motionValue next))
        (s.coverChange z next cause index) := by
      rw [← coverDriveStep_motion _ z hm]
      exact ((reaches_coverPurgeStep _ z _ next).trans (coverChange_of_purged hd)).mono (by decide) (by decide) (by decide)
    have hbefore := reaches_requestDrives (z := z) (s.coverRecorded z next cause) (motionValue next)
    rw [hafter.stands (.acts .coverDrive) (by decide) a (by rw [hbefore.work.acts, hcfg]; exact hkind), hrequested, hcfg,
      limited_drive hmin hmax]
    · rcases (isMotion_iff _).1 hm with rfl | rfl <;> decide
    · rcases (isMotion_iff _).1 hm with rfl | rfl <;> decide

/-- The zone with the drives formed, before the drive check. -/
def State.withFormed (s : State) (z : ZoneIx) : State :=
  s.updZone z fun r => { r with cover := { r.cover with drives := s.formDrives z } }

theorem enterMotion_moves (hm : next.isMotion = true) (hprep : (s.zones[z]).cover.state.isPrep = true)
    (hheld : (s.zones[z]).held = false) (hready : DrivesReady s z) (hc : cause.reason = none) :
    CoversMove s (s.enterMotion z next cause) z next (motionValue next) (s.zones[z]).cover.workSceneTaken := by
  have hnone : (s.formDrives z).find? (fun a => !(s.withFormed z).driveReady a) = none := by
    rw [List.find?_eq_none]
    intro a ha
    have := driveReady_iff.2 (hready.2 a ha)
    rw [show (s.withFormed z).driveReady a = s.driveReady a from rfl, this]
    decide
  have hne : (s.formDrives z).isEmpty = false := by rw [List.isEmpty_eq_false_iff]; exact hready.1
  have hmotion : s.enterMotion z next cause = (s.withFormed z).coverChange z next cause noIndex := by
    unfold State.enterMotion
    dsimp only
    rw [show s.updCover z (fun c => { c with drives := s.formDrives z }) = s.withFormed z from rfl, hnone, hne]
    rfl
  have hzone : (s.withFormed z).zones[z] = { s.zones[z] with cover := { (s.zones[z]).cover with drives := s.formDrives z } } :=
    State.updZone_same ..
  have hmoves := coverChange_moves (s := s.withFormed z) (cause := cause) (index := noIndex) hm (by rw [hzone]; exact hprep)
    (by rw [hzone]; exact hheld) hready hc
  rw [hmotion]
  rw [hzone] at hmoves
  exact ⟨hmoves.cover, hmoves.requested⟩

theorem enterMotion_refused (hready : ¬ DrivesReady s z) : MotionRefused s (s.enterMotion z next cause) z := by
  unfold State.enterMotion
  dsimp only
  rw [show s.updCover z (fun c => { c with drives := s.formDrives z }) = s.withFormed z from rfl]
  cases hfind : (s.formDrives z).find? fun a => !(s.withFormed z).driveReady a with
  | some a =>
    have ha := List.mem_of_find?_eq_some hfind
    exact ⟨a.val, ⟨enterFault_fails _ _ _ _, ⟨fun h => (by rw [h] at ha; cases ha), fun _ => ⟨a, ha, rfl⟩⟩⟩⟩
  | none =>
    have hempty : s.formDrives z = [] := by
      by_contra hne
      refine hready ⟨hne, fun a ha => driveReady_iff.1 ?_⟩
      have := List.find?_eq_none.1 hfind a ha
      rw [show (s.withFormed z).driveReady a = s.driveReady a from rfl] at this
      simpa using this
    dsimp only
    rw [if_pos (List.isEmpty_iff.2 hempty)]
    exact ⟨255, ⟨enterFault_fails _ _ _ _, ⟨fun _ => rfl, fun h => absurd hempty h⟩⟩⟩

end Sys2Proof.Machine
end

section
/-! SUPPORT. The cover sequencer's timers and the reports of contacts, drives and scenes: the obligations about them. -/

namespace Sys2Proof.Machine

variable {s : State} {z : ZoneIx} {c : PointCfg} {p : PointIx} {report : ContactReport}

/-! ### Whom a contact report reaches (R15, R16, R84) -/

/-- A report goes to the sequencer of the zone whose working drive its entry names. -/
theorem coverContact_reports (h : ReportsDrive s z c) (p : PointIx) (report : ContactReport) :
    s.coverContact p c report = s.coverContactIn z p c.kind report := by
  obtain ⟨hzone, a, ha, hdrive, hmem⟩ := h
  have hindex : c.drive.bind (asIndex 96) = some a := by rw [ha]; exact asIndex_val a
  unfold State.coverContact
  rw [hzone, hindex]
  exact if_pos ⟨isDriveOf_iff.2 hdrive, hmem⟩

/-- A report of a contact of no working drive is left unused. -/
theorem coverContact_unused (h : ∀ w : ZoneIx, ¬ ReportsDrive s w c) (p : PointIx) (report : ContactReport) :
    s.coverContact p c report = s := by
  unfold State.coverContact
  split
  · rename_i w a hzone hindex
    refine if_neg fun ⟨hdrive, hmem⟩ => h w ⟨hzone, a, ?_, isDriveOf_iff.1 hdrive, hmem⟩
    obtain ⟨d, hd, ha⟩ := Option.bind_eq_some_iff.1 hindex
    obtain ⟨_, rfl⟩ := asIndex_eq_some ha
    exact hd
  · rfl

theorem notMade_iff : report.notMade = true ↔ report = .known false ∨ report = .changed false := by
  cases report <;> simp [ContactReport.notMade]

/-- What a report does, by the state of the covers (R87, R91 to R93). -/
theorem coverContactIn_moving (h : (s.zones[z]).cover.state = .deploying ∨ (s.zones[z]).cover.state = .retracting)
    (kind : PointKind) : s.coverContactIn z p kind report =
      if report = .unknown then s.enterFault z .contactLost p.val else s.judgeEnds z := by
  unfold State.coverContactIn
  cases report with
  | unknown => rw [if_pos rfl]; rcases h with h | h <;> rw [h]
  | known made => rw [if_neg (show ContactReport.known made ≠ .unknown from nofun)]; rcases h with h | h <;> rw [h]
  | changed made => rw [if_neg (show ContactReport.changed made ≠ .unknown from nofun)]; rcases h with h | h <;> rw [h]

theorem coverContactIn_atClosed (h : (s.zones[z]).cover.state = .settle ∨ (s.zones[z]).cover.state = .covered ∨
    (s.zones[z]).cover.state = .prepOpen) (kind : PointKind) : s.coverContactIn z p kind report =
      if kind = .coverClosed ∧ report.notMade then s.enterFault z .coverMoved p.val else s := by
  unfold State.coverContactIn
  rcases h with h | h | h <;> rw [h]

theorem coverContactIn_atOpen (h : (s.zones[z]).cover.state = .openIdle ∨ (s.zones[z]).cover.state = .prepClose)
    (kind : PointKind) : s.coverContactIn z p kind report =
      if kind = .coverOpen ∧ report.notMade then s.enterFault z .coverMoved p.val else s := by
  unfold State.coverContactIn
  rcases h with h | h <;> rw [h]

theorem coverContactIn_out (h : (s.zones[z]).cover.state = .disabled ∨ (s.zones[z]).cover.state = .fault) (kind : PointKind) :
    s.coverContactIn z p kind report = s := by
  unfold State.coverContactIn
  rcases h with h | h <;> rw [h]

theorem coverContactIn_detect (h : (s.zones[z]).cover.state = .detect) (kind : PointKind) :
    s.coverContactIn z p kind report = s.judgePosition z := by
  unfold State.coverContactIn
  rw [h]

/-- A drive that stands at its end is lost, one that does not leave it stands (R93). -/
theorem coverMoved_iff {own : PointKind} {kind : PointKind}
    (hin : s.coverContactIn z p kind report = if kind = own ∧ report.notMade then s.enterFault z .coverMoved p.val else s) :
    (kind = own → (report = .known false ∨ report = .changed false) →
      CoversFail s (s.coverContactIn z p kind report) z .coverMoved p.val) ∧
    (¬ (kind = own ∧ (report = .known false ∨ report = .changed false)) → s.coverContactIn z p kind report = s) := by
  rw [hin]
  refine ⟨fun hk hl => ?_, fun h => ?_⟩
  · rw [if_pos ⟨hk, notMade_iff.2 hl⟩]
    exact enterFault_fails ..
  · exact if_neg fun ⟨hk, hl⟩ => h ⟨hk, notMade_iff.1 hl⟩

/-! ### Drives and scenes (R84, R89, R92) -/

/-- A command's end concerns the sequencer where the drive failed in motion or while settling (R92). -/
theorem coverDrive_eq (s : State) (z : ZoneIx) (a : ActIx) (outcome : CommandOutcome) : s.coverDrive z a outcome =
    if (((s.zones[z]).cover.state = .deploying ∨ (s.zones[z]).cover.state = .retracting) ∨ (s.zones[z]).cover.state = .settle) ∧
      a ∈ (s.zones[z]).cover.drives ∧ ((s.acts[a]).health ≠ .ok ∨ outcome = .refusedRange)
    then s.enterFault z .drive a.val else s := by
  have hfailed : (((s.acts[a]).health != .ok || outcome == .refusedRange) = true) ↔
      ((s.acts[a]).health ≠ .ok ∨ outcome = .refusedRange) := by
    rw [Bool.or_eq_true, bne_iff_ne, beq_iff_eq]
  unfold State.coverDrive State.drives
  dsimp only
  cases (s.zones[z]).cover.state <;> simp only [hfailed, reduceCtorEq, or_self, or_true, or_false, true_and, false_and,
    if_false]

theorem isPrep_iff (x : CoverState) : x.isPrep = true ↔ x = .prepClose ∨ x = .prepOpen := by
  cases x <;> simp [CoverState.isPrep]

/-- The cover-work scene's report in a prep state (R89). -/
theorem coverScene_reported (hp : (s.zones[z]).cover.state = .prepClose ∨ (s.zones[z]).cover.state = .prepOpen)
    (ho : (s.zones[z]).scene.origin = some .coverWork) (outcome : SceneState) : s.coverScene z outcome =
      match outcome with
      | .complete =>
        if (s.zones[z]).held then s.updCover z fun c => { c with lightingReady := true }
        else s.enterMotion z (s.zones[z]).cover.state.motionAfterPrep .lightingReady
      | .completeDegraded => s.enterFault z .lighting noIndex
      | .idle | .running | .settling => s := by
  unfold State.coverScene
  exact if_pos ⟨(isPrep_iff _).2 hp, ho⟩

theorem coverScene_unused {outcome : SceneState} (h : ¬ (((s.zones[z]).cover.state = .prepClose ∨
    (s.zones[z]).cover.state = .prepOpen) ∧ (s.zones[z]).scene.origin = some .coverWork) ∨
      (outcome ≠ .complete ∧ outcome ≠ .completeDegraded)) : s.coverScene z outcome = s := by
  by_cases hr : ((s.zones[z]).cover.state = .prepClose ∨ (s.zones[z]).cover.state = .prepOpen) ∧
      (s.zones[z]).scene.origin = some .coverWork
  · obtain ⟨hcomplete, hdegraded⟩ := h.resolve_left (not_not_intro hr)
    rw [coverScene_reported hr.1 hr.2]
    cases outcome with
    | complete => exact absurd rfl hcomplete
    | completeDegraded => exact absurd rfl hdegraded
    | _ => rfl
  · unfold State.coverScene
    exact if_neg fun ⟨hp, ho⟩ => hr ⟨(isPrep_iff _).1 hp, ho⟩

/-- A completed cover-work scene leads into the motion of its preparation, in a zone that is not held (R89, R90). -/
theorem coverScene_moves (hp : (s.zones[z]).cover.state = .prepClose ∨ (s.zones[z]).cover.state = .prepOpen)
    (ho : (s.zones[z]).scene.origin = some .coverWork) (hh : (s.zones[z]).held = false) :
    s.coverScene z .complete = s.enterMotion z (s.zones[z]).cover.state.motionAfterPrep .lightingReady := by
  rw [coverScene_reported hp ho]
  simp only [hh, Bool.false_eq_true, if_false]

/-! ### Timers that run out -/

/-- A timer of the sequencer that has run out in a zone takes it into FAULT. -/
theorem timeout_fails {timer : Timer} (h : timer = .running 0) (s : State) (z : ZoneIx) (reason : FaultReason) :
    ∃ u, Host.Outcome.next (if timer.due then s.enterFault z reason noIndex else s) =
      (Host.Outcome.next u : Host.Outcome State Fault Refusal) ∧ CoversFail s u z reason 255 :=
  ⟨_, by rw [if_pos ((due_iff timer).2 h)], enterFault_fails s z reason noIndex⟩

/-- Settles O42: the four timers, and the reports of contacts, drives and scenes, by the state of the covers. -/
theorem coverTimeoutsEndInFault : Obligations.CoverTimeoutsEndInFault := by
  intro s z cover faults moving atClosed atOpen prep
  refine ⟨fun hdue => ?_, fun h => timeout_fails h s z _, fun h => timeout_fails h s z _, fun h => timeout_fails h s z _,
    fun p c report => ?_, fun a outcome => ?_, fun outcome => ?_⟩
  · show Host.Outcome.next (if (s.zones[z]).arb.dwell.due then _ else s) = _
    rw [if_pos ((due_iff _).2 hdue)]
    rfl
  · intro u left
    refine ⟨fun h => coverContact_unused h p report, fun hr => ?_⟩
    have hu : u = s.coverContactIn z p c.kind report := coverContact_reports hr p report
    rw [hu]
    refine ⟨fun h => coverContactIn_out h _, fun hm hreport => ?_, fun h => (coverMoved_iff (coverContactIn_atClosed h _)).1,
      fun h => (coverMoved_iff (coverContactIn_atClosed h _)).2, fun h => (coverMoved_iff (coverContactIn_atOpen h _)).1,
      fun h => (coverMoved_iff (coverContactIn_atOpen h _)).2⟩
    rw [coverContactIn_moving hm, if_pos hreport]
    exact enterFault_fails ..
  · intro failed
    rw [coverDrive_eq]
    refine ⟨fun h => ?_, fun h => if_neg h⟩
    rw [if_pos h]
    exact enterFault_fails ..
  · intro u reported
    refine ⟨fun ⟨hp, ho⟩ he => ?_, fun ⟨hp, ho⟩ he hh => ?_, fun ⟨hp, ho⟩ he hh hready => ?_,
      fun ⟨hp, ho⟩ he hh hready => ?_, fun h => coverScene_unused h⟩
    · have hu : u = s.enterFault z .lighting noIndex := by subst he; exact coverScene_reported hp ho _
      rw [hu]
      exact enterFault_fails ..
    · subst he
      exact (coverScene_reported hp ho _).trans (if_pos hh)
    · have hu : u = s.enterMotion z (s.zones[z]).cover.state.motionAfterPrep .lightingReady := by
        subst he; exact coverScene_moves hp ho hh
      rw [hu]
      refine ⟨zoneWork_enterMotion s z _ _ rfl, fun hstate => ?_, fun hstate => ?_⟩
      · rw [show (s.zones[z]).cover.state = .prepClose from hstate]
        exact enterMotion_moves rfl ((isPrep_iff _).2 hp) hh hready rfl
      · rw [show (s.zones[z]).cover.state = .prepOpen from hstate]
        exact enterMotion_moves rfl ((isPrep_iff _).2 hp) hh hready rfl
    · have hu : u = s.enterMotion z (s.zones[z]).cover.state.motionAfterPrep .lightingReady := by
        subst he; exact coverScene_moves hp ho hh
      rw [hu]
      exact enterMotion_refused hready

/-! ### Ends of a motion and positions found (R87, R91) -/

theorem judgeEnds_deploying (h : (s.zones[z]).cover.state = .deploying) :
    (AllClosed s z (s.zones[z]).cover.drives → s.judgeEnds z =
      if (s.cfg.zones[z]).cover.settle = 0 then (s.requestDrives z driveStop).coverChange z .covered .endReached noIndex
      else (s.requestDrives z driveStop).coverChange z .settle .endReached noIndex) ∧
    (¬ AllClosed s z (s.zones[z]).cover.drives → s.judgeEnds z = s) := by
  have hcfg : (s.requestDrives z driveStop).cfg = s.cfg := by rw [requestDrives_frame]
  unfold State.judgeEnds
  rw [h]
  dsimp only
  rw [hcfg]
  exact ⟨fun hall => if_pos (allClosed_iff.2 hall), fun hall => if_neg fun he => hall (allClosed_iff.1 he)⟩

theorem judgeEnds_retracting (h : (s.zones[z]).cover.state = .retracting) :
    (AllOpen s z (s.zones[z]).cover.drives →
      s.judgeEnds z = (s.requestDrives z driveStop).coverChange z .openIdle .endReached noIndex) ∧
    (¬ AllOpen s z (s.zones[z]).cover.drives → s.judgeEnds z = s) := by
  unfold State.judgeEnds
  rw [h]
  exact ⟨fun hall => if_pos (allOpen_iff.2 hall), fun hall => if_neg fun he => hall (allOpen_iff.1 he)⟩

theorem judgePosition_detect (h : (s.zones[z]).cover.state = .detect) (hne : (s.zones[z]).cover.drives ≠ []) :
    (AllClosed s z (s.zones[z]).cover.drives → s.judgePosition z = s.coverChange z .covered .positionFound noIndex) ∧
    (¬ AllClosed s z (s.zones[z]).cover.drives →
      (AllOpen s z (s.zones[z]).cover.drives → s.judgePosition z = s.coverChange z .openIdle .positionFound noIndex) ∧
      (¬ AllOpen s z (s.zones[z]).cover.drives → s.judgePosition z = s)) := by
  have hsome : ¬ (s.drives z).isEmpty = true := fun he => hne (List.isEmpty_iff.1 he)
  unfold State.judgePosition
  rw [if_pos h, if_neg hsome]
  refine ⟨fun hclosed => if_pos (allClosed_iff.2 hclosed), fun hclosed => ?_⟩
  have hnot : ¬ (s.drives z).all (s.atClosedEnd z) = true := fun hc => hclosed (allClosed_iff.1 hc)
  rw [if_neg hnot]
  exact ⟨fun hopen => if_pos (allOpen_iff.2 hopen), fun hopen => if_neg fun ho => hopen (allOpen_iff.1 ho)⟩

/-- The record with which the covers begin to settle after a motion (R85, R91). -/
theorem enter_settle {r : CoverRt} (c : CoverCfg) (held : Bool) (formed : List ActIx) (hprep : r.state.isPrep = false)
    (cause : CoverCause) (hc : cause.reason = none) : r.enter c held formed .settle cause =
      { state := .settle, reason := none, drives := r.drives, detectTimer := .stopped, prepTimer := .stopped
        motionTimer := .stopped, settleTimer := if held then .paused (c.settle * 1000) else .running (c.settle * 1000)
        lightingReady := false, workSceneTaken := false } := by
  unfold CoverRt.enter
  rw [hc, hprep]
  rfl

/-- No scene and no notice belong to SETTLE: after the record the arbiter alone is at work (R86, R91). -/
theorem settle_of_recorded (h : (s.zones[z]).cover.state ≠ .covered) (cause : CoverCause) (index : Nat) :
    Reaches z decisionParts 1 1 (s.coverRecorded z .settle cause) (s.coverChange z .settle cause index) := by
  have hsteps : s.coverNoticed z .settle cause index = s.coverRecorded z .settle cause := by
    unfold State.coverNoticed State.coverPurged State.coverPurgeStep
    rw [if_neg (by decide), if_neg h]
    rfl
  rw [coverChange_eq (by decide), hsteps]
  exact reaches_takeDecision _ _

theorem settle_scene (h : (s.zones[z]).cover.state ≠ .covered) (cause : CoverCause) (index : Nat) :
    ((s.coverChange z .settle cause index).zones[z]).scene = { (s.zones[z]).scene with coverWork := false } :=
  (((coverRecorded_of_entered s z .settle cause).trans (settle_of_recorded h cause index)).stands .scene (by decide)).trans
    (coverEntered_scene ..)

theorem ReportsDrive.drives_ne_nil (h : ReportsDrive s z c) : (s.zones[z]).cover.drives ≠ [] := by
  obtain ⟨_, a, _, _, hmem⟩ := h
  exact List.ne_nil_of_mem hmem

/-- Settles O43: the settle timer, and the reports of contacts in motion and in DETECT. -/
theorem settledCoversStartThePurgeWait : Obligations.SettledCoversStartThePurgeWait := by
  intro s z cover settle
  refine ⟨fun hdue => ⟨s.coverChange z .covered .settled noIndex, ?_, coverChange_closed s z _ _ rfl⟩, fun p c report hr => ?_⟩
  · show Host.Outcome.next (if (s.zones[z]).cover.settleTimer.due then _ else s) = _
    rw [if_pos ((due_iff _).2 hdue)]
  intro u
  have hu : u = s.coverContactIn z p c.kind report := coverContact_reports hr p report
  rw [hu]
  refine ⟨fun hstate hreport => ?_, fun hstate hreport => ?_, fun hstate => ?_⟩
  · obtain ⟨hall, hnot⟩ := judgeEnds_deploying hstate
    rw [coverContactIn_moving (.inl hstate), if_neg hreport]
    refine ⟨fun hclosed hzero => ?_, fun hclosed hne => ?_, hnot⟩
    · rw [hall hclosed, if_pos hzero]
      exact ⟨(coverChange_closed _ z _ _ rfl).of_requested, requestDrives_stop (by decide) rfl⟩
    · rw [hall hclosed, if_neg hne]
      have hframe := requestDrives_frame s z driveStop
      have hdrives : DrivesRequested s ((s.requestDrives z driveStop).coverChange z .settle .endReached noIndex) z 0 :=
        requestDrives_stop (by decide) rfl
      have hwork := (zoneWork_requestDrives (zs := fun w => w = z) s z driveStop rfl).trans
        (zoneWork_coverChange (zs := fun w => w = z) _ z .settle .endReached noIndex rfl)
      have hcover := coverChange_cover (s := s.requestDrives z driveStop) (z := z) (next := .settle) (cause := .endReached)
        (index := noIndex) (by decide)
      have hscene := settle_scene (s := s.requestDrives z driveStop) (z := z) (by
        rw [hframe]; exact fun e => by rw [hstate] at e; cases e) .endReached noIndex
      have hring := coverChange_recorded (s := s.requestDrives z driveStop) (z := z) (next := .settle) (cause := .endReached)
        (index := noIndex) (by decide)
      have hdecided := coverChange_decided (s := s.requestDrives z driveStop) (z := z) (next := .settle) (cause := .endReached)
        (index := noIndex) (by decide)
      generalize (s.requestDrives z driveStop).coverChange z .settle .endReached noIndex = v at *
      rw [hframe] at hcover hscene hring hdecided
      rw [enter_settle _ _ _ (by rw [show (s.zones[z]).cover.state = .deploying from hstate]; rfl) _ rfl] at hcover
      refine ⟨hwork, hdrives, hcover, hscene, fun hf => ?_, hdecided⟩
      have := hring hf
      rwa [show (s.zones[z]).cover.state = .deploying from hstate] at this
  · obtain ⟨hall, hnot⟩ := judgeEnds_retracting hstate
    rw [coverContactIn_moving (.inr hstate), if_neg hreport]
    refine ⟨fun hopen => ?_, hnot⟩
    rw [hall hopen]
    refine ⟨(coverChange_opened _ z _ _ rfl ?_).of_requested, requestDrives_stop (by decide) rfl⟩
    rw [requestDrives_frame]
    exact fun e => by rw [hstate] at e; cases e
  · obtain ⟨hclosed, hrest⟩ := judgePosition_detect hstate hr.drives_ne_nil
    rw [coverContactIn_detect hstate]
    refine ⟨fun hall => ?_, fun hnot hopen => ?_, fun hnot hopen => (hrest hnot).2 hopen⟩
    · rw [hclosed hall]
      exact coverChange_closed s z _ _ rfl
    · rw [(hrest hnot).1 hopen]
      exact coverChange_opened s z _ _ rfl fun e => by rw [hstate] at e; cases e

end Sys2Proof.Machine
end

section
/-! SUPPORT. The ranges of a zone's demands: what an evaluation forms lies within them, every other command leaves them as they are
or resets them, and so does every step. -/

namespace Sys2Proof.Machine

/-! ### The saturation table (R35 to R37) -/

/-- The search from the top of a range finds the largest index that passes. -/
theorem find_reverse_range (p : Nat → Bool) (n : Nat) {j : Nat} (h : (List.range n).reverse.find? p = some j) :
    j < n ∧ p j = true ∧ ∀ k, j < k → k < n → p k = false := by
  induction n with
  | zero => simp at h
  | succ n ih =>
    rw [List.range_succ, List.reverse_append, List.reverse_singleton, List.singleton_append, List.find?_cons] at h
    split at h
    next hp =>
      obtain rfl := Option.some.inj h
      exact ⟨Nat.lt_succ_self _, hp, fun k h1 h2 => by omega⟩
    next hp =>
      obtain ⟨h1, h2, h3⟩ := ih h
      refine ⟨by omega, h2, fun k hk hn => ?_⟩
      rcases Nat.lt_or_ge k n with hlt | hge
      · exact h3 k hk hlt
      · rw [show k = n by omega]; simpa using hp

/-- The segment of a pressure that is not below the table: the largest index whose entry it reaches (R37). -/
theorem satSegment_spec (sat : Vector Nat 17) {pv : Int} (h : satAt sat 0 ≤ pv) :
    satSegment sat pv < 16 ∧ satAt sat (satSegment sat pv) ≤ pv ∧
    ∀ k, satSegment sat pv < k → k < 16 → pv < satAt sat k := by
  have hfound : ∃ j, (List.range 16).reverse.find? (fun j => decide (satAt sat j ≤ pv)) = some j := by
    rw [← Option.isSome_iff_exists, List.find?_isSome]
    exact ⟨0, by simp, by simpa using h⟩
  obtain ⟨j, hj⟩ := hfound
  have hseg : satSegment sat pv = j := by rw [satSegment, hj]; rfl
  obtain ⟨hlt, hle, habove⟩ := find_reverse_range _ 16 hj
  rw [hseg]
  exact ⟨hlt, by simpa using hle, fun k h1 h2 => by simpa using habove k h1 h2⟩

/-- The fraction of a segment is a whole number of tenths below its end (R37). -/
theorem fraction_bounds {x d : Int} (hx : 0 ≤ x) (hd : x < d) : 0 ≤ (x * 50).tdiv d ∧ (x * 50).tdiv d < 50 := by
  rw [Int.tdiv_eq_ediv_of_nonneg (by omega)]
  exact ⟨Int.ediv_nonneg (by omega) (by omega), Int.ediv_lt_of_lt_mul (by omega) (by omega)⟩

/-- A pressure within the table lies in the segment that R37 takes. -/
theorem satSegment_encloses (sat : Vector Nat 17) {pv : Int} (h0 : satAt sat 0 ≤ pv) (h16 : pv < satAt sat 16) :
    satSegment sat pv < 16 ∧ satAt sat (satSegment sat pv) ≤ pv ∧ pv < satAt sat (satSegment sat pv + 1) := by
  obtain ⟨hlt, hle, habove⟩ := satSegment_spec sat h0
  refine ⟨hlt, hle, ?_⟩
  rcases Nat.lt_or_ge (satSegment sat pv + 1) 16 with h | h
  · exact habove _ (Nat.lt_succ_self _) h
  · rw [show satSegment sat pv + 1 = 16 by omega]; exact h16

/-- The dew point lies within the table's temperatures, whatever the table (R37). -/
theorem dewPoint_bounds (sat : Vector Nat 17) (pv : Int) : -200 ≤ dewPoint sat pv ∧ dewPoint sat pv ≤ 600 := by
  unfold dewPoint
  split
  · omega
  · split
    · omega
    · obtain ⟨hlt, hle, hnext⟩ := satSegment_encloses sat (pv := pv) (by omega) (by omega)
      have := fraction_bounds (x := pv - satAt sat (satSegment sat pv))
        (d := satAt sat (satSegment sat pv + 1) - satAt sat (satSegment sat pv)) (by omega) (by omega)
      dsimp only
      omega

/-! ### An evaluation forms results within the ranges (R35 to R40, R53 to R56) -/

theorem clamp_bounds (x : Int) {a b : Int} (h : a ≤ b) : a ≤ clamp x a b ∧ clamp x a b ≤ b := by
  unfold clamp
  split_ifs <;> omega

/-- The ranges speak of a zone's evaluation and heating results alone. -/
theorem DemandsInRange.of_same {r r' : ZoneRt} (h : DemandsInRange r) (he : r'.eval = r.eval) (hh : r'.heat = r.heat) :
    DemandsInRange r' := by
  constructor
  case heating => rw [hh]; exact h.heating
  case integrator => rw [hh]; exact h.integrator
  case error => rw [hh]; exact h.error
  case humidity => rw [he]; exact h.humidity
  case condensation => rw [he]; exact h.condensation
  case drying => rw [he]; exact h.drying
  case clamped => rw [he]; exact h.clamped
  case dewPoint => rw [he]; exact h.dewPoint

/-- What stages 1 to 8 form lies in the ranges, where the results before did. -/
theorem demandsInRange_formed {s : State} {z : ZoneIx} {e : EvalRt} {h : HeatRt} (hf : EvaluationForms s z e h)
    (hr : DemandsInRange s.zones[z]) {r : ZoneRt} (he : r.eval = { e with
      timer := r.eval.timer, startedPeriod := r.eval.startedPeriod, lastTime := r.eval.lastTime }) (hh : r.heat = h) :
    DemandsInRange r := by
  have hheat : (0 ≤ h.h ∧ h.h ≤ 1000) ∧ (0 ≤ h.i ∧ h.i ≤ 64000) ∧ ∀ x, h.e = some x → -1000 ≤ x ∧ x ≤ 1000 := by
    cases hta : e.ta.last with
    | none => rw [hf.kept hta]; exact ⟨hr.heating, hr.integrator, hr.error⟩
    | some ta =>
      obtain ⟨spa, hspa⟩ : ∃ spa, h.spa = some spa := by
        cases htw : e.tw.last with
        | none => exact ⟨_, (hf.setpoint.2 htw).2⟩
        | some tw => exact ⟨_, (hf.setpoint.1 tw htw).2⟩
      obtain ⟨herr, hi, hh, -⟩ := hf.heating ta spa hta hspa
      rw [hi] at hh ⊢
      rw [hh, herr]
      exact ⟨clamp_bounds _ (by omega), clamp_bounds _ (by omega), fun x hx => by
        obtain rfl := Option.some.inj hx; exact clamp_bounds _ (by omega)⟩
  have heval : (0 ≤ e.dRh ∧ e.dRh ≤ 1000) ∧ (0 ≤ e.dCond ∧ e.dCond ≤ 1000) ∧ e.d = max e.dRh e.dCond ∧
      (∀ tc, e.tc = some tc → -200 ≤ tc ∧ tc ≤ 600) ∧ ∀ td, e.td = some td → -200 ≤ td ∧ td ≤ 600 := by
    cases hno : e.noAirData with
    | true =>
      rw [hf.skipped hno]
      exact ⟨hr.humidity, hr.condensation, hr.drying, hr.clamped, hr.dewPoint⟩
    | false =>
      have hair : ¬ (e.ta.last = none ∨ e.rh.last = none) := fun hn => by rw [hf.noAirData.2 hn] at hno; cases hno
      obtain ⟨ta, hta⟩ := Option.ne_none_iff_exists'.1 fun hn => hair (.inl hn)
      obtain ⟨rh, hrh⟩ := Option.ne_none_iff_exists'.1 fun hn => hair (.inr hn)
      obtain ⟨htc, -, -, htd, -⟩ := hf.air ta rh hta hrh
      obtain ⟨hdRh, hdCond, hd⟩ := hf.demand rh hno hrh
      refine ⟨hdRh ▸ clamp_bounds _ (by omega), ?_, hd, fun tc h => ?_, fun td h => ?_⟩
      · rw [hdCond]
        cases e.margin with
        | none => exact ⟨le_rfl, Int.natCast_nonneg 1000⟩
        | some m => exact clamp_bounds _ (by omega)
      · obtain rfl := Option.some.inj (htc.symm.trans h); exact clamp_bounds _ (by omega)
      · obtain rfl := Option.some.inj (htd.symm.trans h); exact dewPoint_bounds ..
  obtain ⟨hh1, hi, herr⟩ := hheat
  obtain ⟨hdRh, hdCond, hd, htc, htd⟩ := heval
  rw [← hh] at hh1 hi herr
  exact ⟨hh1, hi, herr, by rw [he]; exact hdRh, by rw [he]; exact hdCond, by rw [he]; exact hd, by rw [he]; exact htc,
    by rw [he]; exact htd⟩

/-- The reset values lie in the ranges, and the dew point and the clamped temperature are absent (R26, R48). -/
theorem demandsInRange_reset {r : ZoneRt} {c : EvalCfg} (he : r.eval = EvalRt.reset c) (hh : r.heat = HeatRt.reset) :
    DemandsInRange r := by
  have hr : DemandsInRange { r with eval := EvalRt.reset c, heat := HeatRt.reset } := by
    constructor <;> simp [EvalRt.reset, HeatRt.reset]
  exact hr.of_same he hh

/-! ### Work that keeps the ranges -/

/-- Every zone whose demands lie in their ranges has them there afterwards. -/
structure KeepsDemands (s t : State) : Prop where
  zone : ∀ z : ZoneIx, DemandsInRange s.zones[z] → DemandsInRange t.zones[z]

variable {s t u : State}

theorem KeepsDemands.refl (s : State) : KeepsDemands s s := ⟨fun _ h => h⟩

theorem KeepsDemands.trans (h : KeepsDemands s t) (h' : KeepsDemands t u) : KeepsDemands s u :=
  ⟨fun z hz => h'.zone z (h.zone z hz)⟩

theorem KeepsDemands.of_zones (h : t.zones = s.zones) : KeepsDemands s t := ⟨fun z hz => by rw [h]; exact hz⟩

/-- Work that starts where every zone's record is as in `s`. -/
theorem KeepsDemands.from (h : KeepsDemands t u) (hz : t.zones = s.zones) : KeepsDemands s u := (KeepsDemands.of_zones hz).trans h

/-- Work of the zone blocks leaves every zone's results as they stand. -/
theorem ZoneWork.keepsDemands {zs : ZoneIx → Prop} (h : ZoneWork zs s t) : KeepsDemands s t :=
  ⟨fun z hz => hz.of_same (h.eval z) (h.heat z)⟩

theorem keepsDemands_updZone {z : ZoneIx} {f : ZoneRt → ZoneRt} (h : DemandsInRange s.zones[z] → DemandsInRange (f s.zones[z])) :
    KeepsDemands s (s.updZone z f) := by
  refine ⟨fun w hw => ?_⟩
  by_cases hwz : w = z
  · subst hwz; rw [State.updZone_same]; exact h hw
  · rw [State.updZone_other s hwz]; exact hw

theorem KeepsDemands.foldl {α : Type} {f : State → α → State} (h : ∀ s a, KeepsDemands s (f s a)) (l : List α) :
    ∀ s, KeepsDemands s (l.foldl f s) := by
  induction l with
  | nil => exact .refl
  | cons a l ih => exact fun s => (h s a).trans (ih _)

theorem KeepsDemands.ite {c : Prop} [Decidable c] (ht : KeepsDemands s t) (hu : KeepsDemands s u) :
    KeepsDemands s (if c then t else u) := by
  split
  · exact ht
  · exact hu

/-! ### The clock and the evaluation -/

theorem keepsDemands_clockTick (s : State) : KeepsDemands s (clockTick s) := by
  refine ⟨fun z h => ?_⟩
  rw [clockTick_zone]
  exact ⟨h.heating, h.integrator, h.error, h.humidity, h.condensation, h.drying, h.clamped, h.dewPoint⟩

/-- An evaluation forms its results within the ranges, and what closes it leaves them (R31). -/
theorem keepsDemands_evaluate (s : State) (z : ZoneIx) : KeepsDemands s (s.evaluate z) := by
  have hformed : KeepsDemands s (s.updZone z fun _ => s.evaluated z) :=
    keepsDemands_updZone fun h => demandsInRange_formed (evaluated_forms s z) h rfl rfl
  exact hformed.trans (zoneWork_evaluate s z trivial : AnyZoneWork _ _).keepsDemands

/-! ### Points and watches (01, R185) -/

theorem keepsDemands_offerWatches (s : State) (e : WatchEvent) : KeepsDemands s (s.offerWatches e) :=
  (zoneWork_offerWatches s e fun _ => trivial : AnyZoneWork _ _).keepsDemands

/-- The report of R15 is zone work on the changed point. -/
theorem keepsDemands_changePoint (s : State) (p : PointIx) (c : PointCfg) (f : PointRt → PointRt) :
    KeepsDemands s (s.changePoint p c f) := by
  rw [changePoint_eq]
  exact (told_work (s.updPoint p f) p c _).keepsDemands.from rfl

theorem keepsDemands_takeItem (line : Line) (node : Nat) (s : State) (item : ReadingItem) :
    KeepsDemands s (State.takeItem line node s item) := by
  unfold State.takeItem
  split
  next p _ =>
    unfold State.arrive
    exact .ite ((keepsDemands_changePoint ..).trans (keepsDemands_offerWatches ..)) (keepsDemands_changePoint ..)
  · exact .refl s

theorem keepsDemands_inspectReading (s : State) (line : Line) (t : Telegram) : KeepsDemands s (s.inspectReading line t) :=
  .ite (.foldl (keepsDemands_takeItem line t.src.toNat) _ s) (.refl s)

theorem keepsDemands_raise (s : State) (k : NoticeKind) (z : Byte) (d : List Byte) : KeepsDemands s (s.raise k z d) :=
  (zoneWork_raise s k z d : AnyZoneWork _ _).keepsDemands

theorem keepsDemands_pointStale (s : State) (p : PointIx) : KeepsDemands s (s.pointStale p) :=
  .ite ((keepsDemands_changePoint ..).trans (keepsDemands_raise ..)) (keepsDemands_changePoint ..)

/-! ### The dispatcher (07) -/

theorem keepsDemands_join (s : State) (a : ActIx) : KeepsDemands s (s.join a) :=
  (zoneWork_join s a trivial : AnyZoneWork _ _).keepsDemands

theorem keepsDemands_unqueue (s : State) (a : ActIx) : KeepsDemands s (s.unqueue a) :=
  (zoneWork_unqueue s a trivial : AnyZoneWork _ _).keepsDemands

theorem keepsDemands_reportControl (s : State) (a : ActIx) (b : Bool) : KeepsDemands s (s.reportControl a b) :=
  (zoneWork_reportControl s a b trivial : AnyZoneWork _ _).keepsDemands

theorem keepsDemands_endCommand (s : State) (o : Outstanding) (r : CommandOutcome) : KeepsDemands s (s.endCommand o r) :=
  (zoneWork_endCommand s o r trivial : AnyZoneWork _ _).keepsDemands.from rfl

theorem keepsDemands_overrideEnds (s : State) (a : ActIx) : KeepsDemands s (s.overrideEnds a) :=
  (zoneWork_overrideEnds s a trivial : AnyZoneWork _ _).keepsDemands.from rfl

theorem keepsDemands_refreshExpire (s : State) (a : ActIx) : KeepsDemands s (s.refreshExpire a) :=
  .ite ((keepsDemands_join _ a).from rfl) (.of_zones rfl)

theorem keepsDemands_retryExpire (s : State) (a : ActIx) : KeepsDemands s (s.retryExpire a) :=
  (keepsDemands_join _ a).from rfl

theorem keepsDemands_dispatchWith (s : State) (a : ActIx) (t : Tag) (v : Int) : KeepsDemands s (s.dispatchWith a t v) :=
  (keepsDemands_unqueue s a).trans (.of_zones rfl)

theorem keepsDemands_arbitrate (s : State) : KeepsDemands s s.arbitrate := by
  unfold State.arbitrate
  split
  · split
    · refine .trans ?_ (keepsDemands_offerWatches ..)
      exact (keepsDemands_dispatchWith _ _ _ _).from (State.updDisp_zones ..)
    · exact .refl s
  · exact .refl s

/-- Where the control of an actuator changes, the records of the zones stand. -/
theorem keepsDemands_overrideEffect (s : State) (a : ActIx) : KeepsDemands s (s.overrideEffect a).1 := by
  unfold State.overrideEffect
  split
  · exact (keepsDemands_unqueue s a).trans (.of_zones rfl)
  · exact .of_zones rfl
  all_goals exact .refl s

theorem keepsDemands_disableActuator (s : State) (a : ActIx) : KeepsDemands s (s.disableActuator a).1 := by
  unfold State.disableActuator
  dsimp only
  split
  · exact (keepsDemands_unqueue s a).trans (.of_zones rfl)
  · exact (keepsDemands_unqueue s a).trans (.of_zones rfl)
  all_goals exact .refl s

theorem keepsDemands_enableActuator (s : State) (a : ActIx) : KeepsDemands s (s.enableActuator a).1 := by
  unfold State.enableActuator
  split
  · exact .refl s
  · exact (keepsDemands_join _ a).from rfl
  · exact .of_zones rfl
  · exact (keepsDemands_join _ a).from rfl

/-! ### The lines (08) -/

theorem updQueue_zones (s : State) (d : Direction) (f : ForwardQueue → ForwardQueue) : (s.updQueue d f).zones = s.zones := by
  cases d <;> rfl

theorem setTx_zones (s : State) (line : Line) (t : Transmitter) : (s.setTx line t).zones = s.zones := by cases line <;> rfl

theorem keepsDemands_offerFilter (s : State) (d : Direction) (t : Telegram) : KeepsDemands s (s.offerFilter d t) :=
  .ite (.of_zones (updQueue_zones ..)) (.refl s)

theorem keepsDemands_judgeForeign (s : State) (t : Telegram) : KeepsDemands s (s.judgeForeign t) := by
  have hoffer := keepsDemands_offerFilter s .th t
  unfold State.judgeForeign
  split
  · exact hoffer
  · refine .ite (.ite (.of_zones rfl) hoffer) ?_
    split
    · exact hoffer
    next a _ =>
      refine .ite hoffer (.ite ?_ (.of_zones rfl))
      unfold State.forwardOverride
      exact .ite (hoffer.trans ((keepsDemands_overrideEffect _ a).trans (keepsDemands_reportControl ..))) hoffer

theorem keepsDemands_acknowledge (s : State) (t : Telegram) : KeepsDemands s (s.acknowledge t) := by
  unfold State.acknowledge
  split
  · exact .refl s
  · split
    · exact keepsDemands_endCommand ..
    · exact .refl s

theorem requestArrives_zones (s : State) (c : Channel) (t : Telegram) : (s.requestArrives c t).zones = s.zones := by
  unfold State.requestArrives
  split
  · rfl
  · split
    · cases c <;> rfl
    · rfl

theorem keepsDemands_hand (s : State) (line : Line) (t : Telegram) : KeepsDemands s (s.hand line t) := by
  have hread := keepsDemands_inspectReading s line t
  unfold State.hand State.handOwn State.handTransit
  refine .ite (.ite hread ?_) ?_
  · cases line with
    | hall => exact .ite (keepsDemands_acknowledge s t) (.refl s)
    | trunk => exact .ite (.of_zones (requestArrives_zones ..)) (.refl s)
  · have hin : KeepsDemands s (if t.kind = kindReading then s.inspectReading line t else s) := .ite hread (.refl s)
    cases line with
    | hall => exact hin.trans (keepsDemands_offerFilter ..)
    | trunk => exact hin.trans (.ite (keepsDemands_judgeForeign ..) (keepsDemands_offerFilter ..))

theorem keepsDemands_receive (s : State) (line : Line) (heard : List RxByte) : KeepsDemands s (s.receive line heard) := by
  unfold State.receive
  refine .ite (.refl s) ?_
  split
  · exact .of_zones (by cases line <;> rfl)
  · exact (KeepsDemands.of_zones (by cases line <;> rfl)).trans (keepsDemands_hand ..)

theorem receiveService_zones (s : State) (heard : List RxByte) : (s.receiveService heard).zones = s.zones := by
  unfold State.receiveService
  split
  · rfl
  · split
    · rfl
    · split
      · rw [requestArrives_zones, State.restartIdle]
        split <;> rfl
      · rfl

theorem hallChoose_zones (s : State) : s.hallChoose.zones = s.zones := by
  unfold State.hallChoose
  split <;> rfl

theorem trunkChoose_zones (s : State) : s.trunkChoose.zones = s.zones := by
  unfold State.trunkChoose
  split <;> rfl

theorem keepsDemands_telegramFate (s : State) (line : Line) (source : TxSource) (sent : Bool) :
    KeepsDemands s (s.telegramFate line source sent) := by
  unfold State.telegramFate
  cases source with
  | command tag =>
    dsimp only [State.commandTransmitted]
    split
    · exact .refl s
    · exact .ite (.of_zones rfl) (keepsDemands_endCommand ..)
  | forward => exact .of_zones (updQueue_zones ..)
  | reply => cases sent <;> exact .of_zones rfl
  | notice => cases sent <;> exact .of_zones rfl
  | announce => cases sent <;> exact .of_zones rfl

theorem keepsDemands_endTransmission (s : State) (line : Line) (source : TxSource) (sent : Bool) :
    KeepsDemands s (s.endTransmission line source sent) := by
  have hfate := (KeepsDemands.of_zones (setTx_zones s line .free)).trans (keepsDemands_telegramFate _ line source sent)
  unfold State.endTransmission
  cases line with
  | hall => exact hfate
  | trunk => exact hfate.trans (.of_zones rfl)

theorem keepsDemands_attemptEnd (s : State) (line : Line) (readBack : List RxByte) :
    KeepsDemands s (s.attemptEnd line readBack) := by
  unfold State.attemptEnd
  split
  · split
    · exact .refl s
    · exact keepsDemands_endTransmission ..
    · exact .ite (.of_zones (setTx_zones ..)) (keepsDemands_endTransmission ..)
  all_goals exact .refl s

theorem keepsDemands_retryAttempt (s : State) (line : Line) (quietByteTimes : Nat) :
    KeepsDemands s (s.retryAttempt line quietByteTimes) := by
  unfold State.retryAttempt
  split
  · exact .ite (.of_zones (setTx_zones ..)) (.refl s)
  all_goals exact .refl s

/-! ### The start (11) -/

theorem keepsDemands_startZone (s : State) (z : ZoneIx) : KeepsDemands s (s.startZone z) :=
  .ite ((zoneWork_updCover s z _ trivial).trans (zoneWork_judgePosition _ z trivial) : AnyZoneWork _ _).keepsDemands (.refl s)

/-- A start resets every zone's results (R26, R48, R189). -/
theorem demandsInRange_boot (s : State) (image : Image) (trunkActive : Bool) (z : ZoneIx) :
    DemandsInRange (s.boot image trunkActive).zones[z] := by
  refine (KeepsDemands.foldl keepsDemands_startZone (indices 4) _).zone z ?_
  have hreset : (s.loaded image trunkActive).zones[z] = ZoneRt.reset image.config.zones[z] := by simp [State.loaded]
  rw [hreset]
  exact demandsInRange_reset rfl rfl

theorem keepsDemands_boot (s : State) (image : Image) (trunkActive : Bool) : KeepsDemands s (s.boot image trunkActive) :=
  ⟨fun z _ => demandsInRange_boot s image trunkActive z⟩

theorem completeCommit_zones (s : State) (k : Commit) : (s.completeCommit k).zones = s.zones := by
  rw [State.completeCommit, State.updMgmt_zones, raise_frame]
  rfl

/-! ### Requests (09) -/

theorem reply_zones (a : Answer) (r : Request) : (a.reply r).zones = a.state.zones := by
  unfold Answer.reply
  cases a.mode <;> rfl

theorem setStaging_zones (s : State) (c : Channel) (g : Option Staging) : (s.setStaging c g).zones = s.zones := by
  cases c <;> rfl

theorem commonRefusal_zones (s : State) (r : Request) (status : Status) : (s.commonRefusal r status).state.zones = s.zones := by
  unfold State.commonRefusal
  split
  · exact setStaging_zones ..
  · split <;> rfl
  all_goals rfl

/-- A taken request keeps what its own rule keeps (R163 to R165). -/
theorem keepsDemands_serve {own : Request → State → Answer} (h : ∀ r s, KeepsDemands s (own r s).state) (s : State)
    (row : Instr) : KeepsDemands s (s.serve row own) := by
  unfold State.serve
  split
  next r _ =>
    refine .ite ?_ (.refl s)
    have hpop : KeepsDemands s (s.popRequest r.channel) := .of_zones (by rw [popRequest_eq_taken]; cases r.channel <;> rfl)
    unfold State.take
    refine hpop.trans (KeepsDemands.trans ?_ (.of_zones (reply_zones ..)))
    split
    · exact .of_zones (commonRefusal_zones ..)
    · exact h ..
  · exact .refl s

theorem keepsDemands_answerSegment (s : State) (bytes : List Byte) (segment : Nat) :
    KeepsDemands s (s.answerSegment bytes segment).state := by
  unfold State.answerSegment
  split <;> exact .refl s

/-! ### Writes (R167): every table's rule but the points' changes the configuration alone -/

theorem storePart_zones (s : State) (p : PartRecord) : (s.storePart p).zones = s.zones := by
  unfold State.storePart
  dsimp only
  split <;> split <;> rfl

theorem writeActuator_zones (s : State) (c : Channel) (i : Nat) (r : RawActuator) : (s.writeActuator c i r).1.zones = s.zones := by
  unfold State.writeActuator
  repeat' split
  all_goals rfl

theorem writeGroup_zones (s : State) (i : Nat) (r : List Nat) : (s.writeGroup i r).1.zones = s.zones := by
  unfold State.writeGroup
  repeat' split
  all_goals rfl

theorem writeHeader_zones (s : State) (c : Channel) (i : Nat) (r : RawHeader) : (s.writeHeader c i r).1.zones = s.zones := by
  unfold State.writeHeader
  repeat' split
  all_goals rfl

theorem writeCue_zones (s : State) (c : Channel) (i : Nat) (r : RawCue) : (s.writeCue c i r).1.zones = s.zones := by
  unfold State.writeCue
  repeat' split
  all_goals rfl

theorem writeZone_zones (s : State) (c : Channel) (i : Nat) (r : RawZone) : (s.writeZone c i r).1.zones = s.zones := by
  unfold State.writeZone
  repeat' split
  all_goals rfl

theorem writeSaturation_zones (s : State) (i : Nat) (r : List Nat) : (s.writeSaturation i r).1.zones = s.zones := by
  unfold State.writeSaturation
  repeat' split
  all_goals rfl

theorem writeFilter_zones (s : State) (i : Nat) (r : RawFilter) : (s.writeFilter i r).1.zones = s.zones := by
  unfold State.writeFilter
  repeat' split
  all_goals rfl

theorem writePart_zones (s : State) (i : Nat) (r : RawPart) : (s.writePart i r).1.zones = s.zones := by
  unfold State.writePart
  repeat' split
  case h_1.isTrue => exact storePart_zones ..
  all_goals rfl

/-- A write of a point entry also tells the cover sequencer of a contact that becomes unknown (R6). -/
theorem keepsDemands_writePoint (s : State) (c : Channel) (i : Nat) (r : RawPoint) : KeepsDemands s (s.writePoint c i r).1 := by
  unfold State.writePoint
  repeat' split
  case h_1.isTrue => exact (keepsDemands_changePoint ..).from rfl
  all_goals exact .of_zones rfl

theorem keepsDemands_decodeThen {α : Type} {write : α → Verdict} (s : State) (r : Reader α) (bytes : List Byte)
    (h : ∀ x, KeepsDemands s (write x).1) : KeepsDemands s (s.decodeThen r bytes write).1 := by
  unfold State.decodeThen
  split
  · exact h _
  · exact .refl s

theorem keepsDemands_writeEntry (s : State) (c : Channel) (table : TableId) (index : Nat) (bytes : List Byte) :
    KeepsDemands s (s.writeEntry c table index bytes).1 := by
  unfold State.writeEntry
  cases table <;> refine keepsDemands_decodeThen s _ bytes fun x => ?_
  case point => exact keepsDemands_writePoint ..
  case actuator => exact .of_zones (writeActuator_zones ..)
  case group => exact .of_zones (writeGroup_zones ..)
  case sceneHeader => exact .of_zones (writeHeader_zones ..)
  case cue => exact .of_zones (writeCue_zones ..)
  case zone => exact .of_zones (writeZone_zones ..)
  case saturation => exact .of_zones (writeSaturation_zones ..)
  case filter => exact .of_zones (writeFilter_zones ..)
  case part => exact .of_zones (writePart_zones ..)

theorem keepsDemands_writeSegment (r : Request) (s : State) : KeepsDemands s (writeSegment r s).state := by
  have hemptied := KeepsDemands.of_zones (setStaging_zones s r.channel none)
  unfold writeSegment
  dsimp only
  split
  · exact hemptied
  · split
    · exact hemptied
    · split
      · exact .of_zones (setStaging_zones ..)
      · split
        · exact hemptied.trans (keepsDemands_writeEntry ..)
        · exact hemptied

/-! ### Zone commands (R169) -/

theorem keepsDemands_zoneChecked {effect : ZoneIx → Bool → State → Answer} (h : ∀ z b s, KeepsDemands s (effect z b s).state)
    (r : Request) (s : State) : KeepsDemands s (zoneChecked effect r s).state := by
  unfold zoneChecked
  dsimp only
  split
  · exact .refl s
  · split
    · exact .refl s
    · split
      · exact .refl s
      · split
        · exact .of_zones rfl
        · exact h ..

theorem setEnabled_zones (s : State) (z : ZoneIx) (b : Bool) : (s.setEnabled z b).zones = s.zones := rfl

theorem done_state (s : State) : s.done.state = s := rfl

/-- The resets of an enabled zone and of RESET_CONTROL (R32). -/
theorem keepsDemands_resetControl (s : State) (z : ZoneIx) : KeepsDemands s (s.resetControl z) :=
  keepsDemands_updZone fun _ => demandsInRange_reset rfl rfl

theorem keepsDemands_takeDecision (s : State) (z : ZoneIx) (b : Bool) : KeepsDemands s (s.takeDecision z b) :=
  (zoneWork_takeDecision s z b trivial : AnyZoneWork _ _).keepsDemands

theorem keepsDemands_enterDetect (s : State) (z : ZoneIx) (c : CoverCause) : KeepsDemands s (s.enterDetect z c) :=
  (zoneWork_enterDetect s z c trivial : AnyZoneWork _ _).keepsDemands

theorem keepsDemands_clearHold (s : State) (z : ZoneIx) : KeepsDemands s (s.clearHold z) :=
  (zoneWork_clearHold s z trivial : AnyZoneWork _ _).keepsDemands

theorem keepsDemands_enableZone (s : State) (z : ZoneIx) : KeepsDemands s (s.enableZone z) := by
  have hacts : KeepsDemands s (s.dispatcherEnable z) :=
    (zoneWork_dispatcherEnable s z trivial : AnyZoneWork _ _).keepsDemands.from rfl
  unfold State.enableZone
  exact hacts.trans <| .trans (.of_zones (setEnabled_zones _ z true)) <| (keepsDemands_resetControl _ z).trans <|
    (keepsDemands_takeDecision _ z _).trans (keepsDemands_enterDetect _ z _)

theorem keepsDemands_disableZone (s : State) (z : ZoneIx) : KeepsDemands s (s.disableZone z) := by
  have hstop (t : State) : KeepsDemands t (t.updEval z fun e => { e with timer := .stopped }) :=
    keepsDemands_updZone fun h => ⟨h.heating, h.integrator, h.error, h.humidity, h.condensation, h.drying, h.clamped,
      h.dewPoint⟩
  have hacts (t : State) : KeepsDemands t (t.dispatcherDisable z) :=
    (zoneWork_dispatcherDisable t z trivial : AnyZoneWork _ _).keepsDemands.from rfl
  have hblocks (t : State) : KeepsDemands t (((t.arbiterDisable z).coverDisable z).sceneDisable z) :=
    (((zoneWork_arbiterDisable t z trivial).trans (zoneWork_coverDisable _ z trivial)).trans
      (zoneWork_updScene _ z _ trivial) : AnyZoneWork _ _).keepsDemands
  unfold State.disableZone
  exact ((hstop _).from (setEnabled_zones s z false)).trans ((hblocks _).trans (hacts _))

theorem keepsDemands_moveCovers (s : State) (z : ZoneIx) (force : Bool) (prep motion : CoverState) :
    KeepsDemands s (s.moveCovers z force prep motion) :=
  .ite (zoneWork_enterMotion s z motion _ trivial : AnyZoneWork _ _).keepsDemands <|
    .ite (zoneWork_enterMotion s z motion _ trivial : AnyZoneWork _ _).keepsDemands
      (zoneWork_enterPrep s z prep trivial : AnyZoneWork _ _).keepsDemands

theorem keepsDemands_resetControlAll (s : State) (z : ZoneIx) : KeepsDemands s (s.resetControlAll z) := by
  have hwithdrawn (t : State) : KeepsDemands t (t.purgeWithdrawn z) :=
    (zoneWork_purgeWithdrawn t z trivial : AnyZoneWork _ _).keepsDemands
  unfold State.resetControlAll
  exact (keepsDemands_resetControl s z).trans <| .trans (.ite (hwithdrawn _) (.refl _)) <|
    .trans (keepsDemands_updZone fun h => h.of_same rfl rfl) (keepsDemands_clearHold _ z)

theorem keepsDemands_resumeZone (s : State) (z : ZoneIx) : KeepsDemands s (s.resumeZone z) :=
  (keepsDemands_clearHold s z).trans (.ite (keepsDemands_takeDecision ..) (.refl _))

/-! ### The other requests -/

theorem keepsDemands_sceneRequest (r : Request) (s : State) : KeepsDemands s (sceneRequestOwn r s).state := by
  unfold sceneRequestOwn
  split
  next z n _ _ =>
    split
    · exact .refl s
    · split
      · exact .refl s
      · exact ((zoneWork_takeScene s z n _ trivial).trans (zoneWork_reportScene z _ trivial) : AnyZoneWork _ _).keepsDemands
  · exact .refl s

theorem keepsDemands_actuatorChecked {effect : State → ActIx → State × Bool} (h : ∀ s a, KeepsDemands s (effect s a).1)
    (r : Request) (s : State) : KeepsDemands s (actuatorChecked effect r s).state := by
  unfold actuatorChecked
  split
  · exact .refl s
  next a _ =>
    split
    · exact .refl s
    · split
      · exact .refl s
      · split
        · exact .of_zones rfl
        · exact (h s a).trans (keepsDemands_reportControl ..)

/-- Clearing flags leaves the demands (R43). -/
theorem keepsDemands_clearFlags (s : State) (selector : Nat) (mask : Byte) : KeepsDemands s (s.clearFlags selector mask) := by
  refine .ite (.of_zones rfl) ?_
  split
  · exact keepsDemands_updZone fun h => ⟨h.heating, h.integrator, h.error, h.humidity, h.condensation, h.drying, h.clamped,
      h.dewPoint⟩
  · exact .refl s

/-! ### Every command (R150, R169) -/

theorem keepsDemands_readEntry (r : Request) (s : State) : KeepsDemands s (readEntryOwn r s).state := by
  unfold readEntryOwn
  split
  · exact .refl s
  · split <;> exact .refl s

theorem keepsDemands_readFlags (r : Request) (s : State) : KeepsDemands s (readFlagsOwn r s).state := by
  unfold readFlagsOwn
  split
  · exact .refl s
  · exact keepsDemands_clearFlags ..

theorem keepsDemands_zoneEnable (r : Request) (s : State) : KeepsDemands s (zoneEnableOwn r s).state :=
  keepsDemands_zoneChecked (fun z _ s => KeepsDemands.ite (.refl s) (keepsDemands_enableZone s z)) r s

theorem keepsDemands_zoneDisable (r : Request) (s : State) : KeepsDemands s (zoneDisableOwn r s).state :=
  keepsDemands_zoneChecked (fun z _ s => KeepsDemands.ite (keepsDemands_disableZone s z) (.refl s)) r s

theorem keepsDemands_closeCovers (r : Request) (s : State) : KeepsDemands s (closeCoversOwn r s).state := by
  refine keepsDemands_zoneChecked (fun z force s => ?_) r s
  split
  · exact .refl s
  · split
    · exact .refl s
    · exact keepsDemands_moveCovers ..

theorem keepsDemands_openCovers (r : Request) (s : State) : KeepsDemands s (openCoversOwn r s).state := by
  refine keepsDemands_zoneChecked (fun z force s => ?_) r s
  split
  · exact .refl s
  · exact keepsDemands_moveCovers ..

theorem keepsDemands_clearFault (r : Request) (s : State) : KeepsDemands s (clearFaultOwn r s).state := by
  refine keepsDemands_zoneChecked (fun z _ s => ?_) r s
  split
  · rw [done_state]
    exact keepsDemands_enterDetect s z .cleared
  · exact .refl s

theorem keepsDemands_accumulatorRead (r : Request) (s : State) : KeepsDemands s (accumulatorReadOwn r s).state := by
  unfold accumulatorReadOwn
  split
  · exact .refl s
  · exact keepsDemands_answerSegment ..

theorem keepsDemands_accumulatorPreload (r : Request) (s : State) : KeepsDemands s (accumulatorPreloadOwn r s).state := by
  unfold accumulatorPreloadOwn
  split <;> exact .of_zones rfl

theorem keepsDemands_accumulatorSetRun (r : Request) (s : State) : KeepsDemands s (accumulatorSetRunOwn r s).state := by
  unfold accumulatorSetRunOwn
  split <;> exact .of_zones rfl

theorem keepsDemands_captureTake (r : Request) (s : State) : KeepsDemands s (captureTakeOwn r s).state := by
  unfold captureTakeOwn
  split
  · exact .refl s
  · exact (zoneWork_capture .. : AnyZoneWork _ _).keepsDemands

theorem keepsDemands_captureRead (r : Request) (s : State) : KeepsDemands s (captureReadOwn r s).state := by
  have hremoved : KeepsDemands s (if r.param 1 = 0 then s.removeCaptures r.channel else s) :=
    .ite (.of_zones (by unfold State.removeCaptures State.setReadOut; cases r.channel <;> rfl)) (.refl s)
  exact hremoved.trans (keepsDemands_answerSegment ..)

theorem keepsDemands_ringRead (r : Request) (s : State) : KeepsDemands s (ringReadOwn r s).state := by
  unfold ringReadOwn
  split
  · exact keepsDemands_answerSegment ..
  · exact .refl s

theorem keepsDemands_watchChecked {effect : WatchIx → State → Answer} (h : ∀ w s, KeepsDemands s (effect w s).state)
    (r : Request) (s : State) : KeepsDemands s (watchChecked effect r s).state := by
  unfold watchChecked
  split
  · exact .refl s
  · exact h ..

theorem keepsDemands_watchRead (r : Request) (s : State) : KeepsDemands s (watchReadOwn r s).state :=
  keepsDemands_watchChecked (fun w s => keepsDemands_answerSegment s (s.cfg.watches[w]).bytes (r.param 2)) r s

theorem keepsDemands_watchWrite (r : Request) (s : State) : KeepsDemands s (watchWriteOwn r s).state := by
  refine keepsDemands_watchChecked (fun w s => ?_) r s
  split <;> exact .of_zones rfl

theorem keepsDemands_takeLocal (r : Request) (s : State) : KeepsDemands s (takeLocalOwn r s).state := by
  unfold takeLocalOwn
  split <;> exact .of_zones rfl

theorem keepsDemands_releaseLocalWith (s : State) (cause : Nat) : KeepsDemands s (s.releaseLocalWith cause) :=
  (keepsDemands_raise ..).from rfl

/-- A meaning that answers a state which keeps the ranges. -/
theorem KeepsDemands.next (h : KeepsDemands s u) (he : Host.Outcome.next u = (.next t : Host.Outcome State Fault Refusal)) :
    KeepsDemands s t := by
  cases he
  exact h

/-- Every command keeps the ranges. -/
theorem keepsDemands_exec (i : Instr) (s t : State) (he : exec i s = .next t) : KeepsDemands s t := by
  cases i with
  | powerOn => exact (keepsDemands_boot s _ _).next he
  | receivedUnit line heard => exact (keepsDemands_receive s line heard).next he
  | serviceUnit heard => exact (KeepsDemands.of_zones (receiveService_zones s heard)).next he
  | staleExpiry p => exact (KeepsDemands.ite (keepsDemands_pointStale s p) (.refl s)).next he
  | evaluation z => exact (KeepsDemands.ite (keepsDemands_evaluate s z) (.refl s)).next he
  | dwellExpiry z => exact (KeepsDemands.ite (zoneWork_updArb s z _ trivial : AnyZoneWork _ _).keepsDemands (.refl s)).next he
  | detectTimeout z | prepTimeout z | motionTimeout z =>
    exact (KeepsDemands.ite (zoneWork_enterFault s z _ _ trivial : AnyZoneWork _ _).keepsDemands (.refl s)).next he
  | settleExpiry z =>
    exact (KeepsDemands.ite (zoneWork_coverChange s z _ _ _ trivial : AnyZoneWork _ _).keepsDemands (.refl s)).next he
  | purgeWaitExpiry z =>
    exact (KeepsDemands.ite ((zoneWork_updPurge s z _ trivial).trans (zoneWork_takeDecision _ z _ trivial) :
      AnyZoneWork _ _).keepsDemands (.refl s)).next he
  | purgeRunExpiry z =>
    exact (KeepsDemands.ite (zoneWork_purgeRunEnd s z trivial : AnyZoneWork _ _).keepsDemands (.refl s)).next he
  | cueDelayExpiry z cue =>
    exact (KeepsDemands.ite (((zoneWork_startCue s z _ trivial).trans (zoneWork_judgeIfDone _ z trivial)).trans
      (zoneWork_reportScene z _ trivial) : AnyZoneWork _ _).keepsDemands (.refl s)).next he
  | fadeStep z =>
    exact (KeepsDemands.ite (((zoneWork_stepFades s z trivial).trans (zoneWork_judgeIfDone _ z trivial)).trans
      (zoneWork_reportScene z _ trivial) : AnyZoneWork _ _).keepsDemands (.refl s)).next he
  | refreshExpiry a => exact (KeepsDemands.ite (keepsDemands_refreshExpire s a) (.refl s)).next he
  | retryExpiry a => exact (KeepsDemands.ite (keepsDemands_retryExpire s a) (.refl s)).next he
  | overrideHoldExpiry a => exact (KeepsDemands.ite (keepsDemands_overrideEnds s a) (.refl s)).next he
  | ackTimeout tag =>
    refine KeepsDemands.next ?_ he
    split
    · exact .ite (keepsDemands_endCommand ..) (.refl s)
    · exact .refl s
  | arbitration => exact (keepsDemands_arbitrate s).next he
  | hallTxChoose => exact (KeepsDemands.of_zones (hallChoose_zones s)).next he
  | trunkTxChoose => exact (KeepsDemands.of_zones (trunkChoose_zones s)).next he
  | txAttemptEnd line readBack => exact (keepsDemands_attemptEnd s line readBack).next he
  | txRetryAttempt line quiet => exact (keepsDemands_retryAttempt s line quiet).next he
  | serviceReplySent => exact (KeepsDemands.of_zones (State.updMgmt_zones ..)).next he
  | commitComplete =>
    refine KeepsDemands.next ?_ he
    split
    · exact .of_zones (completeCommit_zones ..)
    · exact .refl s
  | localIdleExpiry => exact (KeepsDemands.ite (keepsDemands_releaseLocalWith s 1) (.refl s)).next he
  | restartBegin => exact (KeepsDemands.ite (keepsDemands_boot s _ _) (.refl s)).next he
  | unknownRequest | identify | captureCount => exact (keepsDemands_serve (fun _ s => .refl s) s _).next he
  | readEntry => exact (keepsDemands_serve keepsDemands_readEntry s _).next he
  | writeEntrySegment | writeEntryPoint | writeEntryActuator | writeEntryGroup | writeEntrySceneHeader | writeEntryCue
  | writeEntryZone | writeEntrySaturation | writeEntryFilter | writeEntryPart =>
    exact (keepsDemands_serve keepsDemands_writeSegment s _).next he
  | zoneEnable => exact (keepsDemands_serve keepsDemands_zoneEnable s _).next he
  | zoneDisable => exact (keepsDemands_serve keepsDemands_zoneDisable s _).next he
  | closeCovers => exact (keepsDemands_serve keepsDemands_closeCovers s _).next he
  | openCovers => exact (keepsDemands_serve keepsDemands_openCovers s _).next he
  | clearFault => exact (keepsDemands_serve keepsDemands_clearFault s _).next he
  | resetControl =>
    exact (keepsDemands_serve (keepsDemands_zoneChecked fun z _ s => keepsDemands_resetControlAll s z) s _).next he
  | resume => exact (keepsDemands_serve (keepsDemands_zoneChecked fun z _ s => keepsDemands_resumeZone s z) s _).next he
  | sceneRequest => exact (keepsDemands_serve keepsDemands_sceneRequest s _).next he
  | actuatorDisable => exact (keepsDemands_serve (keepsDemands_actuatorChecked keepsDemands_disableActuator) s _).next he
  | actuatorEnable => exact (keepsDemands_serve (keepsDemands_actuatorChecked keepsDemands_enableActuator) s _).next he
  | readFlags => exact (keepsDemands_serve keepsDemands_readFlags s _).next he
  | lineStatus hall trunk => exact (keepsDemands_serve (fun _ s => keepsDemands_answerSegment s _ _) s _).next he
  | accumulatorRead => exact (keepsDemands_serve keepsDemands_accumulatorRead s _).next he
  | accumulatorPreload => exact (keepsDemands_serve keepsDemands_accumulatorPreload s _).next he
  | accumulatorSetRun => exact (keepsDemands_serve keepsDemands_accumulatorSetRun s _).next he
  | captureTake => exact (keepsDemands_serve keepsDemands_captureTake s _).next he
  | captureRead => exact (keepsDemands_serve keepsDemands_captureRead s _).next he
  | ringRead => exact (keepsDemands_serve keepsDemands_ringRead s _).next he
  | ringUnfreeze => exact (keepsDemands_serve (fun _ _ => .of_zones rfl) s _).next he
  | watchRead => exact (keepsDemands_serve keepsDemands_watchRead s _).next he
  | watchWrite => exact (keepsDemands_serve keepsDemands_watchWrite s _).next he
  | watchArm | watchDisarm => exact (keepsDemands_serve (keepsDemands_watchChecked fun _ _ => .of_zones rfl) s _).next he
  | commitImage | restart => exact (keepsDemands_serve (fun _ _ => .of_zones rfl) s _).next he
  | takeLocal => exact (keepsDemands_serve keepsDemands_takeLocal s _).next he
  | releaseLocal => exact (keepsDemands_serve (fun _ s => KeepsDemands.ite (keepsDemands_releaseLocalWith s 0) (.refl s)) s _).next he

/-- Settles O58: with no command waiting the clock leaves the demands, and every command keeps their ranges. -/
theorem stepsKeepDemandsInRange : Obligations.StepsKeepDemandsInRange := by
  intro s t hs hstep z
  unfold step at hstep
  split at hstep
  · exact ((keepsDemands_clockTick s).next hstep).zone z (hs z)
  · exact ((keepsDemands_exec _ _ t hstep).from rfl).zone z (hs z)

end Sys2Proof.Machine
end

section
/-! SUPPORT. The evaluation of a zone: the vapour pressure, the dew point, and what an evaluation leaves. -/

namespace Sys2Proof.Machine

/-! ### The vapour pressure (R36) -/

/-- The product to the nearest pascal, by its distance from the product. -/
theorem vapourPressure_near {psat rh : Int} (hp : 0 ≤ psat) (hr : 0 ≤ rh) :
    psat * rh - 500 < 1000 * vapourPressure psat rh ∧ 1000 * vapourPressure psat rh ≤ psat * rh + 500 := by
  have hprod : 0 ≤ psat * rh := Int.mul_nonneg hp hr
  rw [vapourPressure, Int.tdiv_eq_ediv_of_nonneg (by omega)]
  omega

/-- The vapour pressure lies between 0 and the saturation pressure. -/
theorem vapourPressure_bounds {psat rh : Int} (hp : 0 ≤ psat) (hr : 0 ≤ rh) (hr' : rh ≤ 1000) :
    0 ≤ vapourPressure psat rh ∧ vapourPressure psat rh ≤ psat := by
  have hprod : psat * rh ≤ psat * 1000 := Int.mul_le_mul_of_nonneg_left hr' hp
  have hnonneg : 0 ≤ psat * rh := Int.mul_nonneg hp hr
  have hnear := vapourPressure_near hp hr
  omega

/-- Saturated air has the saturation pressure. -/
theorem vapourPressure_saturated {psat : Int} (hp : 0 ≤ psat) : vapourPressure psat 1000 = psat := by
  have hnear := vapourPressure_near hp (rh := 1000) (by omega)
  omega

/-- A mean of readings in a range that begins at 0 lies in it (R20). -/
theorem mean_bounds {readings : List Int} {m b : Int} (h : ∀ x ∈ readings, 0 ≤ x ∧ x ≤ b) (hm : mean readings = some m) :
    0 ≤ m ∧ m ≤ b := by
  have hsum (l : List Int) : (∀ x ∈ l, 0 ≤ x ∧ x ≤ b) → 0 ≤ l.sum ∧ l.sum ≤ b * l.length := by
    induction l with
    | nil => simp
    | cons x l ih =>
      intro hl
      have hx := hl x List.mem_cons_self
      have hrest := ih fun y hy => hl y (List.mem_cons_of_mem _ hy)
      simp only [List.sum_cons, List.length_cons, Nat.cast_succ, Int.mul_add, Int.mul_one]
      omega
  unfold mean at hm
  split at hm
  · cases hm
  next hne =>
    obtain rfl := Option.some.inj hm
    obtain ⟨h0, hb⟩ := hsum readings h
    have hpos : (0 : Int) < readings.length := by
      have := List.length_pos_iff.2 fun e : readings = [] => hne (by rw [e]; rfl)
      omega
    rw [Int.tdiv_eq_ediv_of_nonneg h0]
    exact ⟨Int.ediv_nonneg h0 hpos.le, Int.ediv_le_of_le_mul hpos hb⟩

/-- Settles O38: the rounding by its distance from the product, and the stored pressure by stage 3. -/
theorem vapourPressureIsRounded : Obligations.VapourPressureIsRounded := by
  refine ⟨fun psat rh hp hp' hr hr' => ?_, fun sat ta rh e => ⟨_, rfl, rfl⟩, fun readings m h hm => mean_bounds h hm⟩
  obtain ⟨hlow, hhigh⟩ := vapourPressure_near hp hr
  obtain ⟨h0, hle⟩ := vapourPressure_bounds hp hr hr'
  have hprod : psat * rh ≤ 65535 * 1000 := Int.mul_le_mul hp' hr' hr (by omega)
  have hdry : vapourPressure psat 0 = 0 := by
    have hnear := vapourPressure_near hp (rh := 0) le_rfl
    omega
  exact ⟨rfl, hlow, hhigh, hprod, h0, hle, vapourPressure_saturated hp, hdry⟩

/-! ### The saturation pressure (R35) -/

/-- What a segment rises by within `f` of its 50 tenths, truncated (R35). -/
theorem rise_bounds {d f : Int} (hd : 0 < d) (hf : 0 ≤ f) :
    0 ≤ (d * f).tdiv 50 ∧ 50 * (d * f).tdiv 50 ≤ d * f ∧ d * f < 50 * (d * f).tdiv 50 + 50 := by
  have hprod : 0 ≤ d * f := Int.mul_nonneg hd.le hf
  rw [Int.tdiv_eq_ediv_of_nonneg hprod]
  omega

/-- A segment rises by no more than its entries differ, and by all of it only at its end. -/
theorem rise_le {d f : Int} (hd : 0 < d) (hf : 0 ≤ f) (hf' : f ≤ 50) :
    (d * f).tdiv 50 ≤ d ∧ (d ≤ (d * f).tdiv 50 → f = 50) := by
  obtain ⟨-, hle, -⟩ := rise_bounds hd hf
  have hmul : d * f ≤ d * 50 := Int.mul_le_mul_of_nonneg_left hf' hd.le
  refine ⟨by omega, fun h => le_antisymm hf' ?_⟩
  exact Int.le_of_mul_le_mul_left (show d * 50 ≤ d * f by omega) hd

/-- The segment of a clamped temperature (R35); its last tenth belongs to the last segment alone. -/
theorem saturationPressure_segment (sat : Vector Nat 17) {tc : Int} (h : -200 ≤ tc) (h' : tc ≤ 600) :
    ∃ (i : Nat) (f : Int), i < 16 ∧ 0 ≤ f ∧ f ≤ 50 ∧ tc = -200 + 50 * (i : Int) + f ∧
      saturationPressure sat tc = satAt sat i + ((satAt sat (i + 1) - satAt sat i) * f).tdiv 50 := by
  unfold saturationPressure
  dsimp only
  split
  · exact ⟨15, 50, by omega, by omega, by omega, by omega, rfl⟩
  · exact ⟨(tc + 200).toNat / 50, _, by omega, by omega, by omega, by omega, rfl⟩

/-- The saturation pressure at a temperature of the table is its entry. -/
theorem saturationPressure_entry (sat : Vector Nat 17) {i : Nat} (hi : i ≤ 16) : saturationPressure sat (-200 + 50 * (i : Int)) = satAt sat i := by
  obtain ⟨j, f, hj, hf, hf', htc, hp⟩ := saturationPressure_segment sat (tc := -200 + 50 * (i : Int)) (by omega) (by omega)
  rw [hp]
  rcases (show f = 0 ∧ j = i ∨ f = 50 ∧ j + 1 = i by omega) with ⟨rfl, rfl⟩ | ⟨rfl, rfl⟩
  · rw [Int.mul_zero, Int.zero_tdiv, Int.add_zero]
  · rw [Int.mul_tdiv_cancel _ (by omega)]
    omega

/-- A table whose entries increase, each but the last by at least `gap`. -/
def Increases (sat : Vector Nat 17) (gap : Int) : Prop := ∀ i : Nat, i < 16 → satAt sat i + gap ≤ satAt sat (i + 1)

theorem increases_of {sat : Vector Nat 17} {gap : Nat} (h : ∀ i : Nat, (hi : i < 16) → sat[i] + gap ≤ sat[i + 1]) :
    Increases sat gap := by
  intro i hi
  have hstep := h i hi
  simp only [satAt, Vector.getElem?_eq_getElem (show i < 17 by omega), Vector.getElem?_eq_getElem (show i + 1 < 17 by omega),
    Option.getD_some]
  omega

section Increasing

variable {sat : Vector Nat 17} (hsat : Increases sat 1)
include hsat

theorem satAt_le {i j : Nat} (hij : i ≤ j) (hj : j ≤ 16) : satAt sat i ≤ satAt sat j := by
  induction j, hij using Nat.le_induction with
  | base => exact le_rfl
  | succ j hij ih =>
    have := hsat j (by omega)
    have := ih (by omega)
    omega

/-- Larger entries stand at larger indices. -/
theorem lt_of_satAt {i j : Nat} (hi : i ≤ 16) (h : satAt sat i < satAt sat j) : i < j :=
  Nat.lt_of_not_le fun hle => absurd (satAt_le hsat hle hi) (by omega)

/-! ### The dew point (R37, R38) -/

omit hsat in
theorem dewPoint_below {pv : Int} (h : pv < satAt sat 0) : dewPoint sat pv = -200 := by rw [dewPoint, if_pos h]

theorem dewPoint_above {pv : Int} (h : satAt sat 16 ≤ pv) : dewPoint sat pv = 600 := by
  have := satAt_le hsat (i := 0) (j := 16) (by omega) le_rfl
  rw [dewPoint, if_neg (by omega), if_pos h]

/-- The dew point of a pressure within a segment. -/
theorem dewPoint_within {pv : Int} {j : Nat} (hj : j < 16) (hle : satAt sat j ≤ pv) (hlt : pv < satAt sat (j + 1)) :
    dewPoint sat pv = -200 + 50 * (j : Int) + ((pv - satAt sat j) * 50).tdiv (satAt sat (j + 1) - satAt sat j) := by
  have h0 := satAt_le hsat (Nat.zero_le j) hj.le
  have h16 := satAt_le hsat (show j + 1 ≤ 16 by omega) le_rfl
  obtain ⟨hk, hkle, hklt⟩ := satSegment_encloses sat (pv := pv) (by omega) (by omega)
  have hup := lt_of_satAt hsat (i := satSegment sat pv) (j := j + 1) (by omega) (by omega)
  have hdown := lt_of_satAt hsat (i := j) (j := satSegment sat pv + 1) (by omega) (by omega)
  rw [dewPoint, if_neg (by omega), if_neg (by omega), show satSegment sat pv = j by omega]

/-- An entry's dew point is its temperature. -/
theorem dewPoint_entry {i : Nat} (hi : i ≤ 16) : dewPoint sat (satAt sat i) = -200 + 50 * (i : Int) := by
  rcases Nat.lt_or_eq_of_le hi with hlt | rfl
  · have hstep := hsat i hlt
    rw [dewPoint_within hsat hlt le_rfl (by omega), Int.sub_self, Int.zero_mul, Int.zero_tdiv, Int.add_zero]
  · rw [dewPoint_above hsat le_rfl]; rfl

/-- No more vapour than saturates the air at a temperature gives no higher dew point (R38). -/
theorem dewPoint_le {pv f : Int} {i : Nat} (hi : i < 16) (hf : 0 ≤ f) (hf' : f ≤ 50)
    (hpv : pv ≤ satAt sat i + ((satAt sat (i + 1) - satAt sat i) * f).tdiv 50) :
    dewPoint sat pv ≤ -200 + 50 * (i : Int) + f := by
  have hstep := hsat i hi
  obtain ⟨-, hrise, -⟩ := rise_bounds (d := satAt sat (i + 1) - satAt sat i) (by omega) hf
  obtain ⟨htop, hend⟩ := rise_le (d := satAt sat (i + 1) - satAt sat i) (by omega) hf hf'
  rcases lt_or_ge pv (satAt sat (i + 1)) with hlt | hge
  · rcases lt_or_ge pv (satAt sat i) with hlow | hat
    · rcases lt_or_ge pv (satAt sat 0) with hbelow | habove
      · rw [dewPoint_below hbelow]; omega
      · have h16 := satAt_le hsat (show i ≤ 16 by omega) le_rfl
        obtain ⟨hk, hkle, hklt⟩ := satSegment_encloses sat habove (by omega)
        have hki := lt_of_satAt hsat (i := satSegment sat pv) (j := i) (by omega) (by omega)
        have hfrac := fraction_bounds (x := pv - satAt sat (satSegment sat pv))
          (d := satAt sat (satSegment sat pv + 1) - satAt sat (satSegment sat pv)) (by omega) (by omega)
        rw [dewPoint_within hsat hk hkle hklt]
        omega
    · rw [dewPoint_within hsat hi hat hlt, Int.tdiv_eq_ediv_of_nonneg (by omega)]
      have hfrac : (pv - satAt sat i) * 50 / (satAt sat (i + 1) - satAt sat i) ≤ f :=
        Int.ediv_le_of_le_mul (by omega) (by rw [Int.mul_comm f]; omega)
      omega
  · have hpv : pv = satAt sat (i + 1) := by omega
    rw [hpv, dewPoint_entry hsat (by omega), hend (by omega)]
    omega

/-- Where a segment spans 50 Pa or more, the two truncations lose at most one tenth (R38). -/
theorem le_dewPoint_saturated {f : Int} {i : Nat} (hi : i < 16) (hf : 0 ≤ f) (hf' : f < 50)
    (hgap : satAt sat i + 50 ≤ satAt sat (i + 1)) :
    -200 + 50 * (i : Int) + f - 1 ≤ dewPoint sat (satAt sat i + ((satAt sat (i + 1) - satAt sat i) * f).tdiv 50) := by
  generalize hd : satAt sat (i + 1) - satAt sat i = d
  obtain ⟨h0, -, hrise⟩ := rise_bounds (d := d) (by omega) hf
  obtain ⟨htop, hend⟩ := rise_le (d := d) (by omega) hf hf'.le
  have hlt : (d * f).tdiv 50 < d := lt_of_not_ge fun h => by have := hend h; omega
  rw [dewPoint_within hsat hi (by omega) (by omega), hd, add_sub_cancel_left, Int.tdiv_eq_ediv_of_nonneg (by omega)]
  have hfrac : f - 1 ≤ (d * f).tdiv 50 * 50 / d := by
    refine Int.le_ediv_of_mul_le (by omega) ?_
    rw [Int.sub_mul, Int.one_mul, Int.mul_comm f]
    omega
  omega

/-- Saturated air at a temperature of the table has that temperature as its dew point (R38). -/
theorem dewPoint_saturated_entry {tc : Int} (h : ∃ i : Nat, i < 17 ∧ tc = -200 + 50 * (i : Int)) :
    dewPoint sat (saturationPressure sat tc) = tc := by
  obtain ⟨i, hi, rfl⟩ := h
  rw [saturationPressure_entry sat (by omega), dewPoint_entry hsat (by omega)]

/-- The saturation pressure lies between the entries of its segment. -/
theorem saturationPressure_bounds {tc : Int} (h : -200 ≤ tc) (h' : tc ≤ 600) :
    satAt sat 0 ≤ saturationPressure sat tc ∧ saturationPressure sat tc ≤ satAt sat 16 ∧
    (saturationPressure sat tc = satAt sat 16 → tc = 600) := by
  obtain ⟨i, f, hi, hf, hf', rfl, hp⟩ := saturationPressure_segment sat h h'
  have hstep := hsat i hi
  obtain ⟨hrise, -, -⟩ := rise_bounds (d := satAt sat (i + 1) - satAt sat i) (by omega) hf
  obtain ⟨htop, hend⟩ := rise_le (d := satAt sat (i + 1) - satAt sat i) (by omega) hf hf'
  have h0 := satAt_le hsat (Nat.zero_le i) (by omega)
  have h16 := satAt_le hsat (show i + 1 ≤ 16 by omega) le_rfl
  refine ⟨by omega, by omega, fun heq => ?_⟩
  have := hend (by omega)
  rcases Nat.lt_or_eq_of_le (show i + 1 ≤ 16 by omega) with hlt | hlast
  · have := hsat (i + 1) hlt
    have := satAt_le hsat (show i + 1 + 1 ≤ 16 by omega) le_rfl
    omega
  · omega

end Increasing

theorem satAt_nonneg (sat : Vector Nat 17) (i : Nat) : 0 ≤ satAt sat i := Int.natCast_nonneg _

/-- Saturated air whose saturation pressure is an entry of a table of 50 Pa or more to the segment has a temperature of the table. -/
theorem tableTemp_of_entry {sat : Vector Nat 17} (hgap : Increases sat 50) {f : Int} {i m : Nat} (hi : i < 16) (hf : 0 ≤ f)
    (hf' : f ≤ 50) (hm : m < 17) (h : satAt sat i + ((satAt sat (i + 1) - satAt sat i) * f).tdiv 50 = satAt sat m) :
    f = 0 ∨ f = 50 := by
  have hsat : Increases sat 1 := fun i hi => by have := hgap i hi; omega
  have hstep := hgap i hi
  generalize hd : satAt sat (i + 1) - satAt sat i = d at h
  obtain ⟨h0, -, hrise⟩ := rise_bounds (d := d) (by omega) hf
  obtain ⟨htop, hend⟩ := rise_le (d := d) (by omega) hf hf'
  by_cases hfull : d ≤ (d * f).tdiv 50
  · exact .inr (hend hfull)
  · have hmi : m < i + 1 := lt_of_satAt hsat (by omega) (by omega)
    have him : satAt sat m ≤ satAt sat i := satAt_le hsat (by omega) (by omega)
    have hzero : (d * f).tdiv 50 = 0 := by omega
    have hmul : 50 * f ≤ d * f := Int.mul_le_mul_of_nonneg_right (by omega) hf
    exact .inl (by omega)

/-- Settles O39: the segment of the temperature, the bounds of the dew point by its segment, and saturated air by the two
truncations. -/
theorem dewPointStaysBelowTheAir : Obligations.DewPointStaysBelowTheAir := by
  intro sat tc rh hinc htc htc' hrh hrh' psat td
  have hsat : Increases sat 1 := increases_of hinc
  obtain ⟨i, f, hi, hf, hf', htcf, hp⟩ := saturationPressure_segment sat htc htc'
  have hstep := hsat i hi
  obtain ⟨hrise, -, -⟩ := rise_bounds (d := satAt sat (i + 1) - satAt sat i) (by omega) hf
  obtain ⟨htop, -⟩ := rise_le (d := satAt sat (i + 1) - satAt sat i) (by omega) hf hf'
  obtain ⟨hlow, hhigh, hend⟩ := saturationPressure_bounds hsat htc htc'
  have hpsat : 0 ≤ psat := (satAt_nonneg sat 0).trans hlow
  obtain ⟨hpv0, hpv⟩ := vapourPressure_bounds hpsat hrh hrh'
  have htd : td ≤ tc := htcf ▸ dewPoint_le hsat hi hf hf' (hp ▸ hpv)
  have hsaturated (h : rh = 1000) : td = dewPoint sat psat := by rw [← vapourPressure_saturated hpsat, ← h]
  have hentry (h : rh = 1000) (ht : ∃ i : Nat, i < 17 ∧ tc = -200 + 50 * (i : Int)) : td = tc :=
    (hsaturated h).trans (dewPoint_saturated_entry hsat ht)
  refine ⟨⟨i, f, hi, hf, hf', htcf, ?_, ?_, hp⟩, (dewPoint_bounds ..).1, (dewPoint_bounds ..).2, htd, dewPoint_below,
    fun h => ?_, fun pv j hj hle h16 hnext => ?_, fun pv => ⟨dewPoint_below, dewPoint_above hsat⟩, hentry, fun h hgap => ?_⟩
  · show satAt sat i ≤ saturationPressure sat tc
    omega
  · show saturationPressure sat tc ≤ satAt sat (i + 1)
    omega
  · have hfull : vapourPressure psat rh = psat := le_antisymm hpv (hhigh.trans h)
    exact ⟨dewPoint_above hsat h, hend (le_antisymm hhigh (h.trans hpv)), hfull⟩
  · refine dewPoint_within hsat hj hle ?_
    rcases Nat.lt_or_eq_of_le (show j + 1 ≤ 16 by omega) with hlt | hlast
    · exact hnext _ (Nat.lt_succ_self j) hlt
    · rw [hlast]; exact h16
  · have hgap : Increases sat 50 := increases_of hgap
    refine ⟨?_, fun ⟨m, hm, hpm⟩ => ?_⟩
    · rcases Int.lt_or_eq_of_le hf' with hlt | rfl
      · have := le_dewPoint_saturated hsat hi hf hlt (hgap i hi)
        rw [hsaturated h, htcf]
        show _ ≤ dewPoint sat (saturationPressure sat tc)
        rwa [hp]
      · rw [hentry h ⟨i + 1, by omega, by omega⟩]
        omega
    · rcases tableTemp_of_entry hgap hi hf hf' hm (hp.symm.trans hpm) with rfl | rfl
      · exact hentry h ⟨i, by omega, by omega⟩
      · exact hentry h ⟨i + 1, by omega, by omega⟩

end Sys2Proof.Machine
end

section
/-! SUPPORT. What follows the stages of an evaluation: the notice, the valves, the decision, the additions and an armed capture. -/

namespace Sys2Proof.Machine

/-! ### The valves (R57) -/

section Requests

variable {z : ZoneIx} {k : ActKind}

/-- Requests of every actuator of a kind and zone change actuators and queues alone. -/
theorem requestAll_frame (s : State) (k : ActKind) (z : ZoneIx) (v : ActCfg → Int) : s.requestAll k z v =
    { s with acts := (s.requestAll k z v).acts, disp := (s.requestAll k z v).disp } := by
  have hfold (l : List ActIx) : ∀ s : State, l.foldl (fun s a => s.jobRequest k z a (v s.cfg.acts[a])) s =
      { s with acts := (l.foldl (fun s a => s.jobRequest k z a (v s.cfg.acts[a])) s).acts
               disp := (l.foldl (fun s a => s.jobRequest k z a (v s.cfg.acts[a])) s).disp } := by
    induction l with
    | nil => exact fun s => rfl
    | cons a l ih =>
      intro s
      rw [List.foldl_cons, ih, jobRequest_frame]
  exact hfold _ s

/-- A value that depends on the actuator's entry, requested of a list of actuators, reaches each of the kind and zone. -/
theorem foldRequestAll_requested {v : ActCfg → Int} {a : ActIx} (l : List ActIx) : ∀ s : State,
    (s.cfg.acts[a]).inUse = true → (s.cfg.acts[a]).kind = k → (s.cfg.acts[a]).zone = z →
    a ∈ l ∨ (s.acts[a]).requested = some ((s.cfg.acts[a]).limited (v s.cfg.acts[a])) →
    ((l.foldl (fun s a => s.jobRequest k z a (v s.cfg.acts[a])) s).acts[a]).requested =
      some ((s.cfg.acts[a]).limited (v s.cfg.acts[a])) := by
  induction l with
  | nil => exact fun s _ _ _ h => h.resolve_left List.not_mem_nil
  | cons b l ih =>
    intro s hu hk hz h
    have hc : (s.jobRequest k z b (v s.cfg.acts[b])).cfg = s.cfg := by rw [jobRequest_frame]
    rw [List.foldl_cons, ih _ (by rw [hc]; exact hu) (by rw [hc]; exact hk) (by rw [hc]; exact hz), hc]
    rw [hc]
    by_cases hb : a = b
    · subst hb
      exact .inr (jobRequest_requested hu hk hz _)
    · rcases h with h | h
      · exact .inl ((List.mem_cons.1 h).resolve_left hb)
      · exact .inr (by rw [jobRequest_other hb]; exact h)

theorem requestAll_requested {s : State} {v : ActCfg → Int} {a : ActIx} (hu : (s.cfg.acts[a]).inUse = true)
    (hk : (s.cfg.acts[a]).kind = k) (hz : (s.cfg.acts[a]).zone = z) :
    ((s.requestAll k z v).acts[a]).requested = some ((s.cfg.acts[a]).limited (v s.cfg.acts[a])) :=
  foldRequestAll_requested (indices 96) s hu hk hz (.inl (mem_indices a))

theorem reaches_requestAll (s : State) (v : ActCfg → Int) : Reaches z [.acts k] 0 0 s (s.requestAll k z v) :=
  Reaches.foldl _ _ (fun s a _ => reaches_jobRequest s k a _) s

end Requests

/-! ### What closes an evaluation (R57, R67, R177, R178) -/

section Closing

variable {z : ZoneIx}

theorem reaches_stage9 (s : State) : Reaches z [.acts .heatValve] 0 0 s (s.stage9 z) := by
  unfold State.stage9
  exact reaches_requestAll ..

theorem stage9_frame (s : State) (z : ZoneIx) : s.stage9 z = { s with acts := (s.stage9 z).acts, disp := (s.stage9 z).disp } := by
  unfold State.stage9
  exact requestAll_frame ..

/-- The additions of R177, in their order. -/
theorem offerSums_eq (s : State) (z : ZoneIx) (n : Nat) : s.offerSums z n =
    match (s.zones[z]).eval.margin with
    | some m =>
      if m < (s.cfg.zones[z]).eval.mthr then
        ((s.offer z 0 (s.zones[z]).heat.h.toNat).offer z 1 (s.zones[z]).eval.d.toNat).offer z 2 n
      else (s.offer z 0 (s.zones[z]).heat.h.toNat).offer z 1 (s.zones[z]).eval.d.toNat
    | none => (s.offer z 0 (s.zones[z]).heat.h.toNat).offer z 1 (s.zones[z]).eval.d.toNat := by
  have hoffer (i : AccIx) (n : Nat) (t : State) : (t.offer z i n).cfg.zones = t.cfg.zones :=
    (zoneWork_offer t z i n rfl : OneZoneWork z _ _).zonesCfg
  unfold State.offerSums marginLow
  simp only [hoffer]
  cases (s.zones[z]).eval.margin with
  | none => rfl
  | some m =>
    by_cases hm : m < (s.cfg.zones[z]).eval.mthr
    · simp only [if_pos hm]; rfl
    · simp only [if_neg hm]; rfl

/-- The parts that the additions reach. -/
def sumParts : List Part := [.acc 0, .acc 1, .acc 2, .run]

theorem reaches_offerSums (s : State) (n : Nat) : Reaches z sumParts 3 0 s (s.offerSums z n) := by
  have hsums (h d : Nat) : Reaches z [.acc 0, .run, .acc 1, .run] 2 0 s ((s.offer z 0 h).offer z 1 d) :=
    (reaches_offer s 0 h).trans (reaches_offer _ 1 d)
  rw [offerSums_eq]
  split
  · split
    · exact ((hsums _ _).trans (reaches_offer _ 2 n)).mono (by decide) (by decide) (by decide)
    · exact (hsums _ _).mono (by decide) (by decide) (by decide)
  · exact (hsums _ _).mono (by decide) (by decide) (by decide)

/-- An armed capture leaves the actuators and, but for its arming, the zones (R178). -/
theorem armedCapture_leaves (s : State) (z : ZoneIx) : (s.armedCapture z).acts = s.acts ∧
    ((s.armedCapture z).zones[z]).arb = (s.zones[z]).arb ∧ ((s.armedCapture z).zones[z]).arming = none := by
  unfold State.armedCapture
  split
  next a h =>
    have hcap : ZoneWork (fun _ => False) s (s.capture z (.accOverflow a)) := zoneWork_capture ..
    refine ⟨Vector.ext fun i hi => hcap.act ⟨i, hi⟩ id, ?_, ?_⟩
    · rw [State.updZone_same, hcap.zone z id]
    · rw [State.updZone_same]
  next h => exact ⟨rfl, rfl, h⟩

/-- What follows the stages that form the results: the valves, the decision, the additions and the capture. -/
def State.evalClosed (s : State) (z : ZoneIx) (n : Nat) : State :=
  (((s.stage9 z).takeDecision z false).offerSums z n).armedCapture z

/-- The parts that the closing reaches after the valves. -/
theorem reaches_closing (s : State) (n : Nat) :
    Reaches z (decisionParts ++ sumParts) 4 1 s ((s.takeDecision z false).offerSums z n) :=
  (reaches_takeDecision s false).trans (reaches_offerSums _ n)

theorem evalClosed_decided (s : State) (z : ZoneIx) (n : Nat) :
    ((s.evalClosed z n).zones[z]).arb.lastDecision = some s.now := by
  rw [State.evalClosed, (armedCapture_leaves _ z).2.1, (reaches_offerSums _ n).stands .arb (by decide), takeDecision_decided,
    (reaches_stage9 s).work.now]

theorem evalClosed_arming (s : State) (z : ZoneIx) (n : Nat) : ((s.evalClosed z n).zones[z]).arming = none :=
  (armedCapture_leaves _ z).2.2

/-- A valve's request stands to the end of the evaluation (R57). -/
theorem evalClosed_valve {s : State} {a : ActIx} (n : Nat) (hu : (s.cfg.acts[a]).inUse = true)
    (hk : (s.cfg.acts[a]).kind = .heatValve) (hz : (s.cfg.acts[a]).zone = z) : ((s.evalClosed z n).acts[a]).requested =
      some ((s.cfg.acts[a]).limited (valvePosition (s.cfg.acts[a]) (s.zones[z]).heat.h)) := by
  have hkind : ((s.stage9 z).cfg.acts[a]).kind = .heatValve := by rw [(reaches_stage9 s).work.acts]; exact hk
  rw [State.evalClosed, (armedCapture_leaves _ z).1, (reaches_closing _ n).stands (.acts .heatValve) (by decide) a hkind]
  unfold State.stage9
  exact requestAll_requested hu hk hz

end Closing

/-! ### The order of an evaluation (R31, R41) -/

/-- The zone's record with the results of its stages 1 to 8. -/
def State.evalStored (s : State) (z : ZoneIx) : State := s.withEvaluation z (s.evalStages z) (s.heatStages z)

/-- With CONDENSATION raised where the evaluation enters CRIT. -/
def State.evalNoticed (s : State) (z : ZoneIx) : State :=
  if (s.evalStages z).crit && !(s.zones[z]).eval.crit then (s.evalStored z).raiseCondensation z else s.evalStored z

theorem evaluate_eq (s : State) (z : ZoneIx) :
    s.evaluate z = (s.evalNoticed z).evalClosed z (s.zones[z]).eval.startedPeriod := by
  unfold State.evaluate State.evalClosed
  rfl

variable {s : State} {z : ZoneIx}

theorem evalStored_zone (s : State) (z : ZoneIx) : (s.evalStored z).zones[z] = { s.zones[z] with
    eval := { s.evalStages z with
      timer := .running ((s.cfg.zones[z]).eval.period * 1000), startedPeriod := (s.cfg.zones[z]).eval.period
      lastTime := some s.now }
    heat := s.heatStages z } := State.updZone_same ..

/-- The notice leaves the state but for the management unit. -/
theorem evalNoticed_frame (s : State) (z : ZoneIx) :
    s.evalNoticed z = { s.evalStored z with mgmt := (s.evalNoticed z).mgmt } := by
  unfold State.evalNoticed
  split
  · exact raise_frame ..
  · rfl

theorem evalNoticed_cfg (s : State) (z : ZoneIx) : (s.evalNoticed z).cfg = s.cfg := by rw [evalNoticed_frame]; rfl

theorem evalNoticed_acts (s : State) (z : ZoneIx) : (s.evalNoticed z).acts = s.acts := by rw [evalNoticed_frame]; rfl

theorem evalNoticed_now (s : State) (z : ZoneIx) : (s.evalNoticed z).now = s.now := by rw [evalNoticed_frame]; rfl

theorem evalNoticed_zone (s : State) (z : ZoneIx) : (s.evalNoticed z).zones[z] = (s.evalStored z).zones[z] := by
  rw [evalNoticed_frame]

/-- The notice carries the new results (R41). -/
theorem raiseCondensation_stored (s : State) (z : ZoneIx) : (s.evalStored z).raiseCondensation z =
    (s.evalStored z).raise .condensation (BitVec.ofNat 8 z) (presentNum (s.evalStages z).td ++
      presentNum (s.evalStages z).tg.last ++ presentNum (s.evalStages z).margin ++ numField (s.cfg.zones[z]).eval.mcrit) := by
  unfold State.raiseCondensation
  rw [evalStored_zone]
  rfl

/-- The additions of an evaluation are those of the results that it has formed. -/
theorem evalNoticed_offerSums {v : State} (h : OneZoneWork z (s.evalNoticed z) v) (n : Nat) : v.offerSums z n =
    match (s.evalStages z).margin with
    | some m =>
      if m < (s.cfg.zones[z]).eval.mthr then
        ((v.offer z 0 (s.heatStages z).h.toNat).offer z 1 (s.evalStages z).d.toNat).offer z 2 n
      else (v.offer z 0 (s.heatStages z).h.toNat).offer z 1 (s.evalStages z).d.toNat
    | none => (v.offer z 0 (s.heatStages z).h.toNat).offer z 1 (s.evalStages z).d.toNat := by
  rw [offerSums_eq, h.eval z, h.heat z, h.zonesCfg, evalNoticed_cfg, evalNoticed_zone, evalStored_zone]

/-- Settles O37: the stages' results, and what follows them in the order of R31. -/
theorem evaluationFormsItsResults : Obligations.EvaluationFormsItsResults := by
  intro s z hdue
  have hexec : exec (.evaluation z) s = .next (s.evaluate z) := by
    show Host.Outcome.next _ = _
    rw [if_pos ((due_iff _).2 hdue)]
  have hvalves := reaches_stage9 (z := z) (s.evalNoticed z)
  have hrequested (a : ActIx) (hu : (s.cfg.acts[a]).inUse = true) (hk : (s.cfg.acts[a]).kind = .heatValve)
      (hz : (s.cfg.acts[a]).zone = z) : ((s.evaluate z).acts[a]).requested =
        some ((s.cfg.acts[a]).limited
          ((s.cfg.acts[a]).min + (((s.cfg.acts[a]).max - (s.cfg.acts[a]).min) * (s.heatStages z).h).tdiv 1000)) := by
    have hcfg := evalNoticed_cfg s z
    rw [evaluate_eq, evalClosed_valve (s := s.evalNoticed z) _ (hcfg ▸ hu) (hcfg ▸ hk) (hcfg ▸ hz), hcfg, evalNoticed_zone,
      evalStored_zone, valvePosition]
  refine ⟨s.evaluate z, (s.evalNoticed z).stage9 z, s.evalStages z, s.heatStages z, hexec, evaluated_forms s z, ?_,
    by rw [evaluate_eq, evalClosed_arming], ?_, ?_, ?_⟩
  · rw [← evaluated_eq]
    exact zoneWork_evaluate s z rfl
  · rw [evaluate_eq, evalClosed_decided, evalNoticed_now]
  · exact hrequested
  · intro carried noticed summed closed
    have hcarried (x : Option Int) : presentNum x = carried x := by cases x <;> rfl
    have hnoticed : s.evalNoticed z = noticed := by
      have hcrit : ((s.evalStages z).crit && !(s.zones[z]).eval.crit) = true ↔
          (s.evalStages z).crit = true ∧ (s.zones[z]).eval.crit = false := by simp
      unfold State.evalNoticed
      rw [raiseCondensation_stored]
      simp only [hcrit, hcarried]
      rfl
    have hclosed : (((s.evalNoticed z).stage9 z).takeDecision z false).offerSums z (s.zones[z]).eval.startedPeriod = closed :=
      evalNoticed_offerSums (hvalves.work.trans (zoneWork_takeDecision _ z false rfl)) _
    refine ⟨?_, hnoticed ▸ hvalves.work, fun a ha => ?_, ?_⟩
    · rw [← hnoticed, ← hvalves.work.disp]
      exact stage9_frame ..
    · rw [← evalNoticed_acts s z]
      exact hvalves.stands (.acts (s.cfg.acts[a]).kind) (fun h => ha (Part.acts.inj (List.mem_singleton.1 h))) a (by rw [evalNoticed_cfg])
    · rw [evaluate_eq, State.evalClosed, hclosed, State.armedCapture]
      cases (closed.zones[z]).arming <;> rfl

end Sys2Proof.Machine
end

section
/-! SUPPORT. Writes of zones, groups, scenes, the saturation table and the filter that pass their checks, and the requests that read
flags and the line status. -/

namespace Sys2Proof.Machine

variable {s : State} {c : Channel} {t : Telegram}

/-! ### Writes that pass their checks (R27, R28, R105, R106, R108, R154) -/

/-- Settles O16: the fields that pass the checks are stored with the zone's own enabled. -/
theorem writeZoneReplacesTheConfiguration : Obligations.WriteZoneReplacesTheConfiguration := by
  intro s c t z e hw hf hu hok
  refine exec_writeZone (v := ((s.written c).updCfg fun k => { k with
    zones := k.zones.set z { e with eval := { e.eval with enabled := (s.cfg.zones[z]).eval.enabled } } }, .done)) hw hf ?_
  rw [writeZone_eq, written_cfg, protectRefuses_of hu, (zoneOk_iff e).2 hok, State.enabled, written_cfg]
  rfl

/-- A list that every item's reading gives back (R105). -/
theorem mapM_map_some {α β : Type} {f : α → Option β} {g : β → α} {l : List β} (h : ∀ x ∈ l, f (g x) = some x) :
    (l.map g).mapM f = some l := by
  induction l with
  | nil => rfl
  | cons x l ih =>
    rw [List.map_cons, List.mapM_cons, h x List.mem_cons_self, ih fun y hy => h y (List.mem_cons_of_mem _ hy)]
    rfl

/-- The code of a dimmer in use names it (R105, R108). -/
theorem filter_dimmer {a : ActIx} (h : (s.cfg.acts[a]).inUse = true ∧ (s.cfg.acts[a]).kind = .dimmer) :
    ((asIndex 96 a.val).filter fun a => (s.cfg.acts[a]).inUse && (s.cfg.acts[a]).kind == .dimmer) = some a := by
  rw [asIndex_val, Option.filter_some, if_pos]
  rw [h.1, h.2]
  rfl

/-- The codes of distinct dimmers in use are their list (R105). -/
theorem groupList_some {list : List ActIx} (hl : list.length ≤ 16) (hn : list.Nodup)
    (hd : ∀ a ∈ list, (s.cfg.acts[a]).inUse = true ∧ (s.cfg.acts[a]).kind = .dimmer) :
    s.groupList (list.map Fin.val) = some list := by
  rw [State.groupList, if_pos ⟨by simpa using hl, hn.map Fin.val_injective⟩]
  exact mapM_map_some fun a ha => filter_dimmer (hd a ha)

/-- A cue whose fields lie in their ranges and whose target is a dimmer in use or a group is stored as written (R107, R108). -/
theorem cueEntry_some {x : Cue} (h0 : 0 ≤ x.level) (h1 : x.level ≤ 1000) (hf : x.fade ≤ 6000) (hd : x.delay ≤ 6000)
    (hs : x.skip ≤ 15) (ht : ∀ a, x.target = some (.actuator a) → (s.cfg.acts[a]).inUse = true ∧ (s.cfg.acts[a]).kind = .dimmer) :
    s.cueEntry x.raw = some x := by
  have htarget : judgeOpt s.cueTarget x.raw.target = some x.target := by
    cases hx : x.target with
    | none => simp [Cue.raw, hx, judgeOpt]
    | some target =>
      cases target with
      | actuator a => simp only [Cue.raw, hx, judgeOpt, State.cueTarget, CueTarget.raw, Option.map_some, if_true, filter_dimmer (ht a hx)]
      | group g => simp [Cue.raw, hx, judgeOpt, State.cueTarget, CueTarget.raw, asIndex_val]
  have hguard : judgeOpt RawGuard.guard x.raw.guard = some x.guard := by
    cases hx : x.guard with
    | none => simp [Cue.raw, hx, judgeOpt]
    | some g => simp [Cue.raw, hx, judgeOpt, guard_raw]
  have hrange : (within x.level 0 1000 && within x.fade 0 6000 && within x.delay 0 6000 && within x.skip 0 15) = true := by
    simp only [Bool.and_eq_true, within_iff]
    omega
  simp only [State.cueEntry, htarget, hguard]
  exact if_pos hrange

/-- A table that increases from 1 on is stored (R28). -/
theorem writeSaturation_ok {sat : Vector Nat 17} (hr : ∀ i : Nat, (h : i < 17) → 1 ≤ sat[i] ∧ sat[i] ≤ 65535)
    (hi : ∀ i : Nat, (h : i < 16) → sat[i] < sat[i + 1]) :
    s.writeSaturation 0 sat.toList = (s.updCfg fun k => { k with saturation := sat }, .done) := by
  have hok : (increasing sat.toList && sat.toList.all fun v => within v 1 65535) = true := by
    simp only [Bool.and_eq_true, increasing_iff, List.isChain_iff_getElem, List.all_eq_true, within_iff]
    refine ⟨fun i h => ?_, fun v hv => ?_⟩
    · simp only [Vector.length_toList] at h
      simpa using hi i (by omega)
    · obtain ⟨i, h, rfl⟩ := List.mem_iff_getElem.1 hv
      simp only [Vector.length_toList] at h
      have := hr i h
      simp only [Vector.getElem_toList]
      omega
  simp only [State.writeSaturation, if_true, Vector.length_toList, dif_pos, if_pos hok]
  rfl

/-- Settles O15: each table's own rule on an entry that passes its checks. -/
theorem otherTableWritesReplaceTheEntry : Obligations.OtherTableWritesReplaceTheEntry := by
  intro s c t
  refine ⟨fun g list hw hl hn hd hr => ?_, fun n x hw hu hr hx => ?_, fun n i x hw hf hp hr h0 h1 hfade hdelay hskip ht => ?_,
    fun sat hw hr hi => ?_, fun i f hw hlo hhi hok => ?_⟩
  · refine exec_write hw (tid := .group) rfl (v := ((s.written c).updCfg fun k => { k with groups := k.groups.set g list }, .done)) ?_
    refine (decodeThen_reads (reads_group list (by omega)) (s.written c) _).trans ?_
    rw [writeGroup_eq, groupRunning_written, hr, groupList_some hl hn (by rw [written_cfg]; exact hd)]
    rfl
  · refine exec_writeHeader (v := ((s.written c).updCfg fun k => { k with headers := k.headers.set n x }, .done)) hw (by omega) ?_
    rw [writeHeader_eq, written_cfg, protectRefuses_of hu, sceneRunning_written, hr, if_pos hx]
    rfl
  · refine exec_writeCue (v := ((s.written c).updCfg fun k => { k with cues := k.cues.set n ((k.cues[n]).set i x) }, .done)) hw hf ?_
    have hfree : ¬ (c = .trunk ∧ (s.cfg.headers[n]).protect = true) := by
      rintro ⟨hc, hmark⟩
      rcases hp with h | h
      · rw [h] at hc; cases hc
      · rw [h] at hmark; cases hmark
    rw [writeCue_eq, written_cfg, if_neg hfree, sceneRunning_written, hr,
      cueEntry_some h0 h1 hfade hdelay hskip (by rw [written_cfg]; exact ht)]
    rfl
  · refine exec_write hw (tid := .saturation) rfl
      (v := ((s.written c).updCfg fun k => { k with saturation := sat }, .done)) ?_
    exact (decodeThen_reads (reads_saturation sat (nat16_toList fun i h => by have := hr i h; omega)) (s.written c) _).trans
      (writeSaturation_ok hr hi)
  · refine exec_write hw (tid := .filter) rfl
      (v := ((s.written c).updCfg fun k => { k with filter := k.filter.set i f }, .done)) ?_
    exact (decodeThen_reads (reads_filter f hlo hhi) (s.written c) ((s.written c).writeFilter i.val)).trans
      ((writeFilter_eq _ i f).trans (if_pos ((filterValid_iff f).2 hok)))

/-! ### Flags (R43, R170, R174) -/

/-- A set of flags has the flag of each place as its bit (R170). -/
theorem getLsbD_flagSet (flags : List Bool) (h : flags.length ≤ 8) (i : Nat) :
    (flagSet flags).getLsbD i = flags.getD i false := by
  induction flags generalizing i with
  | nil => simp [flagSet]
  | cons b flags ih =>
    have hstep : flagSet (b :: flags) = (flagSet flags <<< 1) ||| BitVec.ofNat 8 b.toNat := rfl
    rw [hstep, BitVec.getLsbD_or, BitVec.getLsbD_shiftLeft]
    have hrest := ih (by simp at h; omega)
    cases i with
    | zero => cases b <;> simp
    | succ i =>
      have hbit : (BitVec.ofNat 8 b.toNat).getLsbD (i + 1) = false := by
        cases b <;> simp [BitVec.getLsbD_ofNat, Nat.testBit_succ]
      rw [hbit, Bool.or_false, List.getD_cons_succ, Nat.add_sub_cancel, hrest]
      by_cases hi : i + 1 < 8
      · simp [hi]
      · have : flags.getD i false = false := List.getD_eq_default _ _ (by simp at h; omega)
        rw [this]
        simp [hi]

/-- The sum of the powers of two of the places that hold. -/
def powerSum {n : Nat} (f : Fin n → Bool) : Nat := ((List.finRange n).map fun i => if f i then 2 ^ i.val else 0).sum

theorem powerSum_succ {n : Nat} (f : Fin (n + 1) → Bool) :
    powerSum f = (if f (Fin.last n) then 2 ^ n else 0) + powerSum fun i => f i.castSucc := by
  rw [powerSum, List.finRange_succ_last, List.map_append, List.sum_append, List.map_map, Nat.add_comm]
  simp [powerSum, Function.comp_def]

theorem powerSum_lt {n : Nat} (f : Fin n → Bool) : powerSum f < 2 ^ n := by
  induction n with
  | zero => simp [powerSum]
  | succ n ih =>
    have := ih fun i => f i.castSucc
    rw [powerSum_succ, Nat.pow_succ]
    split <;> omega

/-- Its bits are the places that hold. -/
theorem testBit_powerSum {n : Nat} (f : Fin n → Bool) (j : Fin n) : (powerSum f).testBit j = f j := by
  induction n with
  | zero => exact j.elim0
  | succ n ih =>
    have hlt := powerSum_lt fun i => f i.castSucc
    rw [powerSum_succ]
    cases j using Fin.lastCases with
    | last =>
      split
      next h => rw [Fin.val_last, Nat.testBit_two_pow_add_eq, Nat.testBit_lt_two_pow hlt, h]; rfl
      next h => rw [Fin.val_last, Nat.zero_add, Nat.testBit_lt_two_pow hlt]; simpa using h
    | cast j =>
      have hj := ih (fun i => f i.castSucc) j
      split
      · rw [Fin.val_castSucc, Nat.testBit_two_pow_add_gt j.isLt, hj]
      · rw [Fin.val_castSucc, Nat.zero_add, hj]

/-- Bit t of the tags held is whether tag t is outstanding (R169). -/
theorem getLsbD_heldTags (s : State) (t : Tag) :
    (BitVec.ofNat 16 s.heldTags).getLsbD t = true ↔ ∃ o ∈ s.disp.outstanding, o.tag = t := by
  have hsum : s.heldTags = powerSum s.tagHeld := rfl
  rw [BitVec.getLsbD_ofNat, hsum, testBit_powerSum]
  simp [State.tagHeld]

/-! ### READ_FLAGS and LINE_STATUS -/

theorem clearFlags_part (s : State) (mask : Byte) : s.clearFlags 255 mask =
    { s with mgmt := { s.mgmt with flags := s.mgmt.flags.clearMasked mask } } := rfl

theorem clearFlags_zone (s : State) (z : ZoneIx) (mask : Byte) :
    s.clearFlags z.val mask = s.updZone z fun r => r.clearMasked mask := by
  have hz : z.val ≠ 255 := by have := z.isLt; omega
  rw [State.clearFlags, if_neg hz, asIndex_val]

theorem flagBytes_zone (s : State) (z : ZoneIx) : s.flagBytes z.val =
    some [(s.zones[z]).stickyByte, (s.zones[z]).indicatorByte, (s.zones[z]).heldByte] := by
  have hz : z.val ≠ 255 := by have := z.isLt; omega
  rw [State.flagBytes, if_neg hz, asIndex_val]
  rfl

/-- READ_FLAGS's own rule on a selector that names flags. -/
theorem exec_readFlags {selector mask : Byte} {flags : List Byte} (h : NextIs s c t 7 [selector, mask])
    (hf : (s.taken c).flagBytes selector.toNat = some flags) :
    exec .readFlags s = .next (((s.taken c).clearFlags selector.toNat mask).replied c t 7 .done flags) := by
  have hrow : (Request.of c t).row = .readFlags := by
    unfold Request.row; rw [kind_of_next h]; rfl
  have h0 : (Request.of c t).param 0 = selector.toNat := by rw [request_param h.payload]; rfl
  have h1 : BitVec.ofNat 8 ((Request.of c t).param 1) = mask := by rw [request_param h.payload]; simp
  show Host.Outcome.next (s.serve .readFlags readFlagsOwn) = _
  rw [serve_own _ _ h hrow, readFlagsOwn, h0, h1, hf]
  exact congrArg _ (reply_now _ rfl h.payload)

/-- LINE_STATUS's own rule. -/
theorem exec_lineStatus {seg : Byte} (h : NextIs s c t 8 [seg]) (hallBusy trunkBusy : Bool) :
    exec (.lineStatus hallBusy trunkBusy) s = .next
      (if seg.toNat < segmentCount ((s.taken c).lineStatusBytes hallBusy trunkBusy) then
        (s.taken c).replied c t 8 .done ([seg, BitVec.ofNat 8 (segmentCount ((s.taken c).lineStatusBytes hallBusy trunkBusy))] ++
          segmentOf ((s.taken c).lineStatusBytes hallBusy trunkBusy) seg.toNat)
      else (s.taken c).replied c t 8 .badValue []) := by
  have hrow : (Request.of c t).row = .lineStatus false false := by
    unfold Request.row; rw [kind_of_next h]; rfl
  have h0 : (Request.of c t).param 0 = seg.toNat := by rw [request_param h.payload]; rfl
  show Host.Outcome.next (s.serve (.lineStatus false false) (lineStatusOwn hallBusy trunkBusy)) = _
  rw [serve_own _ _ h hrow, lineStatusOwn, h0, segment_answer _ h.payload]

theorem taken_zones (s : State) (c : Channel) : (s.taken c).zones = s.zones := by cases c <;> rfl

theorem taken_flags (s : State) (c : Channel) : (s.taken c).mgmt.flags = s.mgmt.flags := by cases c <;> rfl

/-- The state of a transmitter in the code of its order (R156). -/
theorem named_txState (s : State) (line : Line) (busy : Bool) : named txStateOrder (s.txState line busy) =
    [match s.lines.tx line with
      | .free => if busy && s.txWaits line then (1 : Byte) else 0
      | .waiting _ _ _ => 1
      | .sending _ _ _ => 2] := by
  unfold State.txState
  cases s.lines.tx line with
  | free => cases busy && s.txWaits line <;> rfl
  | sending _ _ _ => rfl
  | waiting _ _ _ => rfl

theorem natField_ne_nil (n : Nat) : natField n ≠ [] := by simp [natField, numField]

theorem lineStatusBytes_ne_nil (s : State) (hallBusy trunkBusy : Bool) : s.lineStatusBytes hallBusy trunkBusy ≠ [] := by
  unfold State.lineStatusBytes
  intro h
  simp only [List.append_assoc] at h
  exact natField_ne_nil _ (List.append_eq_nil_iff.1 h).1

theorem named_job (j : Job) : named jobOrder j =
    [match j with | .heat => (0 : Byte) | .air => 1 | .cover => 2 | .light => 3] := by cases j <;> rfl

theorem named_localMode (held : Bool) : named localModeOrder held = [if held then 0 else 1] := by cases held <;> rfl

theorem yesNo_eq (b : Bool) : yesNo b = [if b then 1 else 0] := by cases b <;> rfl

theorem optField_commit (commit : Option Commit) :
    optField (fun (k : Commit) => named channelOrder k.channel) commit = match commit with
      | none => [(0 : Byte)]
      | some k => [1, match k.channel with | .trunk => 0 | .service => 1] := by
  rcases commit with _ | ⟨channel, _⟩
  · rfl
  · cases channel <;> rfl

theorem tx_hall (s : State) : s.lines.tx .hall = s.lines.hallTx := rfl

theorem tx_trunk (s : State) : s.lines.tx .trunk = s.lines.trunkTx := rfl

/-- One field of each kind of work, in their order (R166). -/
theorem flatMap_job (f : Job → List Byte) : jobOrder.flatMap f = f .heat ++ (f .air ++ (f .cover ++ f .light)) := by
  simp [jobOrder]

/-- Settles O6: the two requests by their own rules, and their bytes field by field. -/
theorem flagsAndLineStatusAreRead : Obligations.FlagsAndLineStatusAreRead := by
  refine ⟨fun s c t seg hallBusy trunkBusy h => ?_, fun s c t mask => ⟨fun h => ?_, fun z h => ?_, fun i hi => ?_,
    fun z i => ?_, fun hallBusy trunkBusy => ?_, getLsbD_heldTags s⟩⟩
  · intro bytes
    have hne : bytes ≠ [] := lineStatusBytes_ne_nil _ _ _
    have hcount : segmentCount bytes = (bytes.length + 24) / 25 := by
      have := List.length_pos_iff.2 hne
      unfold segmentCount
      omega
    rw [exec_lineStatus h]
    by_cases hs : seg.toNat < segmentCount bytes
    · rw [if_pos hs, if_pos ((segmentCount_gt bytes seg.toNat hne).1 hs), ← hcount]
      rfl
    · rw [if_neg hs, if_neg fun h => hs ((segmentCount_gt bytes seg.toNat hne).2 h)]
  · rw [exec_readFlags h (flags := [s.mgmt.flags.byte]) (by rw [← taken_flags s c]; rfl), ← taken_flags s c]
    exact congrArg (fun u : State => Host.Outcome.next (u.replied c t 7 .done _)) (clearFlags_part (s.taken c) mask)
  · have hz : (BitVec.ofNat 8 z.val : Byte).toNat = z.val := by have := z.isLt; simp; omega
    rw [exec_readFlags h (by rw [hz]; exact flagBytes_zone (s.taken c) z), hz, clearFlags_zone, taken_zones]
    rfl
  · exact getLsbD_flagSet _ (by simp) i
  · exact ⟨getLsbD_flagSet _ (by simp) i, getLsbD_flagSet _ (by simp) i, getLsbD_flagSet _ (by simp) i⟩
  · intro state attempt
    have hattempt (tx : Transmitter) : numField (tx.attempt : Int) = numField (attempt tx) := by cases tx <;> rfl
    unfold State.lineStatusBytes
    simp only [perJobBytes, flatMap_job, yesNo_eq, named_job, named_txState, named_localMode, optField_commit, hattempt,
      tx_hall, tx_trunk, natField, List.append_assoc, List.cons_append, List.nil_append]
    rfl

end Sys2Proof.Machine
end

section
/-! SUPPORT. What work in a zone leaves of the zone's record: the hold and its cause through every operation, and the arming and the
purge timer through changes of the covers that concern no purge. -/

namespace Sys2Proof.Machine

section Keeping

variable {α : Type} {f : ZoneRt → α} {z : ZoneIx} {s t u : State}

/-- What `f` reads of the zone's record is in `t` what it is in `s`. -/
def Keeps (f : ZoneRt → α) (z : ZoneIx) (s t : State) : Prop := f t.zones[z] = f s.zones[z]

/-- What `f` reads does not depend on the touched channels and the step timer of the zone's scene. -/
def IgnoresFades (f : ZoneRt → α) : Prop :=
  ∀ r touched timer, f { r with scene := { r.scene with touched := touched, stepTimer := timer } } = f r

/-- What `f` reads does not depend on the records of the arbiter, the cover sequencer and the scene engine. -/
structure IgnoresBlocks (f : ZoneRt → α) : Prop where
  arb : ∀ r x, f { r with arb := x } = f r
  cover : ∀ r x, f { r with cover := x } = f r
  scene : ∀ r x, f { r with scene := x } = f r

/-- What `f` reads does not depend on the purge timer, nor on the arming that an account may leave at a purge's end. -/
structure IgnoresPurge (f : ZoneRt → α) : Prop where
  purge : ∀ r x, f { r with purge := x } = f r
  arming : ∀ r x, f { r with arming := x } = f r

theorem IgnoresBlocks.fades (hf : IgnoresBlocks f) : IgnoresFades f := fun r _ _ => hf.scene r _

theorem IgnoresBlocks.both (hf : IgnoresBlocks f) (r : ZoneRt) (c : CoverRt) (e : SceneRt) :
    f { r with cover := c, scene := e } = f r :=
  (hf.scene { r with cover := c } e).trans (hf.cover r c)

theorem Keeps.refl (f : ZoneRt → α) (z : ZoneIx) (s : State) : Keeps f z s s := rfl

theorem Keeps.trans (h : Keeps f z s t) (h' : Keeps f z t u) : Keeps f z s u := Eq.trans h' h

theorem Keeps.of_zones (h : t.zones = s.zones) : Keeps f z s t := by unfold Keeps; rw [h]

theorem Keeps.foldl {β : Type} (g : State → β → State) (h : ∀ s a, Keeps f z s (g s a)) (l : List β) :
    ∀ s, Keeps f z s (l.foldl g s) := by
  induction l with
  | nil => exact fun s => .refl f z s
  | cons a l ih => exact fun s => (h s a).trans (ih (g s a))

theorem keeps_updZone (g : ZoneRt → ZoneRt) (h : f (g s.zones[z]) = f s.zones[z]) : Keeps f z s (s.updZone z g) := by
  unfold Keeps
  rw [State.updZone_same]
  exact h

/-! ### Requests, the ring, notices and accumulators -/

theorem jobRequest_zones (s : State) (k : ActKind) (w : ZoneIx) (a : ActIx) (v : Int) : (s.jobRequest k w a v).zones = s.zones := by
  rw [jobRequest_frame]

theorem keeps_requestFans (s : State) (v : Int) : Keeps f z s (s.requestFans z v) := by
  unfold State.requestFans
  exact .of_zones (by rw [requestAll_frame])

theorem keeps_requestDrives (s : State) (v : Int) : Keeps f z s (s.requestDrives z v) :=
  .of_zones (by rw [requestDrives_frame])

theorem airRequest_zones (s : State) (z : ZoneIx) (m : Mode) (n : Bool) (d : Int) (a : ActIx) :
    (s.airRequest z m n d a).zones = s.zones := by
  unfold State.airRequest
  dsimp only
  split
  · exact jobRequest_zones ..
  · exact jobRequest_zones ..
  · exact jobRequest_zones ..
  all_goals rfl

theorem keeps_airOutputs (s : State) : Keeps f z s (s.airOutputs z) :=
  Keeps.foldl _ (fun s a => .of_zones (airRequest_zones s z _ _ _ a)) _ s

theorem keeps_appendRing (s : State) (e : RingEntry) : Keeps f z s (s.appendRing z e) := .of_zones (by rw [appendRing_frame])

theorem keeps_raise (s : State) (k : NoticeKind) (w : Byte) (d : List Byte) : Keeps f z s (s.raise k w d) :=
  .of_zones (by rw [raise_frame])

theorem keeps_accOverflow (hp : IgnoresPurge f) (s : State) (i : AccIx) (v : BitVec 32) : Keeps f z s (s.accOverflow z i v) := by
  have hrun (t : State) (b : Bool) : Keeps f z t (if b then t.updPart fun p => { p with run := false } else t) := by
    cases b <;> exact .refl f z t
  have harm (t : State) (b : Bool) : Keeps f z t (if b then
      t.updZone z fun r => { r with arming := match r.arming with | some first => some first | none => some i } else t) := by
    cases b
    · exact .refl f z t
    · rw [if_pos rfl]
      refine keeps_updZone _ ?_
      exact hp.arming _ _
  unfold State.accOverflow
  exact ((keeps_raise s .accOverflow _ _).trans (hrun _ _)).trans (harm _ _)

theorem keeps_offer (hp : IgnoresPurge f) (s : State) (i : AccIx) (n : Nat) : Keeps f z s (s.offer z i n) := by
  unfold State.offer
  split
  · dsimp only
    split
    · exact .refl f z s
    · exact keeps_accOverflow hp _ i _
  · exact .refl f z s

/-! ### The purge timer and the arbiter -/

theorem keeps_updPurge (hp : IgnoresPurge f) (s : State) (g : PurgeRt → PurgeRt) : Keeps f z s (s.updPurge z g) :=
  keeps_updZone _ (hp.purge _ _)

theorem keeps_purgeLeaveRun (hp : IgnoresPurge f) (s : State) : Keeps f z s (s.purgeLeaveRun z) := by
  unfold State.purgeLeaveRun
  exact ((keeps_requestFans s 0).trans (keeps_offer hp _ accPurgeRun _)).trans (keeps_updPurge hp _ _)

theorem keeps_purgeWithdrawn (hp : IgnoresPurge f) (s : State) : Keeps f z s (s.purgeWithdrawn z) := by
  unfold State.purgeWithdrawn
  split
  · refine (keeps_purgeLeaveRun hp s).trans ?_
    dsimp only
    split
    · exact keeps_updPurge hp _ _
    · exact keeps_updPurge hp _ _
  · exact .refl f z s

theorem keeps_tellPurge (hp : IgnoresPurge f) (s : State) (l g : Mode) : Keeps f z s (s.tellPurge z l g) := by
  unfold State.tellPurge
  dsimp only
  split
  · exact (keeps_updPurge hp s _).trans (keeps_requestFans _ _)
  · split
    · exact keeps_purgeWithdrawn hp s
    · exact .refl f z s

theorem tellPurge_apart (s : State) (z : ZoneIx) {left granted : Mode} (hl : left ≠ .purge) (hg : granted ≠ .purge) :
    s.tellPurge z left granted = s := by
  unfold State.tellPurge
  dsimp only
  rw [if_neg fun h => hg h.1, if_neg fun h => hl h.1]

theorem keeps_updArb (hf : IgnoresBlocks f) (s : State) (g : ArbRt → ArbRt) : Keeps f z s (s.updArb z g) :=
  keeps_updZone _ (hf.arb _ _)

/-- PURGE is not granted and cannot be chosen, the covers not being COVERED (R68). -/
structure NoPurge (s : State) (z : ZoneIx) : Prop where
  granted : (s.zones[z]).arb.granted ≠ .purge
  state : (s.zones[z]).cover.state ≠ .covered

theorem NoPurge.of_stands (h : NoPurge s z) (ha : (t.zones[z]).arb = (s.zones[z]).arb)
    (hc : (t.zones[z]).cover.state = (s.zones[z]).cover.state) : NoPurge t z := ⟨by rw [ha]; exact h.granted, by rw [hc]; exact h.state⟩

theorem NoPurge.of_zones (h : NoPurge s z) (hz : t.zones = s.zones) : NoPurge t z := h.of_stands (by rw [hz]) (by rw [hz])

theorem NoPurge.choice (h : NoPurge s z) (vent : Bool) : (s.choiceRow z).mode vent ≠ .purge := by
  have hclaims : (s.zones[z]).purgeClaims = false := by
    unfold ZoneRt.purgeClaims
    rw [beq_false_of_ne h.state, Bool.and_false]
  refine mode_ne_purge ?_ vent
  unfold State.choiceRow
  dsimp only
  rw [hclaims]
  exact restRow_ne_purge (s.enabled z) _ _ _ _ _ _

/-- A change of mode in the arbiter's record and the ring, before the purge timer is told (R73). -/
def State.modeNoted (s : State) (z : ZoneIx) (m : Mode) (c : ModeCause) : State :=
  (s.updArb z fun r => { r with
    granted := m, grantTime := some s.now, dwell := .seconds (s.cfg.zones[z]).arb.dwell, pending := none
    lastCause := some c }).appendRing z (.ahu (s.zones[z]).arb.granted m c)

theorem changeMode_eq (s : State) (z : ZoneIx) (m : Mode) (c : ModeCause) :
    s.changeMode z m c = (s.modeNoted z m c).tellPurge z (s.zones[z]).arb.granted m := rfl

theorem reaches_modeNoted (s : State) (m : Mode) (c : ModeCause) : Reaches z [.arb] 0 1 s (s.modeNoted z m c) :=
  (reaches_updArb s _).trans (reaches_appendRing _ _)

theorem keeps_modeNoted (hf : IgnoresBlocks f) (s : State) (m : Mode) (c : ModeCause) : Keeps f z s (s.modeNoted z m c) :=
  (keeps_updArb hf s _).trans (keeps_appendRing _ _)

/-- A change between modes other than PURGE tells the purge timer nothing (R74). -/
theorem changeMode_apart {m : Mode} (hl : (s.zones[z]).arb.granted ≠ .purge) (hm : m ≠ .purge) (c : ModeCause) :
    s.changeMode z m c = s.modeNoted z m c := by
  rw [changeMode_eq, tellPurge_apart _ _ hl hm]

/-- A decision without PURGE notes why nothing changes, or changes to a mode other than PURGE. -/
theorem NoPurge.arbitrate_cases (h : NoPurge s z) (release : Bool) :
    (∃ p, s.arbitrateMode z release = (s.choiceNoted z).updArb z fun a => { a with pending := p }) ∨
    ∃ m c, m ≠ .purge ∧ s.arbitrateMode z release = (s.choiceNoted z).changeMode z m c := by
  unfold State.arbitrateMode
  dsimp only
  split
  · exact .inl ⟨none, rfl⟩
  · split
    · exact .inl ⟨some .dwell, rfl⟩
    · split
      · exact .inl ⟨some .hold, rfl⟩
      · exact .inr ⟨_, _, h.choice _, rfl⟩

theorem choiceNoted_granted (s : State) (z : ZoneIx) : ((s.choiceNoted z).zones[z]).arb.granted = (s.zones[z]).arb.granted := by
  rw [State.choiceNoted, updArb_arb]

theorem NoPurge.arbitrate_keeps (h : NoPurge s z) (hf : IgnoresBlocks f) (release : Bool) :
    Keeps f z s (s.arbitrateMode z release) := by
  rcases h.arbitrate_cases release with ⟨p, he⟩ | ⟨m, c, hm, he⟩ <;> rw [he]
  · exact (keeps_updArb hf s _).trans (keeps_updArb hf _ _)
  · rw [changeMode_apart (by rw [choiceNoted_granted]; exact h.granted) hm]
    exact (keeps_updArb hf s _).trans (keeps_modeNoted hf _ m c)

theorem NoPurge.arbitrate_reaches (h : NoPurge s z) (release : Bool) : Reaches z [.arb] 0 1 s (s.arbitrateMode z release) := by
  rcases h.arbitrate_cases release with ⟨p, he⟩ | ⟨m, c, hm, he⟩ <;> rw [he]
  · exact ((reaches_choiceNoted s).trans (reaches_updArb _ _)).mono (by decide) (by decide) (by decide)
  · rw [changeMode_apart (by rw [choiceNoted_granted]; exact h.granted) hm]
    exact ((reaches_choiceNoted s).trans (reaches_modeNoted _ m c)).mono (by decide) (by decide) (by decide)

theorem NoPurge.arbitrate_granted (h : NoPurge s z) (release : Bool) :
    ((s.arbitrateMode z release).zones[z]).arb.granted ≠ .purge := by
  rcases h.arbitrate_cases release with ⟨p, he⟩ | ⟨m, c, hm, he⟩ <;> rw [he]
  · rw [updArb_arb]
    exact fun e => h.granted ((choiceNoted_granted s z).symm.trans e)
  · rw [changeMode_arb]
    exact hm

/-- Nor does such a decision raise a notice or stop RUN. -/
theorem NoPurge.decide_reaches (h : NoPurge s z) (release : Bool) :
    Reaches z (.arb :: airParts) 0 1 s (s.takeDecision z release) :=
  (h.arbitrate_reaches release).trans (takeDecision_outputs s z release)

theorem keeps_changeMode (hf : IgnoresBlocks f) (hp : IgnoresPurge f) (s : State) (m : Mode) (c : ModeCause) :
    Keeps f z s (s.changeMode z m c) :=
  (keeps_modeNoted hf s m c).trans (keeps_tellPurge hp _ _ _)

theorem keeps_arbitrateMode (hf : IgnoresBlocks f) (h : IgnoresPurge f ∨ NoPurge s z) (release : Bool) :
    Keeps f z s (s.arbitrateMode z release) := by
  rcases h with hp | h
  · rcases arbitrateMode_cases s z release with ⟨p, h⟩ | ⟨m, c, h⟩ <;> rw [h]
    · exact (keeps_updArb hf s _).trans (keeps_updArb hf _ _)
    · exact (keeps_updArb hf s _).trans (keeps_changeMode hf hp _ m c)
  · exact h.arbitrate_keeps hf release

theorem keeps_takeDecision (hf : IgnoresBlocks f) (h : IgnoresPurge f ∨ NoPurge s z) (release : Bool) :
    Keeps f z s (s.takeDecision z release) := by
  unfold State.takeDecision
  dsimp only
  split
  · exact (keeps_arbitrateMode hf h release).trans (keeps_airOutputs _)
  · exact keeps_arbitrateMode hf h release

theorem keeps_purgeInactive (hf : IgnoresBlocks f) (hp : IgnoresPurge f) (s : State) : Keeps f z s (s.purgeInactive z) := by
  unfold State.purgeInactive
  dsimp only
  split
  · have hleft := (keeps_purgeLeaveRun (z := z) hp s).trans (keeps_updPurge hp _ fun p =>
      { p with state := .inactive, remainingWait := 0, remainingRun := 0, runCounted := 0, runStart := none })
    split
    · exact hleft.trans (keeps_takeDecision hf (.inl hp) true)
    · exact hleft
  · exact keeps_updPurge hp s _

/-! ### Scenes -/

theorem keeps_beginFade (hf : IgnoresFades f) (s : State) (c : Cue) (a : ActIx) : Keeps f z s (s.beginFade z c a) := by
  unfold State.beginFade
  dsimp only
  split
  · exact .of_zones (jobRequest_zones ..)
  · split
    · exact .of_zones (jobRequest_zones ..)
    · exact keeps_updZone _ (hf _ _ _)

theorem keeps_claim (hf : IgnoresFades f) (s : State) (i : Nat) (c : Cue) (a : ActIx) : Keeps f z s (s.claim z i c a) := by
  have hclaim (g : Touched → Touched) : Keeps f z s ((s.updScene z fun e => e.updTouched a g).beginFade z c a) :=
    (keeps_updZone _ (hf _ _ _)).trans (keeps_beginFade hf _ c a)
  unfold State.claim
  split
  · exact .refl f z s
  · dsimp only
    split
    · split
      · exact .refl f z s
      · exact hclaim _
    · split
      · exact .refl f z s
      · exact hclaim _

theorem keeps_restStepTimer (hf : IgnoresFades f) (s : State) : Keeps f z s (s.restStepTimer z) := by
  refine keeps_updZone _ ?_
  cases h : (s.zones[z]).scene.fading
  · simp only [h, Bool.false_eq_true, if_false]
    exact hf _ _ _
  · simp only [h, if_true]

/-- What follows the start of a cue: its claims, and the step timer. -/
theorem keeps_claims (hf : IgnoresFades f) (s : State) (i : Nat) (c : Cue) (l : List ActIx) :
    Keeps f z s ((l.foldl (fun s a => s.claim z i c a) s).restStepTimer z) :=
  (Keeps.foldl _ (fun s a => keeps_claim hf s i c a) l s).trans (keeps_restStepTimer hf _)

theorem keeps_updScene (hf : IgnoresBlocks f) (s : State) (g : SceneRt → SceneRt) : Keeps f z s (s.updScene z g) :=
  keeps_updZone _ (hf.scene _ _)

theorem keeps_startCue (hf : IgnoresBlocks f) (s : State) (i : Nat) : Keeps f z s (s.startCue z i) := by
  unfold State.startCue
  split
  · exact (keeps_updScene hf s _).trans (keeps_claims hf.fades _ i _ _)
  · exact .refl f z s

theorem keeps_startDueCues (hf : IgnoresBlocks f) (s : State) : Keeps f z s (s.startDueCues z) := by
  refine Keeps.foldl _ (fun s i => ?_) _ s
  split
  · exact keeps_startCue hf s i
  · exact .refl f z s

theorem keeps_judgeIfDone (hf : IgnoresBlocks f) (s : State) : Keeps f z s (s.judgeIfDone z).1 := by
  unfold State.judgeIfDone State.sceneJudge
  dsimp only
  split
  · split
    · exact keeps_updScene hf s _
    · split
      · exact keeps_updScene hf s _
      · exact keeps_updScene hf s _
  · exact .refl f z s

theorem keeps_takeScene (hf : IgnoresBlocks f) (hp : IgnoresPurge f) (s : State) (n : SceneIx) (o : TakeOrigin) :
    Keeps f z s (s.takeScene z n o).1 := by
  have hrecord : Keeps f z s (s.takeRecord z n o) :=
    ((keeps_updScene hf s _).trans (keeps_appendRing _ _)).trans (keeps_offer hp _ _ _)
  unfold State.takeScene
  dsimp only
  split
  · exact hrecord.trans (keeps_judgeIfDone hf _)
  · exact (hrecord.trans (keeps_startDueCues hf _)).trans (keeps_judgeIfDone hf _)

/-! ### Changes of the covers -/

/-- A change of the covers that concerns no purge and calls for no scene: into motion or FAULT, with PURGE not granted and the covers
not COVERED. -/
structure QuietChange (s : State) (z : ZoneIx) (next : CoverState) : Prop extends NoPurge s z where
  next : next.isMotion = true ∨ next = .fault

variable {next : CoverState} {cause : CoverCause} {index : Nat}

theorem QuietChange.ne_covered (h : QuietChange s z next) : next ≠ .covered := by
  rcases h.next with h | rfl
  · rintro rfl; cases h
  · decide

theorem QuietChange.ne_disabled (h : QuietChange s z next) : next ≠ .disabled := by
  rcases h.next with h | rfl
  · rintro rfl; cases h
  · decide

theorem QuietChange.sceneOf (h : QuietChange s z next) (c : CoverCfg) : c.sceneOf next = none := by
  rcases h.next with h | rfl
  · rcases (isMotion_iff _).1 h with rfl | rfl <;> rfl
  · rfl

theorem keeps_coverDriveStep (s : State) (next : CoverState) : Keeps f z s (s.coverDriveStep z next) := by
  cases next with
  | deploying => exact keeps_requestDrives s _
  | retracting => exact keeps_requestDrives s _
  | _ => exact .refl f z s

theorem keeps_coverNoticeStep (s : State) (left next : CoverState) (cause : CoverCause) (index : Nat) :
    Keeps f z s (s.coverNoticeStep z left next cause index) := by
  cases next with
  | covered => exact keeps_raise s _ _ _
  | openIdle => exact keeps_raise s _ _ _
  | fault => exact keeps_raise s _ _ _
  | _ => exact .refl f z s

theorem keeps_coverPurgeStep (hf : IgnoresBlocks f) (s : State) (left : CoverState)
    (h : IgnoresPurge f ∨ (left ≠ .covered ∧ next ≠ .covered)) : Keeps f z s (s.coverPurgeStep z left next) := by
  unfold State.coverPurgeStep
  rcases h with hp | ⟨hl, hn⟩
  · split
    · exact keeps_updPurge hp s _
    · split
      · exact keeps_purgeInactive hf hp s
      · exact .refl f z s
  · rw [if_neg hn, if_neg hl]
    exact .refl f z s

theorem keeps_coverSceneStep (hf : IgnoresBlocks f) (s : State)
    (h : IgnoresPurge f ∨ (s.cfg.zones[z]).cover.sceneOf next = none) : Keeps f z s (s.coverSceneStep z next) := by
  unfold State.coverSceneStep
  split
  next scene origin hs =>
    exact keeps_takeScene hf (h.resolve_right fun hn => by rw [hn] at hs; cases hs) s _ _
  next => exact .refl f z s

/-- Before its decision a quiet change has left the grant, and brought the covers into their new state. -/
theorem QuietChange.noticed (h : QuietChange s z next) : NoPurge (s.coverNoticed z next cause index) z := by
  have hentered := coverRecorded_of_entered s z next cause
  have hsteps := ((hentered.trans (reaches_coverDriveStep _ z next)).trans
    (coverPurgeStep_stays _ z (.inl h.state))).trans (coverNoticed_of_purged s z next cause index)
  refine ⟨?_, ?_⟩
  · rw [show _ = _ from ((reaches_coverEntered s z next cause).trans hsteps).stands .arb (by decide)]
    exact h.granted
  · rw [show _ = _ from hsteps.stands .cover (by decide), coverEntered_cover]
    exact h.ne_covered

theorem keeps_coverNoticed (hf : IgnoresBlocks f) (h : IgnoresPurge f ∨ QuietChange s z next) :
    Keeps f z s (s.coverNoticed z next cause index) := by
  have hentered : Keeps f z s (s.coverEntered z next cause) := by
    refine keeps_updZone _ ?_
    exact hf.both _ _ _
  have hrecorded : Keeps f z s (s.coverRecorded z next cause) := hentered.trans (keeps_appendRing _ _)
  have hpurged : Keeps f z s (s.coverPurged z next cause) := (hrecorded.trans (keeps_coverDriveStep _ next)).trans
    (keeps_coverPurgeStep hf _ _ (h.imp_right fun hq => ⟨hq.state, hq.ne_covered⟩))
  exact (hpurged.trans (keeps_coverSceneStep hf _ (h.imp_right fun hq => hq.sceneOf _))).trans (keeps_coverNoticeStep _ _ _ _ _)

theorem keeps_coverChange (hf : IgnoresBlocks f) (h : IgnoresPurge f ∨ QuietChange s z next) (hd : next ≠ .disabled) :
    Keeps f z s (s.coverChange z next cause index) := by
  rw [coverChange_eq hd]
  exact (keeps_coverNoticed hf h).trans (keeps_takeDecision hf (h.imp_right fun hq => hq.noticed) _)

/-- A quiet change does not grant PURGE. -/
theorem QuietChange.granted_ne (h : QuietChange s z next) : ((s.coverChange z next cause index).zones[z]).arb.granted ≠ .purge := by
  rw [coverChange_eq h.ne_disabled, takeDecision_arb]
  exact h.noticed.arbitrate_granted _

/-- Drives in motion are stopped before the change to FAULT (R90, R92). -/
theorem enterFault_cases (s : State) (z : ZoneIx) (reason : FaultReason) (index : Nat) :
    s.enterFault z reason index = (s.requestDrives z driveStop).coverChange z .fault (.fault reason) index ∨
      s.enterFault z reason index = s.coverChange z .fault (.fault reason) index := by
  unfold State.enterFault
  dsimp only
  split
  · exact .inl rfl
  · exact .inr rfl

theorem NoPurge.fault (h : NoPurge s z) : QuietChange s z .fault := ⟨h, .inr rfl⟩

theorem NoPurge.requestDrives (h : NoPurge s z) (v : Int) : NoPurge (s.requestDrives z v) z :=
  h.of_zones (by rw [requestDrives_frame])

theorem keeps_enterFault (hf : IgnoresBlocks f) (h : IgnoresPurge f ∨ NoPurge s z) (reason : FaultReason) (index : Nat) :
    Keeps f z s (s.enterFault z reason index) := by
  rcases enterFault_cases s z reason index with he | he <;> rw [he]
  · exact (keeps_requestDrives s _).trans (keeps_coverChange hf (h.imp_right fun hq => (hq.requestDrives _).fault) (by decide))
  · exact keeps_coverChange hf (h.imp_right NoPurge.fault) (by decide)

theorem NoPurge.enterFault (h : NoPurge s z) (reason : FaultReason) (index : Nat) :
    ((s.enterFault z reason index).zones[z]).arb.granted ≠ .purge := by
  rcases enterFault_cases s z reason index with he | he <;> rw [he]
  · exact (h.requestDrives driveStop).fault.granted_ne
  · exact h.fault.granted_ne

/-- The drive check lets motion begin, or takes the covers to FAULT (R90). -/
theorem enterMotion_cases (s : State) (z : ZoneIx) (next : CoverState) (cause : CoverCause) :
    (∃ index, s.enterMotion z next cause = (s.withFormed z).enterFault z .drive index) ∨
      s.enterMotion z next cause = (s.withFormed z).coverChange z next cause noIndex := by
  unfold State.enterMotion
  dsimp only
  rw [show s.updCover z (fun c => { c with drives := s.formDrives z }) = s.withFormed z from rfl]
  split
  · exact .inl ⟨_, rfl⟩
  · split
    · exact .inl ⟨_, rfl⟩
    · exact .inr rfl

theorem NoPurge.withFormed (h : NoPurge s z) : NoPurge (s.withFormed z) z :=
  h.of_stands (by rw [State.withFormed, State.updZone_same]) (by rw [State.withFormed, State.updZone_same])

theorem keeps_enterMotion (hf : IgnoresBlocks f) (h : IgnoresPurge f ∨ NoPurge s z) (hm : next.isMotion = true) :
    Keeps f z s (s.enterMotion z next cause) := by
  have hformed : Keeps f z s (s.withFormed z) := keeps_updZone _ (hf.cover _ _)
  rcases enterMotion_cases s z next cause with ⟨index, he⟩ | he <;> rw [he]
  · exact hformed.trans (keeps_enterFault hf (h.imp_right NoPurge.withFormed) _ _)
  · exact hformed.trans (keeps_coverChange hf (h.imp_right fun hq => ⟨hq.withFormed, .inl hm⟩) (by rintro rfl; cases hm))

theorem NoPurge.enterMotion (h : NoPurge s z) (hm : next.isMotion = true) :
    ((s.enterMotion z next cause).zones[z]).arb.granted ≠ .purge := by
  rcases enterMotion_cases s z next cause with ⟨index, he⟩ | he <;> rw [he]
  · exact h.withFormed.enterFault _ _
  · exact QuietChange.granted_ne ⟨h.withFormed, .inl hm⟩

theorem motionAfterPrep_isMotion (c : CoverState) : c.motionAfterPrep.isMotion = true := by cases c <;> rfl

theorem ne_covered_of_isPrep {c : CoverState} (h : c.isPrep = true) : c ≠ .covered := by rintro rfl; cases h

theorem keeps_coverScene (hf : IgnoresBlocks f) (h : IgnoresPurge f ∨ (s.zones[z]).arb.granted ≠ .purge) (outcome : SceneState) :
    Keeps f z s (s.coverScene z outcome) := by
  unfold State.coverScene
  dsimp only
  split
  next hprep =>
    have hq : IgnoresPurge f ∨ NoPurge s z := h.imp_right fun hg => ⟨hg, ne_covered_of_isPrep hprep.1⟩
    cases outcome with
    | complete =>
      dsimp only
      split
      · exact keeps_updZone _ (hf.cover _ _)
      · exact keeps_enterMotion hf hq (motionAfterPrep_isMotion _)
    | completeDegraded => exact keeps_enterFault hf hq _ _
    | _ => exact .refl f z s
  next => exact .refl f z s

end Keeping

end Sys2Proof.Machine
end

section
/-! SUPPORT. The clearing of a hold, block by block: the dispatcher's queues, the cover sequencer and the scene engine. -/

namespace Sys2Proof.Machine

variable {z : ZoneIx} {s t u : State}

/-! ### Joining the queues (R130, R147) -/

theorem job_isSome_iff (k : ActKind) : k.job.isSome = true ↔ k ≠ .plain := by cases k <;> simp [ActKind.job]

theorem eligible_iff {a : ActIx} : s.eligible a = true ↔ MayQueue s a := by
  simp only [State.eligible, State.dispatchable, State.isCoverStop, Bool.and_eq_true, Bool.or_eq_true, beq_iff_eq, Bool.not_eq_true',
    job_isSome_iff]
  exact ⟨fun ⟨⟨⟨⟨⟨⟨⟨hu, ho⟩, hn⟩, hi⟩, hc⟩, hz⟩, hr⟩, hh⟩ => ⟨hu, ho, hn, hi, hc, hz, hr, hh⟩,
    fun h => ⟨⟨⟨⟨⟨⟨⟨h.inUse, h.owned⟩, h.needsSend⟩, h.idle⟩, h.control⟩, h.zone⟩, h.retry⟩, h.hold⟩⟩

/-- The listed actuators have joined the tails of their queues one after another. -/
structure Joined (l : List ActIx) (s u : State) : Prop where
  queues : ∀ j : Job, u.disp.queues.get j = s.disp.queues.get j ++ l.filter fun a => decide ((s.cfg.acts[a]).kind.job = some j)
  acts : ∀ a : ActIx, u.acts[a] = if a ∈ l then { s.acts[a] with dispatch := .queued } else s.acts[a]
  stands : u = { s with disp := { s.disp with queues := u.disp.queues }, acts := u.acts }

theorem Joined.nil (s : State) : Joined [] s s := ⟨fun j => by simp, fun a => by simp, rfl⟩

theorem Joined.cfg {l : List ActIx} (h : Joined l s u) : u.cfg = s.cfg := by rw [h.stands]

theorem Joined.zones {l : List ActIx} (h : Joined l s u) : u.zones = s.zones := by rw [h.stands]

theorem Joined.append {l l' : List ActIx} (h : Joined l s t) (h' : Joined l' t u) (hd : ∀ a ∈ l', a ∉ l) : Joined (l ++ l') s u where
  queues j := by rw [h'.queues, h.queues, h.cfg, List.filter_append, List.append_assoc]
  acts a := by
    rw [h'.acts, h.acts]
    by_cases ha : a ∈ l'
    · simp [ha, hd a ha]
    · simp [ha]
  stands := by
    have hu := h'.stands
    rw [h.stands] at hu
    exact hu

theorem get_set_queue (q : PerJob (List ActIx)) (j k : Job) (l : List ActIx) :
    (q.set j l).get k = if k = j then l else q.get k := by
  cases j <;> cases k <;> rfl

theorem join_waits {a : ActIx} (h : ¬ s.eligible a = true) : s.join a = s := by
  unfold State.join
  split
  · rfl
  · rw [if_neg h]

/-- An eligible actuator joins the queue of its owner job. -/
theorem joined_join {a : ActIx} (h : s.eligible a = true) : Joined [a] s (s.join a) := by
  have howned := (eligible_iff.1 h).owned
  rw [← job_isSome_iff, Option.isSome_iff_exists] at howned
  obtain ⟨j, hj⟩ := howned
  have hjoin : s.join a = (s.updDisp fun d => { d with queues := d.queues.set j (d.queues.get j ++ [a]) }).updAct a
      fun r => { r with dispatch := .queued } := by
    unfold State.join
    rw [hj]
    exact if_pos h
  rw [hjoin]
  refine ⟨fun k => ?_, fun b => ?_, rfl⟩
  · show (s.disp.queues.set j (s.disp.queues.get j ++ [a])).get k = _
    rw [get_set_queue, List.filter_singleton, hj]
    by_cases hk : k = j
    · subst hk; simp
    · simp [hk, Ne.symm hk]
  · by_cases hb : b = a
    · subst hb
      rw [State.updAct_same, if_pos (List.mem_singleton.2 rfl)]
      rfl
    · rw [State.updAct_other _ hb, if_neg fun hm => hb (List.mem_singleton.1 hm)]
      rfl

/-- Eligibility of one actuator does not depend on the queues or another's record. -/
theorem eligible_of_joined {l : List ActIx} (h : Joined l s t) {b : ActIx} (hb : b ∉ l) : t.eligible b = s.eligible b := by
  have hact : t.acts[b] = s.acts[b] := by rw [h.acts, if_neg hb]
  unfold State.eligible State.dispatchable State.isCoverStop State.enabled
  dsimp only
  simp only [hact, h.zones, h.cfg]

/-- Of a list of actuators the eligible ones join, in their order. -/
theorem joined_foldl (l : List ActIx) (hn : l.Nodup) : ∀ s : State, Joined (l.filter s.eligible) s (l.foldl State.join s) := by
  induction l with
  | nil => exact Joined.nil
  | cons a l ih =>
    intro s
    obtain ⟨ha, hl⟩ := List.nodup_cons.1 hn
    rw [List.foldl_cons, List.filter_cons]
    by_cases h : s.eligible a = true
    · rw [if_pos h]
      have hjoin := joined_join h
      have hrest := ih hl (s.join a)
      have hne : ∀ b ∈ l, b ∉ [a] := fun b hb hm => ha (List.mem_singleton.1 hm ▸ hb)
      rw [List.filter_congr fun b hb => eligible_of_joined hjoin (hne b hb)] at hrest
      exact hjoin.append hrest fun b hb => hne b (List.mem_of_mem_filter hb)
    · rw [if_neg h, join_waits h]
      exact ih hl s

theorem mem_zoneActuators_iff {a : ActIx} : a ∈ s.zoneActuators z ↔ (s.cfg.acts[a]).inUse = true ∧ (s.cfg.acts[a]).zone = z := by
  simp [State.zoneActuators, mem_indices]

theorem joined_dispatcherClearHold (s : State) (z : ZoneIx) :
    Joined ((s.zoneActuators z).filter s.eligible) s (s.dispatcherClearHold z) :=
  joined_foldl _ (zoneActuators_nodup s z) s

theorem queuesRejoined (s : State) (z : ZoneIx) : QueuesRejoined s (s.dispatcherClearHold z) z := by
  have hjoined := joined_dispatcherClearHold s z
  refine ⟨⟨_, ?_, fun a => ?_, hjoined.queues, hjoined.acts⟩, hjoined.stands⟩
  · exact ((List.pairwise_lt_finRange 96).filter _).filter _
  · rw [List.mem_filter, mem_zoneActuators_iff, eligible_iff]
    exact ⟨fun ⟨hz, hm⟩ => ⟨hz.2, hm⟩, fun ⟨hz, hm⟩ => ⟨⟨hm.inUse, hz⟩, hm⟩⟩

/-! ### The cover sequencer (R90, R95) -/

/-- The sequencer's timers run on. -/
def State.timersRunOn (s : State) (z : ZoneIx) : State :=
  s.updZone z fun r => { r with cover := { r.cover with
    prepTimer := r.cover.prepTimer.runOn, motionTimer := r.cover.motionTimer.runOn, settleTimer := r.cover.settleTimer.runOn } }

theorem timersRunOn_zone (s : State) (z : ZoneIx) : (s.timersRunOn z).zones[z] = { s.zones[z] with cover := { (s.zones[z]).cover with
    prepTimer := (s.zones[z]).cover.prepTimer.runOn, motionTimer := (s.zones[z]).cover.motionTimer.runOn
    settleTimer := (s.zones[z]).cover.settleTimer.runOn } } := State.updZone_same ..

theorem coverClearHold_eq (s : State) (z : ZoneIx) : s.coverClearHold z =
    match (s.zones[z]).cover.state with
    | .deploying => (s.timersRunOn z).requestDrives z driveClose
    | .retracting => (s.timersRunOn z).requestDrives z driveOpen
    | .prepClose | .prepOpen =>
      if (s.zones[z]).cover.lightingReady then
        (s.timersRunOn z).enterMotion z (s.zones[z]).cover.state.motionAfterPrep .lightingReady
      else s.timersRunOn z
    | .disabled | .detect | .openIdle | .settle | .covered | .fault => s.timersRunOn z := by
  have hupd : (s.updCover z fun c => { c with
      prepTimer := c.prepTimer.continue, motionTimer := c.motionTimer.continue, settleTimer := c.settleTimer.continue }) =
        s.timersRunOn z := by
    unfold State.timersRunOn
    rw [State.updCover_eq]
    simp only [Timer.continue_eq_runOn]
  unfold State.coverClearHold
  dsimp only
  rw [hupd, timersRunOn_zone] <;> rfl

theorem requestDrives_other {a : ActIx} (h : a ∉ (s.zones[z]).cover.drives) (v : Int) :
    (s.requestDrives z v).acts[a] = s.acts[a] := by
  have hfold (l : List ActIx) (ha : a ∉ l) : ∀ s : State,
      (l.foldl (fun s a => s.jobRequest .coverDrive z a v) s).acts[a] = s.acts[a] := by
    induction l with
    | nil => exact fun _ => rfl
    | cons b l ih =>
      intro s
      rw [List.mem_cons, not_or] at ha
      rw [List.foldl_cons, ih ha.2, jobRequest_other ha.1]
  exact hfold _ h s

/-- Drives in motion are requested again. -/
theorem released_moving (s : State) (z : ZoneIx) (v : Int) (hu : u = (s.timersRunOn z).requestDrives z v) :
    DrivesRequested s u z v ∧ (∀ a, a ∉ (s.zones[z]).cover.drives → u.acts[a] = s.acts[a]) ∧
      u = { s.timersRunOn z with disp := { s.disp with queues := u.disp.queues }, acts := u.acts } := by
  subst hu
  have hdrives : ((s.timersRunOn z).zones[z]).cover.drives = (s.zones[z]).cover.drives := by rw [timersRunOn_zone]
  have hrequested := requestDrives_requested (s.timersRunOn z) z v
  have hwork : OneZoneWork z (s.timersRunOn z) ((s.timersRunOn z).requestDrives z v) := zoneWork_requestDrives _ z v rfl
  refine ⟨fun a ha => hrequested a (by rw [hdrives]; exact ha), fun a ha => requestDrives_other (by rw [hdrives]; exact ha) v, ?_⟩
  have hdisp := hwork.disp
  have hframe := requestDrives_frame (s.timersRunOn z) z v
  rw [hdisp] at hframe
  exact hframe

/-- A motion begun with other timers in the record is the same motion. -/
theorem CoversMove.of_timers {motion : CoverState} {v : Int} {taken : Bool} (h : CoversMove (s.timersRunOn z) u z motion v taken) :
    CoversMove s u z motion v taken := ⟨h.cover, h.requested⟩

theorem updZone_updZone (s : State) (z : ZoneIx) (f g : ZoneRt → ZoneRt) :
    (s.updZone z f).updZone z g = s.updZone z fun r => g (f r) := by
  unfold State.updZone
  simp

theorem withFormed_timersRunOn (s : State) (z : ZoneIx) : (s.timersRunOn z).withFormed z = (s.withFormed z).timersRunOn z := by
  unfold State.withFormed State.timersRunOn
  rw [updZone_updZone, updZone_updZone]
  rfl

theorem CoversFail.of_timers {reason : FaultReason} {index : Nat} (h : CoversFail (s.timersRunOn z) u z reason index) :
    CoversFail s u z reason index := by
  obtain ⟨⟨hwork, hcover, hnone, hrecord, hdecided⟩, hstopped, hnotice, hleaves⟩ := h
  have hrun : OneZoneWork z s (s.timersRunOn z) := zoneWork_updZone z _ rfl rfl rfl
  rw [timersRunOn_zone] at hcover hrecord hstopped hnotice hleaves
  refine ⟨⟨hrun.trans hwork, hcover, hnone, hrecord, hdecided⟩, fun hm a ha => ?_, hnotice, fun hl => ?_⟩
  · exact hstopped hm a (by rw [timersRunOn_zone]; exact ha)
  · obtain ⟨hpurge, hleft, hrest, hgrant⟩ := hleaves hl
    rw [timersRunOn_zone] at hleft hrest hgrant
    refine ⟨hpurge, fun hr => ?_, hrest, hgrant⟩
    obtain ⟨hfans, haccount⟩ := hleft hr
    rw [timersRunOn_zone] at haccount
    exact ⟨hfans, haccount⟩

theorem MotionRefused.of_timers (h : MotionRefused (s.timersRunOn z) u z) : MotionRefused s u z := by
  obtain ⟨index, hfail, hindex⟩ := h
  have hform : ((s.timersRunOn z).withFormed z) = (s.withFormed z).timersRunOn z := withFormed_timersRunOn s z
  have hfail' : CoversFail ((s.timersRunOn z).withFormed z) u z .drive index := hfail
  rw [hform] at hfail'
  exact ⟨index, hfail'.of_timers, hindex⟩

theorem coversReleased (s : State) (z : ZoneIx) (hh : (s.zones[z]).held = false) :
    CoversReleased s (s.coverClearHold z) z (s.timersRunOn z) := by
  have hrun : OneZoneWork z s (s.timersRunOn z) := zoneWork_updZone z _ rfl rfl rfl
  have hheld : ((s.timersRunOn z).zones[z]).held = false := by rw [timersRunOn_zone]; exact hh
  have heq := coverClearHold_eq s z
  refine ⟨rfl, fun v hv => released_moving s z v ?_, fun hp hl => ?_, fun hd hr hp => ?_⟩
  · rcases hv with ⟨hstate, rfl⟩ | ⟨hstate, rfl⟩ <;> rw [heq, hstate] <;> rfl
  · have hgo : s.coverClearHold z = (s.timersRunOn z).enterMotion z (s.zones[z]).cover.state.motionAfterPrep .lightingReady := by
      rw [heq]
      rcases hp with hstate | hstate <;> rw [hstate, hl] <;> rfl
    have hprep : ((s.timersRunOn z).zones[z]).cover.state.isPrep = true := by
      rw [timersRunOn_zone]
      exact (isPrep_iff _).2 hp
    have hmoves (hready : DrivesReady s z) := enterMotion_moves (s := s.timersRunOn z) (z := z) (cause := .lightingReady)
      (motionAfterPrep_isMotion (s.zones[z]).cover.state) hprep hheld hready rfl
    rw [hgo]
    refine ⟨hrun.trans (zoneWork_enterMotion _ z _ _ rfl), fun hready hstate => ?_, fun hready hstate => ?_, fun hready => ?_⟩
    · have hmove := (hmoves hready).of_timers
      rw [timersRunOn_zone, hstate] at hmove
      rw [hstate]
      exact hmove
    · have hmove := (hmoves hready).of_timers
      rw [timersRunOn_zone, hstate] at hmove
      rw [hstate]
      exact hmove
    · exact (enterMotion_refused (s := s.timersRunOn z) hready).of_timers
  · rw [heq]
    cases hstate : (s.zones[z]).cover.state with
    | deploying => exact absurd hstate hd
    | retracting => exact absurd hstate hr
    | prepClose => rw [(hp.resolve_left fun hn => hn.1 hstate)]; rfl
    | prepOpen => rw [(hp.resolve_left fun hn => hn.2 hstate)]; rfl
    | _ => rfl

/-! ### The scene engine (R112, R122) -/

theorem any_isDue (o : Option CueRun) : o.any CueRun.isDue = decide (o.map CueRun.status = some (.pending 0)) := by
  cases o with
  | none => rfl
  | some run => rw [Bool.eq_iff_iff]; simp [CueRun.isDue]

/-- The start of one cue leaves the others as they are. -/
theorem startCue_cue (s : State) (z : ZoneIx) {i j : Nat} (h : j ≠ i) :
    ((s.startCue z i).zones[z]).scene.cues[j]? = (s.zones[z]).scene.cues[j]? := by
  unfold State.startCue
  split
  next run c _ _ =>
    have hstart := keeps_claims (f := fun r => r.scene.cues) (z := z) (fun _ _ _ => rfl)
      (s.updScene z fun e => { e with cues := e.cues.modify i fun r => { r with status := .started } }) i c run.channels
    refine (congrArg (fun l : List CueRun => l[j]?) hstart).trans ?_
    dsimp only
    rw [State.updScene_eq, State.updZone_same]
    exact List.getElem?_modify_ne _ _ (Ne.symm h)
  next => rfl

/-- A walk over indices that acts where a test holds acts on those where it holds at the start, if no act changes the test of
another index. -/
theorem foldl_if_eq_filter (p : State → Nat → Bool) (g : State → Nat → State) (h : ∀ s i j, j ≠ i → p (g s i) j = p s j) (l : List Nat)
    (hn : l.Nodup) : ∀ s, l.foldl (fun s i => if p s i then g s i else s) s = (l.filter (p s)).foldl g s := by
  induction l with
  | nil => exact fun _ => rfl
  | cons i l ih =>
    intro s
    obtain ⟨hi, hl⟩ := List.nodup_cons.1 hn
    rw [List.foldl_cons, ih hl, List.filter_cons]
    cases hp : p s i with
    | false => rfl
    | true =>
      simp only [if_true, List.foldl_cons]
      rw [List.filter_congr fun j hj => h s i j fun e => hi (e ▸ hj)]

/-- The cues that start are those due when the walk begins. -/
theorem startDueCues_eq (s : State) (z : ZoneIx) : s.startDueCues z = s.cuesStarted z := by
  have hdue : dueCues (s.zones[z]).scene = (List.range 16).filter fun i => ((s.zones[z]).scene.cues[i]?).any CueRun.isDue := by
    unfold dueCues
    simp only [any_isDue]
  rw [State.cuesStarted, hdue]
  exact foldl_if_eq_filter (fun (s : State) i => ((s.zones[z]).scene.cues[i]?).any CueRun.isDue) (fun s i => s.startCue z i)
    (fun s i j h => by rw [startCue_cue s z h]) _ List.nodup_range s

/-! ### The whole clearing (R186) -/

/-- The step timer runs on. -/
def State.stepRunOn (s : State) (z : ZoneIx) : State :=
  s.updZone z fun r => { r with scene := { r.scene with stepTimer := r.scene.stepTimer.runOn } }

theorem sceneClearHold_eq (s : State) (z : ZoneIx) : s.sceneClearHold z = (State.cuesStarted (s.stepRunOn z) z).judgeIfDone z := by
  unfold State.sceneClearHold
  dsimp only
  rw [startDueCues_eq, State.updScene_eq]
  simp only [Timer.continue_eq_runOn]
  rfl

/-- The zone is no longer held. -/
def State.released (s : State) (z : ZoneIx) : State := s.updZone z fun r => { r with held := false }

/-- What the blocks do once the zone is no longer held. -/
def State.holdWork (s : State) (z : ZoneIx) : State :=
  State.reportScene z ((State.cuesStarted (((s.dispatcherClearHold z).coverClearHold z).stepRunOn z) z).judgeIfDone z)

theorem clearHold_held (h : (s.zones[z]).held = true) : s.clearHold z = (s.released z).holdWork z := by
  unfold State.clearHold
  rw [if_pos h]
  dsimp only
  rw [sceneClearHold_eq]
  rfl

theorem clearHold_free (h : (s.zones[z]).held = false) : s.clearHold z = s := by
  unfold State.clearHold
  rw [if_neg (by rw [h]; exact Bool.false_ne_true)]

theorem released_held (s : State) (z : ZoneIx) : ((s.released z).zones[z]).held = false := by
  rw [State.released, State.updZone_same]

theorem holdCleared (s : State) (z : ZoneIx) : HoldCleared s (s.clearHold z) z := by
  refine ⟨clearHold_free, fun hheld => ?_⟩
  have hfree : (((s.released z).dispatcherClearHold z).zones[z]).held = false := by
    rw [(joined_dispatcherClearHold _ z).zones, released_held]
  exact ⟨(s.released z).dispatcherClearHold z, _, _, _, queuesRejoined _ z, coversReleased _ z hfree, rfl, clearHold_held hheld⟩

end Sys2Proof.Machine
end

section
/-! SUPPORT. RESUME and RESET_CONTROL (R169, R186): what they leave of the zone's record, and the obligation about them. -/

namespace Sys2Proof.Machine

/-! ### What the clearing of a hold leaves (R186) -/

section Clearing

variable {α : Type} {f : ZoneRt → α} {z : ZoneIx} {s t u : State}

theorem keeps_coverClearHold (hf : IgnoresBlocks f) (h : IgnoresPurge f ∨ (s.zones[z]).arb.granted ≠ .purge) :
    Keeps f z s (s.coverClearHold z) := by
  have hrun : Keeps f z s (s.timersRunOn z) := keeps_updZone _ (hf.cover _ _)
  have hmotion (hp : (s.zones[z]).cover.state.isPrep = true) : Keeps f z s
      (if (s.zones[z]).cover.lightingReady then
        (s.timersRunOn z).enterMotion z (s.zones[z]).cover.state.motionAfterPrep .lightingReady else s.timersRunOn z) := by
    split
    · refine hrun.trans (keeps_enterMotion hf (h.imp_right fun hg => ⟨?_, ?_⟩) (motionAfterPrep_isMotion _))
      · rw [timersRunOn_zone]; exact hg
      · rw [timersRunOn_zone]; exact ne_covered_of_isPrep hp
    · exact hrun
  rw [coverClearHold_eq]
  cases hstate : (s.zones[z]).cover.state with
  | deploying => exact hrun.trans (keeps_requestDrives _ _)
  | retracting => exact hrun.trans (keeps_requestDrives _ _)
  | prepClose => rw [hstate] at hmotion; exact hmotion rfl
  | prepOpen => rw [hstate] at hmotion; exact hmotion rfl
  | _ => exact hrun

/-- The clearing at the covers does not grant PURGE: the covers then move or are in FAULT. -/
theorem coverClearHold_granted (h : (s.zones[z]).arb.granted ≠ .purge) :
    ((s.coverClearHold z).zones[z]).arb.granted ≠ .purge := by
  have hrun : ((s.timersRunOn z).zones[z]).arb.granted ≠ .purge := by rw [timersRunOn_zone]; exact h
  have hdrives (v : Int) : (((s.timersRunOn z).requestDrives z v).zones[z]).arb.granted ≠ .purge := by
    rw [requestDrives_frame]; exact hrun
  have hmotion (hp : (s.zones[z]).cover.state.isPrep = true) : ((
      (if (s.zones[z]).cover.lightingReady then
        (s.timersRunOn z).enterMotion z (s.zones[z]).cover.state.motionAfterPrep .lightingReady
      else s.timersRunOn z : State)).zones[z]).arb.granted ≠ .purge := by
    split
    · have hquiet : NoPurge (s.timersRunOn z) z := ⟨hrun, by rw [timersRunOn_zone]; exact ne_covered_of_isPrep hp⟩
      exact hquiet.enterMotion (motionAfterPrep_isMotion _)
    · exact hrun
  rw [coverClearHold_eq]
  cases hstate : (s.zones[z]).cover.state with
  | deploying => exact hdrives _
  | retracting => exact hdrives _
  | prepClose => rw [hstate] at hmotion; exact hmotion rfl
  | prepOpen => rw [hstate] at hmotion; exact hmotion rfl
  | _ => exact hrun

theorem keeps_reportScene (hf : IgnoresBlocks f) (p : State × Option SceneState)
    (h : IgnoresPurge f ∨ (p.1.zones[z]).arb.granted ≠ .purge) : Keeps f z p.1 (State.reportScene z p) := by
  unfold State.reportScene
  split
  · exact keeps_coverScene hf h _
  · exact .refl f z _

/-- The scene engine's part in the clearing of a hold, up to its report. -/
theorem reaches_sceneRelease (s : State) : Reaches z cueParts 0 0 s ((State.cuesStarted (s.stepRunOn z) z).judgeIfDone z).1 := by
  have hrun : Reaches z [.scene] 0 0 s (s.stepRunOn z) :=
    reaches_updScene s (fun e => { e with stepTimer := e.stepTimer.runOn }) (fun _ => rfl) (fun _ => rfl) (fun _ => rfl) fun _ => rfl
  rw [← startDueCues_eq]
  exact ((hrun.trans (reaches_startDueCues _)).trans (reaches_judgeIfDone _)).mono (by decide) (by decide) (by decide)

theorem keeps_sceneRelease (hf : IgnoresBlocks f) (s : State) :
    Keeps f z s ((State.cuesStarted (s.stepRunOn z) z).judgeIfDone z).1 := by
  have hrun : Keeps f z s (s.stepRunOn z) := keeps_updZone _ (hf.scene _ _)
  rw [← startDueCues_eq]
  exact (hrun.trans (keeps_startDueCues hf _)).trans (keeps_judgeIfDone hf _)

theorem keeps_holdWork (hf : IgnoresBlocks f) (h : IgnoresPurge f ∨ (s.zones[z]).arb.granted ≠ .purge) :
    Keeps f z s (s.holdWork z) := by
  have hzones := (joined_dispatcherClearHold s z).zones
  have hqueued : Keeps f z s (s.dispatcherClearHold z) := .of_zones hzones
  have hgranted : IgnoresPurge f ∨ ((s.dispatcherClearHold z).zones[z]).arb.granted ≠ .purge := by rw [hzones]; exact h
  have hcovers := hqueued.trans (keeps_coverClearHold hf hgranted)
  refine (hcovers.trans (keeps_sceneRelease hf _)).trans (keeps_reportScene hf _ (hgranted.imp_right fun hg => ?_))
  rw [show _ = _ from (reaches_sceneRelease _).stands .arb (by decide)]
  exact coverClearHold_granted hg

theorem keeps_clearHold (hf : IgnoresBlocks f) (hh : ∀ r x, f { r with held := x } = f r)
    (h : IgnoresPurge f ∨ (s.zones[z]).arb.granted ≠ .purge) : Keeps f z s (s.clearHold z) := by
  cases hheld : (s.zones[z]).held with
  | false => rw [clearHold_free hheld]; exact .refl f z s
  | true =>
    have hreleased : Keeps f z s (s.released z) := keeps_updZone _ (hh _ _)
    rw [clearHold_held hheld]
    refine hreleased.trans (keeps_holdWork hf (h.imp_right fun hg => ?_))
    rw [State.released, State.updZone_same]
    exact hg

theorem ignoresBlocks_held : IgnoresBlocks ZoneRt.held := ⟨fun _ _ => rfl, fun _ _ => rfl, fun _ _ => rfl⟩
theorem ignoresPurge_held : IgnoresPurge ZoneRt.held := ⟨fun _ _ => rfl, fun _ _ => rfl⟩
theorem ignoresBlocks_holdCause : IgnoresBlocks ZoneRt.holdCause := ⟨fun _ _ => rfl, fun _ _ => rfl, fun _ _ => rfl⟩
theorem ignoresPurge_holdCause : IgnoresPurge ZoneRt.holdCause := ⟨fun _ _ => rfl, fun _ _ => rfl⟩

theorem clearHold_notHeld (s : State) (z : ZoneIx) : ((s.clearHold z).zones[z]).held = false := by
  cases hheld : (s.zones[z]).held with
  | false => rw [clearHold_free hheld]; exact hheld
  | true =>
    rw [clearHold_held hheld]
    exact Eq.trans (keeps_holdWork ignoresBlocks_held (.inl ignoresPurge_held)) (released_held s z)

theorem clearHold_holdCause (s : State) (z : ZoneIx) : ((s.clearHold z).zones[z]).holdCause = (s.zones[z]).holdCause :=
  keeps_clearHold ignoresBlocks_holdCause (fun _ _ => rfl) (.inl ignoresPurge_holdCause)

end Clearing

/-! ### Zone commands (R169) -/

section Commands

variable {s : State} {c : Channel} {t : Telegram} {z : ZoneIx} {action force : Byte}

/-- A zone command of three parameters goes to the row of its action. -/
theorem zoneCommand_row (h : NextIs s c t 4 [BitVec.ofNat 8 z, action, force]) :
    (Request.of c t).row = zoneCommandRow action.toNat := by
  unfold Request.row
  rw [kind_of_next h, request_params h.payload]
  exact congrArg zoneCommandRow (request_param h.payload 1)

theorem serve_zoneCommand (h : NextIs s c t 4 [BitVec.ofNat 8 z, action, force]) {row : Instr}
    (hrow : zoneCommandRow action.toNat = row) (effect : ZoneIx → Bool → State → Answer) :
    s.serve row (zoneChecked effect) = (zoneChecked effect (.of c t) (s.taken c)).reply (.of c t) :=
  serve_own _ _ h ((zoneCommand_row h).trans hrow)

/-- The actions beside ENABLE, DISABLE and the cover moves have no check but their codes'. -/
theorem zoneChecked_plain (h : NextIs s c t 4 [BitVec.ofNat 8 z, action, force]) (hf : force.toNat ≤ 1) (h4 : 4 ≤ action.toNat)
    (h6 : action.toNat ≤ 6) (effect : ZoneIx → Bool → State → Answer) (u : State) :
    zoneChecked effect (.of c t) u = effect z (force.toNat == 1) u := by
  have hz : (Request.of c t).param 0 = (BitVec.ofNat 8 z.val : Byte).toNat := request_param h.payload 0
  have ha : (Request.of c t).param 1 = action.toNat := request_param h.payload 1
  have hforce : (Request.of c t).param 2 = force.toNat := request_param h.payload 2
  unfold zoneChecked
  rw [hz, ha, hforce, asIndex_byte z (by decide)]
  dsimp only
  rw [if_neg (by omega), if_neg (by omega), if_neg (by omega)]

/-- A zone command whose effect is answered by DONE. -/
theorem exec_plain (h : NextIs s c t 4 [BitVec.ofNat 8 z, action, force]) (hf : force.toNat ≤ 1) (h4 : 4 ≤ action.toNat)
    (h6 : action.toNat ≤ 6) {row : Instr} (hrow : zoneCommandRow action.toNat = row) (act : State → ZoneIx → State) :
    s.serve row (zoneChecked fun z _ s => (act s z).done) = (act (s.taken c) z).replied c t 4 .done [] := by
  rw [serve_zoneCommand h hrow, zoneChecked_plain h hf h4 h6]
  exact reply_now _ rfl h.payload

theorem exec_resume (h : NextIs s c t 4 [BitVec.ofNat 8 z, 6, force]) (hf : force.toNat ≤ 1) :
    exec .resume s = .next (((s.taken c).resumeZone z).replied c t 4 .done []) :=
  congrArg Host.Outcome.next (exec_plain h hf (by decide) (by decide) rfl State.resumeZone)

theorem exec_resetControl (h : NextIs s c t 4 [BitVec.ofNat 8 z, 5, force]) (hf : force.toNat ≤ 1) :
    exec .resetControl s = .next (((s.taken c).resetControlAll z).replied c t 4 .done []) :=
  congrArg Host.Outcome.next (exec_plain h hf (by decide) (by decide) rfl State.resetControlAll)

theorem taken_cfg (s : State) (c : Channel) : (s.taken c).cfg = s.cfg := by cases c <;> rfl

theorem taken_now (s : State) (c : Channel) : (s.taken c).now = s.now := by cases c <;> rfl

theorem taken_enabled (s : State) (c : Channel) (z : ZoneIx) : (s.taken c).enabled z = s.enabled z := by
  unfold State.enabled
  rw [taken_cfg]

end Commands

/-! ### RESUME (R186) -/

section Resume

variable {s : State} {z : ZoneIx}

theorem clearHold_enabled (s : State) (z : ZoneIx) : (s.clearHold z).enabled z = s.enabled z := by
  have hwork : OneZoneWork z s (s.clearHold z) := zoneWork_clearHold s z rfl
  unfold State.enabled
  rw [hwork.zonesCfg]

theorem resumeZone_enabled (h : s.enabled z = true) : s.resumeZone z = (s.clearHold z).takeDecision z false :=
  if_pos ((clearHold_enabled s z).trans h)

theorem resumeZone_disabled (h : s.enabled z = false) : s.resumeZone z = s.clearHold z :=
  if_neg (by rw [clearHold_enabled, h]; exact Bool.false_ne_true)

theorem zoneWork_resumed (s : State) (z : ZoneIx) : OneZoneWork z s (s.resumeZone z) := by
  have hwork : OneZoneWork z s (s.clearHold z) := zoneWork_clearHold s z rfl
  cases h : s.enabled z with
  | true => rw [resumeZone_enabled h]; exact hwork.trans (zoneWork_takeDecision _ z false rfl)
  | false => rw [resumeZone_disabled h]; exact hwork

theorem keeps_resumed {α : Type} {f : ZoneRt → α} (hf : IgnoresBlocks f) (hp : IgnoresPurge f) (s : State) (z : ZoneIx) :
    Keeps f z (s.clearHold z) (s.resumeZone z) := by
  cases h : s.enabled z with
  | true => rw [resumeZone_enabled h]; exact keeps_takeDecision hf (.inl hp) false
  | false => rw [resumeZone_disabled h]; exact .refl f z _

end Resume

/-! ### RESET_CONTROL (R32, R169, R178) -/

section Reset

variable {s : State} {z : ZoneIx}

/-- A purge runs under its grant. -/
def PurgeRuns (s : State) (z : ZoneIx) : Prop := (s.zones[z]).purge.state = .run ∧ (s.zones[z]).arb.granted = .purge

/-- The first part of RESET_CONTROL: the resets, and the withdrawal of the grant. -/
def State.controlReset (s : State) (z : ZoneIx) : State :=
  if (s.zones[z]).arb.granted == .purge then (s.resetControl z).purgeWithdrawn z else s.resetControl z

/-- The capture is no longer armed. -/
def State.disarmed (s : State) (z : ZoneIx) : State := s.updZone z fun r => { r with arming := none }

theorem resetControlAll_eq (s : State) (z : ZoneIx) : s.resetControlAll z = ((s.controlReset z).disarmed z).clearHold z := rfl

theorem resetControl_zone (s : State) (z : ZoneIx) : (s.resetControl z).zones[z] =
    { s.zones[z] with eval := .reset (s.cfg.zones[z]).eval, heat := .reset, arb := .reset } := State.updZone_same ..

theorem purgeWithdrawn_idle (h : (s.zones[z]).purge.state ≠ .run) : s.purgeWithdrawn z = s := if_neg h

theorem controlReset_idle (h : ¬ PurgeRuns s z) : s.controlReset z = s.resetControl z := by
  unfold State.controlReset
  split
  next hg => exact purgeWithdrawn_idle fun hr => h ⟨by rw [resetControl_zone] at hr; exact hr, beq_iff_eq.1 hg⟩
  next => rfl

theorem controlReset_runs (h : PurgeRuns s z) : s.controlReset z = (s.resetControl z).purgeWithdrawn z :=
  if_pos (beq_iff_eq.2 h.2)

/-- The purge timer as a run's end leaves it, before its next state (R101). -/
theorem purgeLeaveRun_purge (s : State) (z : ZoneIx) :
    ((s.purgeLeaveRun z).zones[z]).purge = { (s.zones[z]).purge with runCounted := 0 } := by
  have hbefore : Reaches z [.acts .purgeFan, .acc accPurgeRun, .run] 1 0 s
      ((s.requestFans z 0).offer z accPurgeRun ((s.zones[z]).purge.runCounted / perSecond)) :=
    (reaches_requestFans s 0).trans (reaches_offer _ accPurgeRun _)
  have hpurge := hbefore.stands .purge (by decide)
  unfold State.purgeLeaveRun
  dsimp only
  rw [updPurge_purge, show _ = _ from hpurge]

/-- A running purge's grant is withdrawn (R74, R101). -/
theorem purgeWithdrawn_run (h : (s.zones[z]).purge.state = .run) : PurgeWithdrawn s (s.purgeWithdrawn z) z := by
  have hleft := purgeLeaveRun_left s z
  have hwork : OneZoneWork z s (s.purgeLeaveRun z) := zoneWork_purgeLeaveRun s z rfl
  have hpurge := purgeLeaveRun_purge s z
  have hafter (g : PurgeRt → PurgeRt) : PurgeRunLeft s ((s.purgeLeaveRun z).updPurge z g) z :=
    hleft.between (Reaches.refl s) (reaches_updPurge _ g) List.not_mem_nil List.not_mem_nil List.not_mem_nil (by decide) (by decide)
      hwork
  by_cases h0 : (s.zones[z]).purge.remainingRun = 0
  · have hw : s.purgeWithdrawn z = (s.purgeLeaveRun z).purgeEnterWait z := (if_pos h).trans (if_pos h0)
    rw [hw]
    refine ⟨hafter _, ?_⟩
    unfold State.purgeEnterWait
    rw [updPurge_purge, if_pos h0, hpurge]
    unfold State.purgeWaitA
    rw [hwork.zonesCfg]
    rfl
  · have hw : s.purgeWithdrawn z = (s.purgeLeaveRun z).updPurge z fun p => { p with state := .suspended } :=
      (if_pos h).trans (if_neg h0)
    rw [hw]
    refine ⟨hafter _, ?_⟩
    rw [updPurge_purge, if_neg h0, hpurge]

theorem PurgeWithdrawn.ne_run {s t : State} (h : PurgeWithdrawn s t z) : (t.zones[z]).purge.state ≠ .run := by
  rw [h.purge]
  split <;> simp

/-- RESET_CONTROL withdraws the grant of a running purge. -/
theorem controlReset_withdraws (h : PurgeRuns s z) : PurgeWithdrawn (s.resetControl z) (s.controlReset z) z := by
  rw [controlReset_runs h]
  exact purgeWithdrawn_run (by rw [resetControl_zone]; exact h.1)

/-- The withdrawal leaves of the zone's record what is neither purge nor arming. -/
theorem purgeWithdrawn_zone (s : State) (z : ZoneIx) : (s.purgeWithdrawn z).zones[z] =
    { s.zones[z] with purge := ((s.purgeWithdrawn z).zones[z]).purge, arming := ((s.purgeWithdrawn z).zones[z]).arming } := by
  have hrest : Keeps (fun r => { r with purge := PurgeRt.resting, arming := none }) z s (s.purgeWithdrawn z) :=
    keeps_purgeWithdrawn ⟨fun _ _ => rfl, fun _ _ => rfl⟩ s
  exact congrArg (fun r : ZoneRt =>
    { r with purge := ((s.purgeWithdrawn z).zones[z]).purge, arming := ((s.purgeWithdrawn z).zones[z]).arming }) hrest

theorem keeps_controlReset {α : Type} {f : ZoneRt → α} (hf : IgnoresPurge f)
    (hr : ∀ r e h a, f { r with eval := e, heat := h, arb := a } = f r) (s : State) (z : ZoneIx) : Keeps f z s (s.controlReset z) := by
  have hreset : Keeps f z s (s.resetControl z) := keeps_updZone _ (hr _ _ _ _)
  unfold State.controlReset
  split
  · exact hreset.trans (keeps_purgeWithdrawn hf _)
  · exact hreset

theorem controlReset_arb (s : State) (z : ZoneIx) : ((s.controlReset z).zones[z]).arb = ArbRt.reset := by
  unfold State.controlReset
  split
  · rw [purgeWithdrawn_zone, resetControl_zone]
  · rw [resetControl_zone]

theorem zoneWork_controlReset (s : State) (z : ZoneIx) : OneZoneWork z (s.resetControl z) (s.controlReset z) := by
  unfold State.controlReset
  split
  · exact zoneWork_purgeWithdrawn _ z rfl
  · exact .refl _ _

theorem disarmed_zone (s : State) (z : ZoneIx) : (s.disarmed z).zones[z] = { s.zones[z] with arming := none } := State.updZone_same ..

/-- No PURGE grant is left when the hold is cleared, so the clearing leaves the arming and the purge timer alone. -/
theorem keeps_resetControlAll {α : Type} {f : ZoneRt → α} (hf : IgnoresBlocks f) (hh : ∀ r x, f { r with held := x } = f r)
    (s : State) (z : ZoneIx) : Keeps f z ((s.controlReset z).disarmed z) (s.resetControlAll z) := by
  rw [resetControlAll_eq]
  refine keeps_clearHold hf hh (.inr ?_)
  rw [disarmed_zone]
  dsimp only
  rw [controlReset_arb]
  decide

theorem zoneWork_resetAll (s : State) (z : ZoneIx) : OneZoneWork z
    (s.updZone z fun r => { r with eval := EvalRt.reset (s.cfg.zones[z]).eval, heat := HeatRt.reset }) (s.resetControlAll z) := by
  have hreset : (s.updZone z fun r => { r with eval := EvalRt.reset (s.cfg.zones[z]).eval, heat := HeatRt.reset }).updArb z
      (fun _ => ArbRt.reset) = s.resetControl z := by
    rw [State.updArb_eq, updZone_updZone]
    rfl
  have harb := zoneWork_updArb (zs := fun w => w = z)
    (s.updZone z fun r => { r with eval := EvalRt.reset (s.cfg.zones[z]).eval, heat := HeatRt.reset }) z (fun _ => ArbRt.reset) rfl
  rw [hreset] at harb
  rw [resetControlAll_eq]
  exact ((harb.trans (zoneWork_controlReset s z)).trans (zoneWork_updZone z _ rfl rfl rfl)).trans (zoneWork_clearHold _ z rfl)

end Reset

theorem resetControl_taken (s : State) (c : Channel) (z : ZoneIx) : (s.taken c).resetControl z = (s.taken c).updZone z fun r =>
    { r with eval := EvalRt.reset (s.cfg.zones[z]).eval, heat := HeatRt.reset, arb := ArbRt.reset } := by
  unfold State.resetControl
  rw [taken_cfg]

theorem purgeRuns_taken (s : State) (c : Channel) (z : ZoneIx) : PurgeRuns (s.taken c) z ↔ PurgeRuns s z := by
  unfold PurgeRuns
  rw [taken_zones]

theorem controlReset_holdCause (s : State) (z : ZoneIx) :
    (((s.controlReset z).disarmed z).zones[z]).holdCause = (s.zones[z]).holdCause := by
  rw [disarmed_zone]
  exact keeps_controlReset ignoresPurge_holdCause (fun _ _ _ _ => rfl) s z

theorem controlReset_held (s : State) (z : ZoneIx) : (((s.controlReset z).disarmed z).zones[z]).held = (s.zones[z]).held := by
  rw [disarmed_zone]
  exact keeps_controlReset ignoresPurge_held (fun _ _ _ _ => rfl) s z

/-- Settles O52: each command by its parts, the clearing of the hold block by block. -/
theorem holdsAreCleared : Obligations.HoldsAreCleared := by
  intro s c t z force hforce
  refine ⟨fun h => ⟨(s.taken c).clearHold z, (s.taken c).resumeZone z, exec_resume h hforce, holdCleared _ z, fun he => ?_,
    fun he => ?_, zoneWork_resumed _ z, ?_, ?_, fun he => ?_, fun he hh => ?_⟩,
    fun h => ⟨(s.taken c).controlReset z, (s.taken c).resetControlAll z, exec_resetControl h hforce, ⟨fun hn => ?_, fun hr => ?_,
      holdCleared _ z⟩, ?_, ?_, ?_, ?_, fun hh => ?_, fun hr hg => ?_⟩⟩
  · exact resumeZone_enabled ((taken_enabled s c z).trans he)
  · exact resumeZone_disabled ((taken_enabled s c z).trans he)
  · exact Eq.trans (keeps_resumed ignoresBlocks_held ignoresPurge_held _ z) (clearHold_notHeld _ z)
  · rw [← taken_zones s c]
    exact Eq.trans (keeps_resumed ignoresBlocks_holdCause ignoresPurge_holdCause _ z) (clearHold_holdCause _ z)
  · have hwork : OneZoneWork z (s.taken c) ((s.taken c).clearHold z) := zoneWork_clearHold _ z rfl
    rw [resumeZone_enabled ((taken_enabled s c z).trans he), takeDecision_decided, hwork.now, taken_now]
  · rw [resumeZone_disabled ((taken_enabled s c z).trans he)]
    exact clearHold_free (by rw [taken_zones]; exact hh)
  · exact (controlReset_idle fun hr => hn ((purgeRuns_taken s c z).1 hr)).trans (resetControl_taken s c z)
  · have hruns := (purgeRuns_taken s c z).2 hr
    have hwithdrawn := controlReset_withdraws hruns
    have hwork := zoneWork_controlReset (s.taken c) z
    have hzone := purgeWithdrawn_zone ((s.taken c).resetControl z) z
    rw [← controlReset_runs hruns] at hzone
    rw [← resetControl_taken]
    exact ⟨hwithdrawn, hwork, hzone⟩
  · have hwork := zoneWork_resetAll (s.taken c) z
    rw [taken_cfg] at hwork
    exact hwork
  · exact clearHold_notHeld _ z
  · rw [← taken_zones s c]
    exact Eq.trans (keeps_resetControlAll ignoresBlocks_holdCause (fun _ _ => rfl) _ z) (controlReset_holdCause _ z)
  · refine Eq.trans (keeps_resetControlAll ⟨fun _ _ => rfl, fun _ _ => rfl, fun _ _ => rfl⟩ (fun _ _ => rfl) _ z) ?_
    exact congrArg ZoneRt.arming (disarmed_zone _ z)
  · rw [resetControlAll_eq, clearHold_free (by rw [controlReset_held, taken_zones]; exact hh), disarmed_zone]
    exact controlReset_arb _ z
  · have hwithdrawn := controlReset_withdraws ((purgeRuns_taken s c z).2 ⟨hr, hg⟩)
    have hkept : (((s.taken c).resetControlAll z).zones[z]).purge = ((((s.taken c).controlReset z).disarmed z).zones[z]).purge :=
      keeps_resetControlAll (f := ZoneRt.purge) ⟨fun _ _ => rfl, fun _ _ => rfl, fun _ _ => rfl⟩ (fun _ _ => rfl) _ z
    rw [hkept, disarmed_zone]
    exact hwithdrawn.ne_run

end Sys2Proof.Machine
end

section
/-! SUPPORT. ENABLE and DISABLE: their checks, the drives and ends they judge by, and the ENABLE of a disabled zone. -/

namespace Sys2Proof.Machine

/-! ### The checks of ENABLE and DISABLE (R3, R169) -/

section Checks

variable {s : State} {c : Channel} {t : Telegram} {z : ZoneIx} {action force : Byte}

/-- ENABLE and DISABLE are checked against the zone's protect mark alone. -/
theorem zoneChecked_setting (h : NextIs s c t 4 [BitVec.ofNat 8 z, action, force]) (hf : force.toNat ≤ 1) (ha : action.toNat ≤ 1)
    (effect : ZoneIx → Bool → State → Answer) (u : State) : zoneChecked effect (.of c t) u =
      if c = .trunk ∧ action.toNat ≤ 1 ∧ (u.cfg.zones[z]).eval.protect then .of u.refuseProtected
      else effect z (force.toNat == 1) u := by
  have hz : (Request.of c t).param 0 = (BitVec.ofNat 8 z.val : Byte).toNat := request_param h.payload 0
  have hact : (Request.of c t).param 1 = action.toNat := request_param h.payload 1
  have hforce : (Request.of c t).param 2 = force.toNat := request_param h.payload 2
  unfold zoneChecked
  rw [hz, hact, hforce, asIndex_byte z (by decide)]
  dsimp only
  rw [if_neg (by omega), if_neg (by omega)]
  rfl

/-- A zone whose mark protects it from the channel is refused (R3). -/
theorem serve_protected (h : NextIs s c t 4 [BitVec.ofNat 8 z, action, force]) (hf : force.toNat ≤ 1) (ha : action.toNat ≤ 1)
    {row : Instr} (hrow : zoneCommandRow action.toNat = row) (effect : ZoneIx → Bool → State → Answer)
    (ho : ¬ (c = .service ∨ (s.cfg.zones[z]).eval.protect = false)) :
    s.serve row (zoneChecked effect) = (s.taken c).setProtectFault.replied c t 4 .protectedEntry [] := by
  rw [not_or, Bool.not_eq_false] at ho
  have hc : c = .trunk := by cases c <;> simp_all
  rw [serve_zoneCommand h hrow, zoneChecked_setting h hf ha, if_pos ⟨hc, ha, by rw [taken_cfg]; exact ho.2⟩]
  exact reply_now _ rfl h.payload

theorem serve_setting (h : NextIs s c t 4 [BitVec.ofNat 8 z, action, force]) (hf : force.toNat ≤ 1) (ha : action.toNat ≤ 1)
    {row : Instr} (hrow : zoneCommandRow action.toNat = row) (act : State → ZoneIx → State)
    (ho : c = .service ∨ (s.cfg.zones[z]).eval.protect = false) :
    s.serve row (zoneChecked fun z _ s => (act s z).done) = (act (s.taken c) z).replied c t 4 .done [] := by
  have hopen : ¬ (c = .trunk ∧ action.toNat ≤ 1 ∧ ((s.taken c).cfg.zones[z]).eval.protect = true) := by
    rintro ⟨rfl, _, hp⟩
    rw [taken_cfg] at hp
    rcases ho with h | h
    · cases h
    · rw [h] at hp; cases hp
  rw [serve_zoneCommand h hrow, zoneChecked_setting h hf ha, if_neg hopen]
  exact reply_now _ rfl h.payload

end Checks

/-! ### Drives and their ends (R16, R84) -/

section Ends

variable {s t u : State} {z : ZoneIx}

/-- What working drives and their end positions are read from. -/
structure SameDrives (s t : State) : Prop where
  acts : t.cfg.acts = s.cfg.acts
  pointsCfg : t.cfg.points = s.cfg.points
  points : t.points = s.points

theorem SameDrives.isDriveOf (h : SameDrives s t) (a : ActIx) : t.isDriveOf z a = s.isDriveOf z a := by
  unfold State.isDriveOf
  rw [h.acts]

theorem SameDrives.contactNames (h : SameDrives s t) (kind : PointKind) (a : ActIx) (p : PointIx) :
    t.contactNames z kind a p = s.contactNames z kind a p := by
  unfold State.contactNames
  rw [h.pointsCfg]

theorem SameDrives.formDrives (h : SameDrives s t) (z : ZoneIx) : t.formDrives z = s.formDrives z := by
  unfold State.formDrives
  simp only [h.isDriveOf, h.contactNames]

theorem SameDrives.atEnd (h : SameDrives s t) (own other : PointKind) (a : ActIx) :
    t.atEnd z own other a = s.atEnd z own other a := by
  unfold State.atEnd State.contactsOf
  rw [h.isDriveOf, h.points]
  simp only [funext (h.contactNames (z := z) own a), funext (h.contactNames (z := z) other a)]

theorem SameDrives.allClosed (h : SameDrives s t) {l : List ActIx} : AllClosed t z l ↔ AllClosed s z l := by
  rw [← allClosed_iff, ← allClosed_iff, show t.atClosedEnd z = s.atClosedEnd z from funext (h.atEnd _ _)]

theorem SameDrives.allOpen (h : SameDrives s t) {l : List ActIx} : AllOpen t z l ↔ AllOpen s z l := by
  rw [← allOpen_iff, ← allOpen_iff, show t.atOpenEnd z = s.atOpenEnd z from funext (h.atEnd _ _)]

theorem SameDrives.trans (h : SameDrives s t) (h' : SameDrives t u) : SameDrives s u :=
  ⟨h'.acts.trans h.acts, h'.pointsCfg.trans h.pointsCfg, h'.points.trans h.points⟩

theorem ZoneWork.sameDrives {zs : ZoneIx → Prop} (h : ZoneWork zs s t) : SameDrives s t := ⟨h.acts, h.pointsCfg, h.points⟩

/-! ### The judgement of the position (R87) -/

theorem judgePosition_empty (h : (s.zones[z]).cover.state = .detect) (he : (s.zones[z]).cover.drives = []) :
    s.judgePosition z = s.coverChange z .openIdle .positionFound noIndex := by
  unfold State.judgePosition
  rw [if_pos h]
  exact if_pos (List.isEmpty_iff.2 he)

theorem judgePosition_open (h : (s.zones[z]).cover.state = .detect)
    (ho : (s.zones[z]).cover.drives = [] ∨
      (¬ AllClosed s z (s.zones[z]).cover.drives ∧ AllOpen s z (s.zones[z]).cover.drives)) :
    s.judgePosition z = s.coverChange z .openIdle .positionFound noIndex := by
  rcases ho with he | ⟨hc, ho⟩
  · exact judgePosition_empty h he
  · have hne : (s.zones[z]).cover.drives ≠ [] := fun he => hc (by rw [he]; exact fun _ ha => absurd ha List.not_mem_nil)
    exact ((judgePosition_detect h hne).2 hc).1 ho

theorem judgePosition_stays (h : (s.zones[z]).cover.state = .detect) (hc : ¬ AllClosed s z (s.zones[z]).cover.drives)
    (ho : ¬ AllOpen s z (s.zones[z]).cover.drives) : s.judgePosition z = s := by
  have hne : (s.zones[z]).cover.drives ≠ [] := fun he => hc (by rw [he]; exact fun _ ha => absurd ha List.not_mem_nil)
  exact ((judgePosition_detect h hne).2 hc).2 ho

/-- A judgement finds a rest state or changes nothing. -/
theorem judgePosition_cases (s : State) (z : ZoneIx) : s.judgePosition z = s ∨
    ∃ next, next ≠ .disabled ∧ s.judgePosition z = s.coverChange z next .positionFound noIndex := by
  unfold State.judgePosition
  split
  · split
    · exact .inr ⟨_, by decide, rfl⟩
    · split
      · exact .inr ⟨_, by decide, rfl⟩
      · split
        · exact .inr ⟨_, by decide, rfl⟩
        · exact .inl rfl
  · exact .inl rfl

theorem Recent.mem {rec : RingRecord} {n : Nat} {ring : List RingRecord} (h : Recent rec n ring) : rec ∈ ring := by
  obtain ⟨older, younger, rfl, _⟩ := h
  simp

/-- At most three records follow that of a change. -/
theorem coverChange_recent {next : CoverState} {cause : CoverCause} {index : Nat} (h : next ≠ .disabled)
    (hf : s.acct.frozen = false) : Recent { time := s.now, zone := z, entry := .cover (s.zones[z]).cover.state next cause } 3
      (s.coverChange z next cause index).acct.ring := by
  have hnew : Recent { time := s.now, zone := z, entry := .cover (s.zones[z]).cover.state next cause } 0
      (s.coverRecorded z next cause).acct.ring := recent_appendRing (s := s.coverEntered z next cause) hf z _
  exact (coverChange_of_recorded h).ring _ 0 hnew (by decide)

/-- A change to DETECT that concerns no purge is the record's and the arbiter's alone. -/
theorem reaches_detect (h : NoPurge s z) {cause : CoverCause} {index : Nat} :
    Reaches z (.cover :: .scene :: .coverWork :: .arb :: airParts) 0 2 s (s.coverChange z .detect cause index) := by
  have hrecorded := reaches_coverRecorded s z .detect cause
  have hsteps : s.coverNoticed z .detect cause index = s.coverRecorded z .detect cause := by
    unfold State.coverNoticed State.coverPurged State.coverPurgeStep
    rw [if_neg (by decide), if_neg h.state]
    rfl
  have hquiet : NoPurge (s.coverRecorded z .detect cause) z := by
    refine ⟨by rw [show _ = _ from hrecorded.stands .arb (by decide)]; exact h.granted, ?_⟩
    rw [show _ = _ from (coverRecorded_of_entered s z .detect cause).stands .cover (by decide), coverEntered_cover]
    exact CoverState.noConfusion
  rw [coverChange_eq (by decide), hsteps]
  exact (hrecorded.trans (hquiet.decide_reaches _)).mono (by decide) (by decide) (by decide)

/-! ### Changes judged from an earlier state -/

variable {parts : List Part} {n r : Nat} {next : CoverState} {cause : CoverCause} {reason : Option FaultReason}

theorem CoverRests.after (h : CoverRests t u z next reason cause) (hs : Reaches z parts n r s t)
    (hstate : (t.zones[z]).cover.state = (s.zones[z]).cover.state) (hdrives : (t.zones[z]).cover.drives = (s.zones[z]).cover.drives) :
    CoverRests s u z next reason cause where
  work := hs.work.trans h.work
  cover := by rw [h.cover, hdrives]
  noWork := h.noWork
  record hf := by
    have hrecord := h.record (hs.frozen.trans hf)
    rwa [hs.work.now, hstate] at hrecord
  decided := by rw [h.decided, hs.work.now]

theorem Noticed.after {kind : NoticeKind} {detail : List Byte} (h : Noticed t u kind z detail) (hs : Reaches z parts 0 r s t) :
    Noticed s u kind z detail := by
  intro hlen
  obtain ⟨l, hl, hnone⟩ := hs.notices
  rw [List.length_eq_zero_iff.1 (Nat.le_zero.1 hnone), List.append_nil] at hl
  have hnotice := h (by rw [hl]; exact hlen)
  rwa [hs.work.now] at hnotice

theorem SceneTaken.after {scene : Option SceneIx} {origin : TakeOrigin} (h : SceneTaken t u z scene origin)
    (hs : Reaches z parts n r s t) (hrun : .run ∉ parts) (hacc : .acc accSceneChanges ∉ parts) : SceneTaken s u z scene origin :=
  h.between hs (Reaches.refl u) hrun hacc List.not_mem_nil List.not_mem_nil

/-- Covers that come to rest after quiet work have come to rest seen from before it. -/
theorem CoversOpened.after (h : CoversOpened t u z cause) (hs : Reaches z parts 0 r s t) (hrun : .run ∉ parts)
    (hacc : .acc accSceneChanges ∉ parts) (hstate : (t.zones[z]).cover.state = (s.zones[z]).cover.state)
    (hdrives : (t.zones[z]).cover.drives = (s.zones[z]).cover.drives) : CoversOpened s u z cause where
  rests := h.rests.after hs hstate hdrives
  scene := by
    have hscene := h.scene.after hs hrun hacc
    rwa [hs.work.zonesCfg] at hscene
  notice := h.notice.after hs

theorem CoversClosed.after (h : CoversClosed t u z cause) (hs : Reaches z parts 0 r s t) (hrun : .run ∉ parts)
    (hacc : .acc accSceneChanges ∉ parts) (hpurge : .purge ∉ parts)
    (hstate : (t.zones[z]).cover.state = (s.zones[z]).cover.state)
    (hdrives : (t.zones[z]).cover.drives = (s.zones[z]).cover.drives) : CoversClosed s u z cause where
  rests := h.rests.after hs hstate hdrives
  purge := by rw [h.purge, show _ = _ from hs.stands .purge hpurge, hs.work.zonesCfg]
  scene := by
    have hscene := h.scene.after hs hrun hacc
    rwa [hs.work.zonesCfg] at hscene
  notice := h.notice.after hs

end Ends

/-! ### The ENABLE of a disabled zone (R32, R81, R87, R148, R169) -/

section Enabling

variable {s : State} {z : ZoneIx}

theorem foldl_updAct (f : ActRt → ActRt) (l : List ActIx) (hn : l.Nodup) :
    ∀ s : State, l.foldl (fun s a => s.updAct a f) s = s.updActs l f := by
  induction l with
  | nil =>
    intro s
    unfold State.updActs
    rw [changeAll_nil]
    rfl
  | cons a l ih =>
    intro s
    obtain ⟨ha, hl⟩ := List.nodup_cons.1 hn
    rw [List.foldl_cons, ih hl, updActs_cons s a l f ha]

theorem dispatcherEnable_eq (s : State) (z : ZoneIx) : s.dispatcherEnable z = s.updActs (s.actuatorsOf z) ActRt.zoneEnabled :=
  foldl_updAct ActRt.zoneEnabled _ (zoneActuators_nodup s z) s

/-- The zone enabled, its actuators' requests and its evaluation and heating reset. -/
def State.enabledBase (s : State) (z : ZoneIx) : State :=
  ((s.setEnabled z true).updActs (s.actuatorsOf z) ActRt.zoneEnabled).updZone z fun r =>
    { r with eval := EvalRt.reset { (s.cfg.zones[z]).eval with enabled := true }, heat := HeatRt.reset }

/-- With the arbiter reset and its decision taken. -/
def State.enabledDecided (s : State) (z : ZoneIx) : State :=
  ((s.enabledBase z).updArb z fun _ => .reset).takeDecision z false

/-- With the covers in DETECT. -/
def State.enabledDetecting (s : State) (z : ZoneIx) : State :=
  (s.enabledDecided z).coverChange z .detect .zoneEnabled noIndex

theorem setEnabled_zoneCfg (s : State) (z : ZoneIx) (b : Bool) : (s.setEnabled z b).cfg.zones[z] =
    { s.cfg.zones[z] with eval := { (s.cfg.zones[z]).eval with enabled := b } } := by
  unfold State.setEnabled State.updCfg
  simp

theorem enableZone_eq (s : State) (z : ZoneIx) : s.enableZone z = (s.enabledDetecting z).judgePosition z := by
  have hreset : ((s.dispatcherEnable z).setEnabled z true).resetControl z = (s.enabledBase z).updArb z fun _ => .reset := by
    rw [dispatcherEnable_eq]
    have hcfg : ((s.updActs (s.actuatorsOf z) ActRt.zoneEnabled).setEnabled z true) =
        (s.setEnabled z true).updActs (s.actuatorsOf z) ActRt.zoneEnabled := rfl
    have heval : ((s.setEnabled z true).cfg.zones[z]).eval = { (s.cfg.zones[z]).eval with enabled := true } := by
      rw [setEnabled_zoneCfg]
    rw [hcfg, State.updArb_eq, State.enabledBase, updZone_updZone]
    unfold State.resetControl
    rw [show ((s.setEnabled z true).updActs (s.actuatorsOf z) ActRt.zoneEnabled).cfg = (s.setEnabled z true).cfg from rfl, heval]
  unfold State.enableZone State.enterDetect
  dsimp only
  rw [hreset]
  rfl

theorem enabledBase_sameDrives (s : State) (z : ZoneIx) : SameDrives s (s.enabledBase z) := ⟨rfl, rfl, rfl⟩

theorem enabledBase_zone (s : State) (z : ZoneIx) : (s.enabledBase z).zones[z] =
    { s.zones[z] with eval := EvalRt.reset { (s.cfg.zones[z]).eval with enabled := true }, heat := HeatRt.reset } :=
  State.updZone_same ..

theorem enabledBase_coverCfg (s : State) (z : ZoneIx) : ((s.enabledBase z).cfg.zones[z]).cover = (s.cfg.zones[z]).cover := by
  show ((s.setEnabled z true).cfg.zones[z]).cover = _
  rw [setEnabled_zoneCfg]

/-- Up to the covers' change the enabling is the arbiter's work. -/
theorem reaches_enabledDecided (s : State) (z : ZoneIx) :
    Reaches z (.arb :: decisionParts) 1 1 (s.enabledBase z) (s.enabledDecided z) :=
  (reaches_updArb _ _).trans (reaches_takeDecision _ _)

theorem enabledDecided_cover (s : State) (z : ZoneIx) : ((s.enabledDecided z).zones[z]).cover = (s.zones[z]).cover := by
  rw [show _ = _ from (reaches_enabledDecided s z).stands .cover (by decide), enabledBase_zone]

theorem zoneWork_enabledDetecting (s : State) (z : ZoneIx) : OneZoneWork z (s.enabledBase z) (s.enabledDetecting z) :=
  (reaches_enabledDecided s z).work.trans (zoneWork_coverChange _ z _ _ _ rfl)

theorem zoneWork_enabling (s : State) (z : ZoneIx) : OneZoneWork z (s.enabledBase z) (s.enableZone z) := by
  rw [enableZone_eq]
  exact (zoneWork_enabledDetecting s z).trans (zoneWork_judgePosition _ z rfl)

theorem enabledDetecting_sameDrives (s : State) (z : ZoneIx) : SameDrives s (s.enabledDetecting z) :=
  (enabledBase_sameDrives s z).trans (zoneWork_enabledDetecting s z).sameDrives

/-- The covers' record in DETECT, with the drives formed and the timer running (R84, R87). -/
def State.detectingCover (s : State) (z : ZoneIx) : CoverRt :=
  { state := .detect, reason := none, drives := s.formDrives z
    detectTimer := .running ((s.cfg.zones[z]).cover.detect * 1000), prepTimer := .stopped, motionTimer := .stopped
    settleTimer := .stopped, lightingReady := false, workSceneTaken := false }

theorem enter_detect (r : CoverRt) (c : CoverCfg) (held : Bool) (formed : List ActIx) (cause : CoverCause) (hc : cause.reason = none) :
    r.enter c held formed .detect cause =
      { state := .detect, reason := none, drives := formed, detectTimer := .running (c.detect * 1000), prepTimer := .stopped
        motionTimer := .stopped, settleTimer := .stopped, lightingReady := false, workSceneTaken := false } := by
  unfold CoverRt.enter
  rw [hc]
  cases r.state <;> rfl

theorem enabledDetecting_cover (s : State) (z : ZoneIx) : ((s.enabledDetecting z).zones[z]).cover = s.detectingCover z := by
  have hwork := (reaches_enabledDecided s z).work
  have hdrives : SameDrives s (s.enabledDecided z) := (enabledBase_sameDrives s z).trans hwork.sameDrives
  unfold State.enabledDetecting
  rw [coverChange_cover (by decide), enter_detect _ _ _ _ _ rfl, hdrives.formDrives, hwork.zonesCfg, enabledBase_coverCfg]
  rfl

/-- The covers' record in a rest state found by the judgement. -/
theorem rested_cover {next : CoverState} (h : next = .openIdle ∨ next = .covered) (s : State) (z : ZoneIx) :
    (((s.enabledDetecting z).coverChange z next .positionFound noIndex).zones[z]).cover =
      { s.detectingCover z with state := next, detectTimer := .stopped } := by
  rw [coverChange_cover (by rcases h with rfl | rfl <;> decide), enabledDetecting_cover]
  rcases h with rfl | rfl <;> rfl

theorem enabled_now (s : State) (z : ZoneIx) : (s.enabledDetecting z).now = s.now := (zoneWork_enabledDetecting s z).now

theorem enabled_decided (s : State) (z : ZoneIx) : ((s.enableZone z).zones[z]).arb.lastDecision = some s.now := by
  rw [enableZone_eq]
  rcases judgePosition_cases (s.enabledDetecting z) z with h | ⟨next, hn, h⟩ <;> rw [h]
  · rw [State.enabledDetecting, coverChange_decided (by decide), (reaches_enabledDecided s z).work.now]
    rfl
  · rw [coverChange_decided hn, enabled_now]

/-- The ring keeps the record of the change to DETECT through the judgement. -/
theorem enabled_recorded (s : State) (z : ZoneIx) (hf : s.acct.frozen = false) :
    { time := s.now, zone := z, entry := .cover (s.zones[z]).cover.state .detect .zoneEnabled } ∈ (s.enableZone z).acct.ring := by
  have hdecided := reaches_enabledDecided s z
  have hdetect : Recent { time := s.now, zone := z, entry := .cover (s.zones[z]).cover.state .detect .zoneEnabled } 3
      (s.enabledDetecting z).acct.ring := by
    have hrecent := coverChange_recent (s := s.enabledDecided z) (z := z) (next := .detect) (cause := .zoneEnabled) (index := noIndex)
      (by decide) (hdecided.frozen.trans hf)
    have htime : (s.enabledDecided z).now = s.now := hdecided.work.now
    rw [enabledDecided_cover, htime] at hrecent
    unfold State.enabledDetecting
    exact hrecent
  rw [enableZone_eq]
  rcases judgePosition_cases (s.enabledDetecting z) z with h | ⟨next, hn, h⟩ <;> rw [h]
  · exact hdetect.mem
  · exact (((reaches_coverRecorded (s.enabledDetecting z) z next .positionFound).trans
      (coverChange_of_recorded hn)).ring _ _ hdetect (by decide)).mem

/-- The zone enabled with its covers' record in DETECT, before any decision. -/
def State.enabledEntered (s : State) (z : ZoneIx) : State :=
  (s.enabledBase z).updZone z fun r => { r with cover := s.detectingCover z }

theorem reaches_updCover (s : State) (f : CoverRt → CoverRt) : Reaches z [.cover] 0 0 s (s.updCover z f) := by
  refine reaches_updZone _ rfl rfl rfl fun p hp => ?_
  have hne := Part.not_mem_singleton hp
  cases p <;> simp_all [Part.Kept]

theorem updZone_self (s : State) (z : ZoneIx) : s.updZone z (fun _ => s.zones[z]) = s := by
  unfold State.updZone
  simp

theorem entered_back (s : State) (z : ZoneIx) :
    (s.enabledEntered z).updCover z (fun _ => ((s.enabledBase z).zones[z]).cover) = s.enabledBase z := by
  have hself := updZone_self (s.enabledBase z) z
  rw [State.updCover_eq, State.enabledEntered, updZone_updZone]
  unfold State.updZone at hself ⊢
  exact hself

/-- Where the covers were DISABLED, no purge is concerned up to DETECT: no notice is raised, and RUN stands. -/
theorem reaches_entered (h : (s.zones[z]).cover.state = .disabled) :
    Reaches z (.cover :: .scene :: .coverWork :: .arb :: airParts) 0 3 (s.enabledEntered z) (s.enabledDetecting z) := by
  have hback : Reaches z [.cover] 0 0 (s.enabledEntered z) (s.enabledBase z) := by
    have := reaches_updCover (z := z) (s.enabledEntered z) (fun _ => ((s.enabledBase z).zones[z]).cover)
    rwa [entered_back] at this
  have hreset := reaches_updArb (z := z) (s.enabledBase z) (fun _ => .reset)
  have hquiet : NoPurge ((s.enabledBase z).updArb z fun _ => .reset) z := by
    refine ⟨by rw [updArb_arb]; decide, ?_⟩
    rw [show _ = _ from hreset.stands .cover (by decide), enabledBase_zone]
    exact fun e => by rw [h] at e; cases e
  have hdecided : Reaches z (.arb :: airParts) 0 1 ((s.enabledBase z).updArb z fun _ => .reset) (s.enabledDecided z) :=
    hquiet.decide_reaches false
  have hgranted : ((s.enabledDecided z).zones[z]).arb.granted ≠ .purge := by
    unfold State.enabledDecided
    rw [takeDecision_arb]
    exact hquiet.arbitrate_granted false
  have hleft : ((s.enabledDecided z).zones[z]).cover.state ≠ .covered := by
    rw [enabledDecided_cover, h]
    decide
  exact (((hback.trans hreset).trans hdecided).trans (reaches_detect ⟨hgranted, hleft⟩)).mono (by decide) (by decide) (by decide)

theorem entered_cover (s : State) (z : ZoneIx) : ((s.enabledEntered z).zones[z]).cover = s.detectingCover z := by
  rw [State.enabledEntered, State.updZone_same]

theorem enabled_opens (ho : s.formDrives z = [] ∨ (¬ AllClosed s z (s.formDrives z) ∧ AllOpen s z (s.formDrives z))) :
    ((s.enableZone z).zones[z]).cover = { s.detectingCover z with state := .openIdle, detectTimer := .stopped } ∧
      ((s.zones[z]).cover.state = .disabled → CoversOpened (s.enabledEntered z) (s.enableZone z) z .positionFound) := by
  have hcover := enabledDetecting_cover s z
  have hsame := enabledDetecting_sameDrives s z
  have hjudged : s.enableZone z = (s.enabledDetecting z).coverChange z .openIdle .positionFound noIndex := by
    rw [enableZone_eq]
    refine judgePosition_open (by rw [hcover]; rfl) ?_
    rw [hcover, hsame.allClosed, hsame.allOpen]
    exact ho
  rw [hjudged]
  refine ⟨rested_cover (.inl rfl) s z, fun hd => ?_⟩
  have hopened := coverChange_opened (s.enabledDetecting z) z .positionFound noIndex rfl (by rw [hcover]; simp [State.detectingCover])
  exact hopened.after (reaches_entered hd) (by decide) (by decide) (by rw [hcover, entered_cover]) (by rw [hcover, entered_cover])

theorem enabled_closes (hne : s.formDrives z ≠ []) (hc : AllClosed s z (s.formDrives z)) :
    ((s.enableZone z).zones[z]).cover = { s.detectingCover z with state := .covered, detectTimer := .stopped } ∧
      ((s.zones[z]).cover.state = .disabled → CoversClosed (s.enabledEntered z) (s.enableZone z) z .positionFound) := by
  have hcover := enabledDetecting_cover s z
  have hjudged : s.enableZone z = (s.enabledDetecting z).coverChange z .covered .positionFound noIndex := by
    rw [enableZone_eq]
    refine (judgePosition_detect (by rw [hcover]; rfl) (by rw [hcover]; exact hne)).1 ?_
    rw [hcover, (enabledDetecting_sameDrives s z).allClosed]
    exact hc
  rw [hjudged]
  refine ⟨rested_cover (.inr rfl) s z, fun hd => ?_⟩
  have hclosed := coverChange_closed (s.enabledDetecting z) z .positionFound noIndex rfl
  exact hclosed.after (reaches_entered hd) (by decide) (by decide) (by decide) (by rw [hcover, entered_cover])
    (by rw [hcover, entered_cover])

theorem enabled_detects (hc : ¬ AllClosed s z (s.formDrives z)) (ho : ¬ AllOpen s z (s.formDrives z)) :
    ((s.enableZone z).zones[z]).cover = s.detectingCover z := by
  have hcover := enabledDetecting_cover s z
  have hsame := enabledDetecting_sameDrives s z
  rw [enableZone_eq, judgePosition_stays (by rw [hcover]; rfl), hcover]
  · rw [hcover, hsame.allClosed]; exact hc
  · rw [hcover, hsame.allOpen]; exact ho

end Enabling

end Sys2Proof.Machine
end

section
/-! SUPPORT. The DISABLE of an enabled zone, block by block (R81, R96, R102, R123, R148). -/

namespace Sys2Proof.Machine

variable {s t u : State} {z : ZoneIx}

/-! ### The arbiter (R68, R81) -/

theorem enabled_of_work (h : OneZoneWork z s t) (w : ZoneIx) : t.enabled w = s.enabled w := by
  unfold State.enabled
  rw [h.zonesCfg]

theorem choiceRow_disabled (h : s.enabled z = false) : s.choiceRow z = .disabled := by
  unfold State.choiceRow
  dsimp only
  rw [h]
  rfl

/-- A disabled zone's decision leads to IDLE, whatever dwell and hold, and requests no outputs. -/
theorem takeDecision_disabled (h : s.enabled z = false) (release : Bool) : s.takeDecision z release =
    if (s.zones[z]).arb.granted = .idle then (s.choiceNoted z).updArb z fun a => { a with pending := none }
    else (s.choiceNoted z).changeMode z .idle .zoneDisabled := by
  have hrow := choiceRow_disabled h
  have hmode : s.arbitrateMode z release =
      if (s.zones[z]).arb.granted = .idle then (s.choiceNoted z).updArb z fun a => { a with pending := none }
      else (s.choiceNoted z).changeMode z .idle .zoneDisabled := by
    unfold State.arbitrateMode State.choiceNoted
    dsimp only
    rw [hrow]
    by_cases hg : (s.zones[z]).arb.granted = .idle
    · rw [if_pos hg, if_pos (by rw [hg]; rfl)]
    · rw [if_neg hg, if_neg fun e => hg e.symm, if_neg (by simp [dwellPasses]), if_neg (by simp [holdPasses])]
      rfl
  have hsame : (s.arbitrateMode z release).enabled z = false :=
    (enabled_of_work (reaches_arbitrateMode s release).work z).trans h
  rw [← hmode]
  exact if_neg (by rw [hsame]; exact Bool.false_ne_true)

theorem takeDecision_disabled_granted (h : s.enabled z = false) (release : Bool) :
    ((s.takeDecision z release).zones[z]).arb.granted = .idle := by
  rw [takeDecision_disabled h]
  split
  next hg => rw [updArb_arb]; exact (choiceNoted_granted s z).trans hg
  next => rw [changeMode_arb]

theorem arbiterDisable_arb (h : s.enabled z = false) :
    ((s.arbiterDisable z).zones[z]).arb.granted = .idle ∧ ((s.arbiterDisable z).zones[z]).arb.dwell = .stopped := by
  unfold State.arbiterDisable
  rw [updArb_arb]
  exact ⟨takeDecision_disabled_granted h false, rfl⟩

theorem reaches_arbiterDisable (s : State) (z : ZoneIx) : Reaches z decisionParts 1 1 s (s.arbiterDisable z) :=
  ((reaches_takeDecision s false).trans (reaches_updArb _ _)).mono (by decide) (by decide) (by decide)

/-- Where PURGE is not granted the decision concerns no purge. -/
theorem arbiterDisable_apart (h : s.enabled z = false) (hg : (s.zones[z]).arb.granted ≠ .purge) :
    Reaches z [.arb] 0 1 s (s.arbiterDisable z) := by
  have hdecision : Reaches z [.arb] 0 1 s (s.takeDecision z false) := by
    rw [takeDecision_disabled h]
    split
    · exact ((reaches_choiceNoted s).trans (reaches_updArb _ _)).mono (by decide) (by decide) (by decide)
    · rw [changeMode_apart (by rw [choiceNoted_granted]; exact hg) (by decide)]
      exact ((reaches_choiceNoted s).trans (reaches_modeNoted _ _ _)).mono (by decide) (by decide) (by decide)
  exact (hdecision.trans (reaches_updArb _ _)).mono (by decide) (by decide) (by decide)

/-- A change away from PURGE withdraws the grant of a running purge once the arbiter's record and the ring are written (R73, R74). -/
theorem changeMode_withdraws {m : Mode} (hg : (s.zones[z]).arb.granted = .purge) (hr : (s.zones[z]).purge.state = .run)
    (hm : m ≠ .purge) (c : ModeCause) : s.changeMode z m c = (s.modeNoted z m c).purgeWithdrawn z := by
  have hstate := congrArg PurgeRt.state ((reaches_modeNoted (z := z) s m c).stands .purge (by decide))
  rw [changeMode_eq]
  exact (if_neg fun e => hm e.1).trans (if_pos ⟨hg, hstate.trans hr⟩)

/-- The decision withdraws the grant of a running purge, which is left (R74, R101). -/
theorem arbiterDisable_withdraws (h : s.enabled z = false) (hg : (s.zones[z]).arb.granted = .purge)
    (hr : (s.zones[z]).purge.state = .run) :
    PurgeRunLeft s (s.arbiterDisable z) z ∧ ((s.arbiterDisable z).zones[z]).purge.state ≠ .run := by
  have hnoted := reaches_choiceNoted (z := z) s
  have hbefore := hnoted.trans (reaches_modeNoted (z := z) (s.choiceNoted z) .idle .zoneDisabled)
  have hdecision : s.takeDecision z false = ((s.choiceNoted z).modeNoted z .idle .zoneDisabled).purgeWithdrawn z := by
    rw [takeDecision_disabled h, if_neg (by rw [hg]; decide)]
    exact changeMode_withdraws ((choiceNoted_granted s z).trans hg)
      ((congrArg PurgeRt.state (hnoted.stands .purge (by decide))).trans hr) (by decide) _
  generalize (s.choiceNoted z).modeNoted z .idle .zoneDisabled = v at hbefore hdecision
  have hrun : (v.zones[z]).purge.state = .run := (congrArg PurgeRt.state (hbefore.stands .purge (by decide))).trans hr
  have hwithdrawn := purgeWithdrawn_run hrun
  have hdwell := reaches_updArb (z := z) (v.purgeWithdrawn z) (fun a => { a with dwell := .stopped })
  unfold State.arbiterDisable
  rw [hdecision]
  refine ⟨hwithdrawn.toPurgeRunLeft.between hbefore hdwell (by decide) (by decide) (by decide) (by decide) (by decide)
    (zoneWork_purgeWithdrawn v z rfl), ?_⟩
  rw [show _ = _ from hdwell.stands .purge (by decide)]
  exact hwithdrawn.ne_run

/-! ### The covers and the purge (R96, R102) -/

/-- No drive, scene, notice or decision belongs to DISABLED: the record, and the purge timer's end. -/
theorem coverChange_disabled (s : State) (z : ZoneIx) (cause : CoverCause) (index : Nat) : s.coverChange z .disabled cause index =
    (s.coverRecorded z .disabled cause).coverPurgeStep z (s.zones[z]).cover.state .disabled := rfl

theorem purgeInactive_disabled (h : s.enabled z = false) : Reaches z purgeParts 1 0 s (s.purgeInactive z) := by
  by_cases hr : (s.zones[z]).purge.state = .run
  · have hleft := (reaches_purgeLeaveRun (z := z) s).trans (reaches_updPurge _ fun _ => PurgeRt.resting)
    rw [purgeInactive_run hr, if_neg (by rw [enabled_of_work hleft.work, h]; exact Bool.false_ne_true)]
    exact hleft.mono (by decide) (by decide) (by decide)
  · rw [purgeInactive_idle hr]
    exact (reaches_updPurge s _).mono (by decide) (by decide) (by decide)

theorem coverPurgeStep_disabled (h : s.enabled z = false) (left : CoverState) :
    Reaches z purgeParts 1 0 s (s.coverPurgeStep z left .disabled) := by
  unfold State.coverPurgeStep
  rw [if_neg (by decide)]
  split
  · exact purgeInactive_disabled h
  · exact (Reaches.refl s).mono (by decide) (by decide) (by decide)

theorem coverChange_disabled_cover (h : s.enabled z = false) (cause : CoverCause) (hc : cause.reason = none) (index : Nat) :
    ((s.coverChange z .disabled cause index).zones[z]).cover =
      { state := .disabled, reason := none, drives := (s.zones[z]).cover.drives, detectTimer := .stopped, prepTimer := .stopped
        motionTimer := .stopped, settleTimer := .stopped, lightingReady := false, workSceneTaken := false } := by
  have hrecorded := (coverRecorded_of_entered s z .disabled cause).stands .cover (by decide)
  have hstep := coverPurgeStep_disabled (s := s.coverRecorded z .disabled cause)
    ((enabled_of_work (reaches_coverRecorded s z .disabled cause).work z).trans h) (s.zones[z]).cover.state
  rw [coverChange_disabled, show _ = _ from hstep.stands .cover (by decide), show _ = _ from hrecorded, coverEntered_cover]
  unfold CoverRt.enter
  rw [hc]
  cases (s.zones[z]).cover.state <;> rfl

theorem coverChange_disabled_recorded (hf : s.acct.frozen = false) (cause : CoverCause) (index : Nat) :
    { time := s.now, zone := z, entry := .cover (s.zones[z]).cover.state .disabled cause } ∈
      (s.coverChange z .disabled cause index).acct.ring := by
  have hnew : Recent { time := s.now, zone := z, entry := .cover (s.zones[z]).cover.state .disabled cause } 0
      (s.coverRecorded z .disabled cause).acct.ring := recent_appendRing (s := s.coverEntered z .disabled cause) hf z _
  exact ((reaches_coverPurgeStep _ z _ .disabled).ring _ 0 hnew (by decide)).mem

/-- The covers leave COVERED: a run still in progress is left, and the purge timer rests (R102). -/
theorem coverChange_disabled_purge (hl : (s.zones[z]).cover.state = .covered) (cause : CoverCause) (index : Nat) :
    ((s.coverChange z .disabled cause index).zones[z]).purge = PurgeRt.reset ∧
    ((s.zones[z]).purge.state = .run → PurgeRunLeft s (s.coverChange z .disabled cause index) z) ∧
    ((s.zones[z]).purge.state ≠ .run → Reaches z [.cover, .scene, .coverWork, .purge] 0 1 s
      (s.coverChange z .disabled cause index)) := by
  have hrecorded := reaches_coverRecorded s z .disabled cause
  have hstate := congrArg PurgeRt.state (hrecorded.stands .purge (by decide))
  have hstep : s.coverChange z .disabled cause index = (s.coverRecorded z .disabled cause).purgeInactive z := by
    rw [coverChange_disabled, hl]
    exact if_neg (by decide)
  rw [hstep]
  refine ⟨purgeInactive_purge _ z, fun hr => ?_, fun hr => ?_⟩
  · exact (purgeInactive_left (hstate.trans hr)).between hrecorded (Reaches.refl _) (by decide) (by decide) (by decide)
      List.not_mem_nil List.not_mem_nil (reaches_purgeInactive _).work
  · rw [purgeInactive_idle fun e => hr (hstate.symm.trans e)]
    exact hrecorded.trans (reaches_updPurge _ _)

/-- Covers that were not COVERED leave the purge timer as it is. -/
theorem coverChange_disabled_apart (hl : (s.zones[z]).cover.state ≠ .covered) (cause : CoverCause) (index : Nat) :
    Reaches z [.cover, .scene, .coverWork] 0 1 s (s.coverChange z .disabled cause index) := by
  have hstep : s.coverChange z .disabled cause index = s.coverRecorded z .disabled cause := by
    rw [coverChange_disabled]
    exact (if_neg (by decide)).trans (if_neg hl)
  rw [hstep]
  exact reaches_coverRecorded s z .disabled cause

/-! ### The scene engine (R123) -/

theorem reaches_sceneDisable (s : State) : Reaches z [.scene, .take, .coverWork] 0 0 s (s.sceneDisable z) := by
  unfold State.sceneDisable
  rw [State.updScene_eq]
  refine reaches_updZone _ rfl rfl rfl fun p hp => ?_
  cases p <;> simp_all [Part.Kept]

theorem sceneDisable_scene (s : State) (z : ZoneIx) : ((s.sceneDisable z).zones[z]).scene = SceneRt.reset := by
  rw [State.sceneDisable, State.updScene_eq, State.updZone_same]

/-! ### The dispatcher (R131, R148) -/

theorem unqueue_frame (s : State) (a : ActIx) : s.unqueue a = { s with acts := (s.unqueue a).acts, disp := (s.unqueue a).disp } := by
  unfold State.unqueue
  split
  · rfl
  · split <;> rfl

theorem unqueue_other {a b : ActIx} (h : b ≠ a) (s : State) : (s.unqueue a).acts[b] = s.acts[b] := by
  unfold State.unqueue
  split
  · rfl
  · split
    · exact State.updAct_other _ h _
    · rfl

theorem unqueue_requested (s : State) (a b : ActIx) : ((s.unqueue a).acts[b]).requested = (s.acts[b]).requested := by
  by_cases h : b = a
  · subst h
    unfold State.unqueue
    split
    · rfl
    · split
      · rw [State.updAct_same]; rfl
      · rfl
  · rw [unqueue_other h]

/-- What has an owner job is not queued after its removal from the queue. -/
theorem unqueue_dispatch {a : ActIx} (h : (s.cfg.acts[a]).kind ≠ .plain) : ((s.unqueue a).acts[a]).dispatch ≠ .queued := by
  unfold State.unqueue
  split
  next hj => rw [← job_isSome_iff, hj] at h; cases h
  next =>
    split
    next => rw [State.updAct_same]; exact DispatchState.noConfusion
    next hq => exact fun e => hq (beq_iff_eq.2 e)

theorem zoneDisableActuator_eq (s : State) (a : ActIx) : s.zoneDisableActuator a = (s.unqueue a).updAct a ActRt.zoneDisabled := rfl

theorem zoneDisabled_requested (r : ActRt) : r.zoneDisabled.requested = r.requested := by
  unfold ActRt.zoneDisabled
  split <;> rfl

theorem zoneDisabled_dispatch (r : ActRt) : r.zoneDisabled.dispatch = r.dispatch := by
  unfold ActRt.zoneDisabled
  split <;> rfl

theorem zoneDisableActuator_frame (s : State) (a : ActIx) : s.zoneDisableActuator a =
    { s with acts := (s.zoneDisableActuator a).acts, disp := (s.zoneDisableActuator a).disp } := by
  rw [zoneDisableActuator_eq, unqueue_frame]
  rfl

theorem zoneDisableActuator_requested (s : State) (a b : ActIx) :
    ((s.zoneDisableActuator a).acts[b]).requested = (s.acts[b]).requested := by
  rw [zoneDisableActuator_eq]
  by_cases h : b = a
  · subst h
    rw [State.updAct_same, zoneDisabled_requested, unqueue_requested]
  · rw [State.updAct_other _ h, unqueue_requested]

theorem zoneDisableActuator_dispatch {a : ActIx} (hk : (s.cfg.acts[a]).kind ≠ .plain) (b : ActIx)
    (h : a = b ∨ (s.acts[a]).dispatch ≠ .queued) : ((s.zoneDisableActuator b).acts[a]).dispatch ≠ .queued := by
  rw [zoneDisableActuator_eq]
  by_cases hab : a = b
  · subst hab
    rw [State.updAct_same, zoneDisabled_dispatch]
    exact unqueue_dispatch hk
  · rw [State.updAct_other _ hab, unqueue_other hab]
    exact h.resolve_left hab

theorem dispatcherDisable_frame (s : State) (z : ZoneIx) : s.dispatcherDisable z =
    { s with acts := (s.dispatcherDisable z).acts, disp := (s.dispatcherDisable z).disp } := by
  have hfold (l : List ActIx) : ∀ s : State, l.foldl State.zoneDisableActuator s =
      { s with acts := (l.foldl State.zoneDisableActuator s).acts, disp := (l.foldl State.zoneDisableActuator s).disp } := by
    induction l with
    | nil => exact fun s => rfl
    | cons a l ih =>
      intro s
      rw [List.foldl_cons, ih, zoneDisableActuator_frame]
  exact hfold _ s

theorem dispatcherDisable_requested (s : State) (z : ZoneIx) (a : ActIx) :
    ((s.dispatcherDisable z).acts[a]).requested = (s.acts[a]).requested := by
  have hfold (l : List ActIx) : ∀ s : State, ((l.foldl State.zoneDisableActuator s).acts[a]).requested = (s.acts[a]).requested := by
    induction l with
    | nil => exact fun s => rfl
    | cons b l ih =>
      intro s
      rw [List.foldl_cons, ih, zoneDisableActuator_requested]
  exact hfold _ s

theorem dispatcherDisable_dispatch {a : ActIx} (hz : a ∈ s.zoneActuators z) (hk : (s.cfg.acts[a]).kind ≠ .plain) :
    ((s.dispatcherDisable z).acts[a]).dispatch ≠ .queued := by
  have hfold (l : List ActIx) : ∀ s : State, (s.cfg.acts[a]).kind ≠ .plain → a ∈ l ∨ (s.acts[a]).dispatch ≠ .queued →
      ((l.foldl State.zoneDisableActuator s).acts[a]).dispatch ≠ .queued := by
    induction l with
    | nil => exact fun s _ h => h.resolve_left List.not_mem_nil
    | cons b l ih =>
      intro s hk h
      rw [List.foldl_cons]
      refine ih _ (by rw [zoneDisableActuator_frame]; exact hk) ?_
      by_cases hl : a ∈ l
      · exact .inl hl
      · exact .inr (zoneDisableActuator_dispatch hk b (h.imp_left fun hm => (List.mem_cons.1 hm).resolve_right hl))
  exact hfold _ s hk (.inl hz)

end Sys2Proof.Machine
end

section
/-! SUPPORT. The DISABLE of an enabled zone as a whole, and the obligation about ENABLE and DISABLE. -/

namespace Sys2Proof.Machine

variable {s t u : State} {z : ZoneIx}

/-! ### The covers of a zone that is disabled (R96) -/

/-- Drives in motion are stopped. -/
def State.drivesStopped (s : State) (z : ZoneIx) : State :=
  if (s.zones[z]).cover.state.isMotion then s.requestDrives z driveStop else s

theorem coverDisable_eq (s : State) (z : ZoneIx) :
    s.coverDisable z = (s.drivesStopped z).coverChange z .disabled .zoneDisabled noIndex := rfl

theorem reaches_drivesStopped (s : State) (z : ZoneIx) : Reaches z [.acts .coverDrive] 0 0 s (s.drivesStopped z) := by
  unfold State.drivesStopped
  split
  · exact reaches_requestDrives s _
  · exact (Reaches.refl s).mono (by decide) (by decide) (by decide)

theorem drivesStopped_rest (h : (s.zones[z]).cover.state.isMotion = false) : s.drivesStopped z = s :=
  if_neg (by rw [h]; exact Bool.false_ne_true)

theorem drivesStopped_cover (s : State) (z : ZoneIx) : ((s.drivesStopped z).zones[z]).cover = (s.zones[z]).cover :=
  (reaches_drivesStopped s z).stands .cover (by decide)

/-- Within a disabled zone no decision is taken at the covers. -/
theorem reaches_coverDisable (h : s.enabled z = false) :
    Reaches z (.cover :: .scene :: .coverWork :: .acts .coverDrive :: purgeParts) 1 1 s (s.coverDisable z) := by
  have hstopped := reaches_drivesStopped s z
  have hrecorded := hstopped.trans (reaches_coverRecorded (s.drivesStopped z) z .disabled .zoneDisabled)
  have hpurge := coverPurgeStep_disabled ((enabled_of_work hrecorded.work z).trans h) ((s.drivesStopped z).zones[z]).cover.state
  rw [coverDisable_eq, coverChange_disabled]
  exact (hrecorded.trans hpurge).mono (by decide) (by decide) (by decide)

theorem coverDisable_cover (h : s.enabled z = false) : ((s.coverDisable z).zones[z]).cover =
    { state := .disabled, reason := none, drives := (s.zones[z]).cover.drives, detectTimer := .stopped, prepTimer := .stopped
      motionTimer := .stopped, settleTimer := .stopped, lightingReady := false, workSceneTaken := false } := by
  have hsame := (enabled_of_work (reaches_drivesStopped s z).work z).trans h
  rw [coverDisable_eq, coverChange_disabled_cover hsame _ rfl, drivesStopped_cover]

theorem coverDisable_recorded (hf : s.acct.frozen = false) :
    { time := s.now, zone := z, entry := .cover (s.zones[z]).cover.state .disabled .zoneDisabled } ∈ (s.coverDisable z).acct.ring := by
  have hstopped := reaches_drivesStopped s z
  have hrecord := coverChange_disabled_recorded (s := s.drivesStopped z) (z := z) (hstopped.frozen.trans hf) .zoneDisabled noIndex
  rw [hstopped.work.now, drivesStopped_cover] at hrecord
  rw [coverDisable_eq]
  exact hrecord

theorem not_covered_of_motion {c : CoverState} (h : c.isMotion = true) : c ≠ .covered := by rintro rfl; cases h

theorem coverDisable_stops (hm : (s.zones[z]).cover.state.isMotion = true) : DrivesRequested s (s.coverDisable z) z 0 := by
  have hstopped : s.drivesStopped z = s.requestDrives z driveStop := if_pos hm
  have hwork := (reaches_drivesStopped s z).work
  have hchange := coverChange_disabled_apart (s := s.drivesStopped z) (z := z)
    (by rw [drivesStopped_cover]; exact not_covered_of_motion hm) .zoneDisabled noIndex
  intro a ha hu hk hz
  rw [coverDisable_eq, hchange.stands (.acts .coverDrive) (by decide) a (by rw [hwork.acts]; exact hk), hstopped]
  exact requestDrives_requested s z driveStop a ha hu hk hz

theorem coverDisable_covered (hl : (s.zones[z]).cover.state = .covered) :
    ((s.coverDisable z).zones[z]).purge = PurgeRt.reset ∧
    ((s.zones[z]).purge.state = .run → PurgeRunLeft s (s.coverDisable z) z) ∧
    ((s.zones[z]).purge.state ≠ .run → Reaches z [.cover, .scene, .coverWork, .purge] 0 1 s (s.coverDisable z)) := by
  rw [coverDisable_eq, drivesStopped_rest (by rw [hl]; rfl)]
  exact coverChange_disabled_purge hl .zoneDisabled noIndex

/-! ### The blocks together (R169) -/

/-- The zone disabled, and its evaluation stopped. -/
def State.disabledBase (s : State) (z : ZoneIx) : State :=
  (s.setEnabled z false).updZone z fun r => { r with eval := { r.eval with timer := .stopped } }

/-- With the arbiter's decision taken. -/
def State.disabledDecided (s : State) (z : ZoneIx) : State := (s.disabledBase z).arbiterDisable z

/-- With the covers and the scene engine stopped. -/
def State.disabledStopped (s : State) (z : ZoneIx) : State := ((s.disabledDecided z).coverDisable z).sceneDisable z

theorem disableZone_eq (s : State) (z : ZoneIx) : s.disableZone z = (s.disabledStopped z).dispatcherDisable z := rfl

theorem disabledBase_zone (s : State) (z : ZoneIx) : (s.disabledBase z).zones[z] =
    { s.zones[z] with eval := { (s.zones[z]).eval with timer := .stopped } } := State.updZone_same ..

theorem disabledBase_enabled (s : State) (z : ZoneIx) : (s.disabledBase z).enabled z = false := by
  show ((s.setEnabled z false).cfg.zones[z]).eval.enabled = false
  rw [setEnabled_zoneCfg]

theorem reaches_disabledDecided (s : State) (z : ZoneIx) : Reaches z decisionParts 1 1 (s.disabledBase z) (s.disabledDecided z) :=
  reaches_arbiterDisable _ z

theorem disabledDecided_enabled (s : State) (z : ZoneIx) : (s.disabledDecided z).enabled z = false :=
  (enabled_of_work (reaches_disabledDecided s z).work z).trans (disabledBase_enabled s z)

theorem disabledDecided_cover (s : State) (z : ZoneIx) : ((s.disabledDecided z).zones[z]).cover = (s.zones[z]).cover := by
  rw [show _ = _ from (reaches_disabledDecided s z).stands .cover (by decide), disabledBase_zone]

theorem reaches_disabledStopped (s : State) (z : ZoneIx) :
    Reaches z (.cover :: .scene :: .coverWork :: .take :: .acts .coverDrive :: purgeParts) 1 1
      (s.disabledDecided z) (s.disabledStopped z) :=
  ((reaches_coverDisable (disabledDecided_enabled s z)).trans (reaches_sceneDisable _)).mono (by decide) (by decide) (by decide)

theorem disableZone_zones (s : State) (z : ZoneIx) : (s.disableZone z).zones = (s.disabledStopped z).zones := by
  rw [disableZone_eq, dispatcherDisable_frame]

theorem disableZone_acct (s : State) (z : ZoneIx) : (s.disableZone z).acct = (s.disabledStopped z).acct := by
  rw [disableZone_eq, dispatcherDisable_frame]

theorem disabled_work (s : State) (z : ZoneIx) :
    OneZoneWork z ((s.disabledBase z).updActs (s.actuatorsOf z) ActRt.zoneDisabled) (s.disableZone z) := by
  have hwork := (reaches_disabledDecided s z).work.trans (reaches_disabledStopped s z).work
  have hlist : (s.disabledStopped z).actuatorsOf z = s.actuatorsOf z := by
    unfold State.actuatorsOf
    rw [hwork.acts]
    rfl
  have hacts := hwork.updActs (s.actuatorsOf z) ActRt.zoneDisabled (fun a ha => mem_zoneActuators (s := s) ha)
    sameButQueued_zoneDisabled
  have hrest := zoneWork_dispatcherDisable (zs := fun w => w = z) (s.disabledStopped z) z rfl
  rw [hlist] at hrest
  rw [disableZone_eq]
  exact hacts.trans hrest

theorem disabled_cover (s : State) (z : ZoneIx) : ((s.disableZone z).zones[z]).cover =
    { state := .disabled, reason := none, drives := (s.zones[z]).cover.drives, detectTimer := .stopped, prepTimer := .stopped
      motionTimer := .stopped, settleTimer := .stopped, lightingReady := false, workSceneTaken := false } := by
  have hscene := (reaches_sceneDisable (z := z) ((s.disabledDecided z).coverDisable z)).stands .cover (by decide)
  rw [disableZone_zones, State.disabledStopped, show _ = _ from hscene, coverDisable_cover (disabledDecided_enabled s z),
    disabledDecided_cover]

theorem disabled_drives (hm : (s.zones[z]).cover.state.isMotion = true) : DrivesRequested s (s.disableZone z) z 0 := by
  have hstops := coverDisable_stops (s := s.disabledDecided z) (z := z) (by rw [disabledDecided_cover]; exact hm)
  have hscene := reaches_sceneDisable (z := z) ((s.disabledDecided z).coverDisable z)
  have hdecided := (reaches_disabledDecided s z).work
  have hacts : ((s.disabledDecided z).coverDisable z).cfg.acts = s.cfg.acts :=
    (reaches_coverDisable (disabledDecided_enabled s z)).work.acts.trans hdecided.acts
  have hcfg : (s.disabledDecided z).cfg.acts = s.cfg.acts := hdecided.acts
  intro a ha hu hk hz
  have hrequested := hstops a (by rw [disabledDecided_cover]; exact ha) (by rw [hcfg]; exact hu) (by rw [hcfg]; exact hk)
    (by rw [hcfg]; exact hz)
  rw [disableZone_eq, dispatcherDisable_requested, State.disabledStopped,
    hscene.stands (.acts .coverDrive) (by decide) a (by rw [hacts]; exact hk), hrequested, hcfg]

theorem sceneDisable_acct (s : State) (z : ZoneIx) : (s.sceneDisable z).acct = s.acct := rfl

theorem disabled_recorded (hf : s.acct.frozen = false) :
    { time := s.now, zone := z, entry := .cover (s.zones[z]).cover.state .disabled .zoneDisabled } ∈ (s.disableZone z).acct.ring := by
  have hdecided := reaches_disabledDecided s z
  have hrecord := coverDisable_recorded (s := s.disabledDecided z) (z := z) (hdecided.frozen.trans hf)
  have htime : (s.disabledDecided z).now = s.now := hdecided.work.now
  rw [htime, disabledDecided_cover] at hrecord
  rw [disableZone_acct, State.disabledStopped, sceneDisable_acct]
  exact hrecord

theorem disabled_dispatch {a : ActIx} (ha : a ∈ s.actuatorsOf z) (hk : (s.cfg.acts[a]).kind ≠ .plain) :
    ((s.disableZone z).acts[a]).dispatch ≠ .queued := by
  have hacts : (s.disabledStopped z).cfg.acts = s.cfg.acts :=
    ((reaches_disabledDecided s z).work.trans (reaches_disabledStopped s z).work).acts
  rw [disableZone_eq]
  refine dispatcherDisable_dispatch ?_ (by rw [hacts]; exact hk)
  unfold State.zoneActuators
  rw [hacts]
  exact ha

theorem disabled_arb (s : State) (z : ZoneIx) :
    ((s.disableZone z).zones[z]).arb.granted = .idle ∧ ((s.disableZone z).zones[z]).arb.dwell = .stopped := by
  rw [disableZone_zones, show _ = _ from (reaches_disabledStopped s z).stands .arb (by decide)]
  exact arbiterDisable_arb (disabledBase_enabled s z)

theorem disabled_scene (s : State) (z : ZoneIx) : ((s.disableZone z).zones[z]).scene = SceneRt.reset := by
  rw [disableZone_zones, State.disabledStopped, sceneDisable_scene]

theorem PurgeRunLeft.of_same (h : PurgeRunLeft s t z) (hr : ∀ a : ActIx, (u.acts[a]).requested = (t.acts[a]).requested)
    (ha : u.acct = t.acct) : PurgeRunLeft s u z where
  fans a hu hk hz := by rw [hr]; exact h.fans a hu hk hz
  account he hrun := by rw [ha]; exact h.account he hrun

/-- A run in progress is left by the decision that withdraws its grant, or else by the covers. -/
theorem disabledStopped_left (hl : (s.zones[z]).cover.state = .covered) (hr : (s.zones[z]).purge.state = .run) :
    PurgeRunLeft (s.disabledBase z) (s.disabledStopped z) z := by
  have henabled := disabledBase_enabled s z
  have hrun : ((s.disabledBase z).zones[z]).purge.state = .run := by rw [disabledBase_zone]; exact hr
  have hscene := reaches_sceneDisable (z := z) ((s.disabledDecided z).coverDisable z)
  have hcovers := (reaches_coverDisable (disabledDecided_enabled s z)).work
  obtain ⟨_, hleft, hidle⟩ := coverDisable_covered (s := s.disabledDecided z) (z := z) (by rw [disabledDecided_cover]; exact hl)
  by_cases hg : ((s.disabledBase z).zones[z]).arb.granted = .purge
  · obtain ⟨hwithdrawn, hne⟩ := arbiterDisable_withdraws henabled hg hrun
    exact hwithdrawn.between (Reaches.refl _) ((hidle hne).trans hscene) List.not_mem_nil List.not_mem_nil List.not_mem_nil
      (by decide) (by decide) (reaches_disabledDecided s z).work
  · have hapart : Reaches z [.arb] 0 1 (s.disabledBase z) (s.disabledDecided z) := arbiterDisable_apart henabled hg
    have hstate := congrArg PurgeRt.state (hapart.stands .purge (by decide))
    exact (hleft (hstate.trans hrun)).between hapart hscene (by decide) (by decide) (by decide) (by decide) (by decide) hcovers

theorem disabled_purge (hl : (s.zones[z]).cover.state = .covered) : ((s.disableZone z).zones[z]).purge = PurgeRt.reset ∧
    ((s.zones[z]).purge.state = .run → PurgeRunLeft s (s.disableZone z) z) := by
  have hscene := (reaches_sceneDisable (z := z) ((s.disabledDecided z).coverDisable z)).stands .purge (by decide)
  obtain ⟨hreset, _, _⟩ := coverDisable_covered (s := s.disabledDecided z) (z := z) (by rw [disabledDecided_cover]; exact hl)
  refine ⟨?_, fun hr => ?_⟩
  · rw [disableZone_zones, State.disabledStopped, show _ = _ from hscene, hreset]
  · have hleft := (disabledStopped_left hl hr).of_same (u := s.disableZone z)
      (fun a => dispatcherDisable_requested (s.disabledStopped z) z a) (disableZone_acct s z)
    obtain ⟨hfans, haccount⟩ := hleft
    rw [disabledBase_zone] at haccount
    exact ⟨hfans, haccount⟩

/-! ### On the state from which the request has been taken -/

section Taken

variable {c : Channel}

theorem taken_sameDrives (s : State) (c : Channel) : SameDrives s (s.taken c) := by cases c <;> exact ⟨rfl, rfl, rfl⟩

theorem taken_acct (s : State) (c : Channel) : (s.taken c).acct = s.acct := by cases c <;> rfl

theorem taken_actuatorsOf (s : State) (c : Channel) (z : ZoneIx) : (s.taken c).actuatorsOf z = s.actuatorsOf z := by
  unfold State.actuatorsOf
  rw [taken_cfg]

theorem taken_detectingCover (s : State) (c : Channel) (z : ZoneIx) : (s.taken c).detectingCover z = s.detectingCover z := by
  unfold State.detectingCover
  rw [(taken_sameDrives s c).formDrives, taken_cfg]

theorem PurgeRunLeft.of_taken (h : PurgeRunLeft (s.taken c) u z) : PurgeRunLeft s u z := by
  obtain ⟨hfans, haccount⟩ := h
  refine ⟨fun a => ?_, ?_⟩
  · have := hfans a
    rwa [taken_cfg] at this
  · unfold Accounted at haccount ⊢
    rwa [taken_cfg, taken_zones, taken_acct] at haccount

theorem DrivesRequested.of_taken {v : Int} (h : DrivesRequested (s.taken c) u z v) : DrivesRequested s u z v := by
  unfold DrivesRequested at h ⊢
  rwa [taken_cfg, taken_zones] at h

end Taken

/-- ENABLE passes over a zone that is enabled. -/
theorem exec_zoneEnable {c : Channel} {t : Telegram} {force : Byte} (h : NextIs s c t 4 [BitVec.ofNat 8 z, 0, force])
    (hf : force.toNat ≤ 1) (ho : c = .service ∨ (s.cfg.zones[z]).eval.protect = false) :
    exec .zoneEnable s = .next ((if (s.taken c).enabled z then s.taken c else (s.taken c).enableZone z).replied c t 4 .done []) :=
  congrArg Host.Outcome.next
    (serve_setting h hf (by decide) rfl (fun s z => if s.enabled z then s else s.enableZone z) ho)

/-- DISABLE passes over a zone that is disabled. -/
theorem exec_zoneDisable {c : Channel} {t : Telegram} {force : Byte} (h : NextIs s c t 4 [BitVec.ofNat 8 z, 1, force])
    (hf : force.toNat ≤ 1) (ho : c = .service ∨ (s.cfg.zones[z]).eval.protect = false) :
    exec .zoneDisable s = .next ((if (s.taken c).enabled z then (s.taken c).disableZone z else s.taken c).replied c t 4 .done []) :=
  congrArg Host.Outcome.next
    (serve_setting h hf (by decide) rfl (fun s z => if s.enabled z then s.disableZone z else s) ho)

/-- Settles O50: the checks, and the two commands by the blocks they run through. -/
theorem zonesAreEnabledAndDisabled : Obligations.ZonesAreEnabledAndDisabled := by
  intro s c t z force hforce setEnabled kept open_ record
  refine ⟨fun h => ⟨fun ho => ?_, fun ho he => ?_, fun ho he => ⟨(s.taken c).enableZone z, ?_, ?_⟩⟩,
    fun h => ⟨fun ho => ?_, fun ho he => ?_, fun ho he => ⟨(s.taken c).disableZone z, ?_, ?_⟩⟩⟩
  · exact congrArg Host.Outcome.next (serve_protected h hforce (by decide) rfl _ ho)
  · rw [exec_zoneEnable h hforce ho, if_pos (by rw [taken_enabled]; exact he)]
  · rw [exec_zoneEnable h hforce ho, if_neg (by rw [taken_enabled, he]; exact Bool.false_ne_true)]
  · intro base drives detecting entered resting
    have hsame := taken_sameDrives s c
    have hbase : (s.taken c).enabledBase z = base := by
      unfold State.enabledBase
      rw [taken_actuatorsOf, taken_cfg]
      rfl
    have hentered : (s.taken c).enabledEntered z = entered := by
      unfold State.enabledEntered
      rw [hbase, taken_detectingCover]
      rfl
    have hopens := enabled_opens (s := s.taken c) (z := z)
    have hcloses := enabled_closes (s := s.taken c) (z := z)
    have hdetects := enabled_detects (s := s.taken c) (z := z)
    rw [hsame.formDrives, hsame.allClosed, hsame.allOpen, taken_detectingCover, taken_zones, hentered] at hopens
    rw [hsame.formDrives, hsame.allClosed, taken_detectingCover, taken_zones, hentered] at hcloses
    rw [hsame.formDrives, hsame.allClosed, hsame.allOpen, taken_detectingCover] at hdetects
    refine ⟨?_, ?_, fun hf => ?_, hopens, hcloses, hdetects⟩
    · rw [← hbase]
      exact zoneWork_enabling _ z
    · rw [enabled_decided, taken_now]
    · have hrecord := enabled_recorded (s.taken c) z (by rw [taken_acct]; exact hf)
      rwa [taken_now, taken_zones] at hrecord
  · exact congrArg Host.Outcome.next (serve_protected h hforce (by decide) rfl _ ho)
  · rw [exec_zoneDisable h hforce ho, if_neg (by rw [taken_enabled, he]; exact Bool.false_ne_true)]
  · rw [exec_zoneDisable h hforce ho, if_pos (by rw [taken_enabled]; exact he)]
  · have hcover := disabled_cover (s.taken c) z
    have hwork := disabled_work (s.taken c) z
    have hdrives := disabled_drives (s := s.taken c) (z := z)
    have hrecord := disabled_recorded (s := s.taken c) (z := z)
    have hdispatch (a : ActIx) := disabled_dispatch (s := s.taken c) (z := z) (a := a)
    have harb := disabled_arb (s.taken c) z
    have hscene := disabled_scene (s.taken c) z
    have hpurge := disabled_purge (s := s.taken c) (z := z)
    generalize (s.taken c).disableZone z = u at *
    rw [taken_zones] at hcover hdrives hpurge
    rw [taken_zones, taken_acct, taken_now] at hrecord
    rw [taken_actuatorsOf] at hwork
    obtain ⟨hgranted, hdwell⟩ := harb
    refine ⟨hwork, hcover, fun hm => (hdrives ((isMotion_iff _).2 hm)).of_taken, hrecord, fun a ha hk => ?_, hgranted, hdwell,
      hscene, fun hl => ?_⟩
    · exact hdispatch a (by rw [taken_actuatorsOf]; exact ha) (by rw [taken_cfg]; exact hk)
    · exact (hpurge hl).imp_right fun hleft hr => (hleft hr).of_taken

end Sys2Proof.Machine
end

section
/-! SUPPORT. Conditional integration in stage 8, and the obligation about it. -/

namespace Sys2Proof.Machine

/-! ### The candidate integrator (R54) -/

section Candidate

variable {i candidate pterm e : Int}

/-- Too cold a hall with a trial demand above full scale: the integrator does not grow. -/
theorem candidateKept_of_above (hu : 1000 < pterm + candidate.tdiv 64) (he : 0 < e) :
    candidateKept i candidate pterm e = i :=
  if_pos (.inl ⟨hu, he⟩)

/-- Too warm a hall with a trial demand below zero: the integrator does not shrink. -/
theorem candidateKept_of_below (hu : pterm + candidate.tdiv 64 < 0) (he : e < 0) :
    candidateKept i candidate pterm e = i :=
  if_pos (.inr ⟨hu, he⟩)

theorem candidateKept_of_stands (habove : ¬ (1000 < pterm + candidate.tdiv 64 ∧ 0 < e))
    (hbelow : ¬ (pterm + candidate.tdiv 64 < 0 ∧ e < 0)) : candidateKept i candidate pterm e = candidate :=
  if_neg (not_or_intro habove hbelow)

/-- A candidate equal to the integrator gives the integrator, withdrawn or not. -/
@[simp] theorem candidateKept_self (i pterm e : Int) : candidateKept i i pterm e = i :=
  ite_self i

end Candidate

/-- An error or a Ki of 0 forms the candidate that is the integrator itself (R53). -/
theorem formedCandidate_eq_self (i : Int) {ki e : Int} (h : e = 0 ∨ ki = 0) : i + ki * e = i := by
  have hstep : ki * e = 0 := mul_eq_zero.2 h.symm
  rw [hstep, add_zero]

/-- Settles O40: the two withdrawals, the candidate that stands, and the candidate that is the integrator. -/
theorem conditionalIntegration : Obligations.ConditionalIntegration := by
  intro i formed pterm e u
  refine ⟨fun ⟨hu, he⟩ => candidateKept_of_above hu he, fun ⟨hu, he⟩ => candidateKept_of_below hu he,
    candidateKept_of_stands, fun ki h => ?_⟩
  rw [formedCandidate_eq_self i h]
  exact ⟨candidateKept_self i pterm e, rfl⟩

end Sys2Proof.Machine
end

section
/-! SUPPORT. A decision of the air handler arbiter: the row that chooses, the tests of dwell and hold, what a decision does in each
case, the outputs it requests, and the obligation about it. -/

namespace Sys2Proof.Machine

section Decisions

variable {z : ZoneIx} {s t u : State} {row : ChoiceRow} {mode : Mode} {release : Bool}

/-! ### The choice (R68, R69) -/

theorem ventAvailable_iff : s.ventAvailable z = true ↔ VentAvailable s z := by
  unfold State.ventAvailable VentAvailable
  generalize s.zones[z] = r
  cases htout : r.eval.tout.last <;> cases htd : r.eval.td <;> simp [htout, htd]

theorem purgeClaims_iff : (s.zones[z]).purgeClaims = true ↔ RowHolds s z .purge := by
  simp [ZoneRt.purgeClaims, RowHolds, or_assoc]

/-- Of two rows of R68 one stands above the other. -/
theorem row_above_or (r r' : ChoiceRow) : r = r' ∨ r ∈ r'.above ∨ r' ∈ r.above := by
  cases r <;> cases r' <;> decide

/-- The row that the arbiter finds holds, and none above it does. -/
theorem choiceRow_first (s : State) (z : ZoneIx) :
    RowHolds s z (s.choiceRow z) ∧ ∀ r ∈ (s.choiceRow z).above, ¬ RowHolds s z r := by
  have hdisabled : RowHolds s z .disabled ↔ (!s.enabled z) = true := by simp [RowHolds]
  have hcrit : RowHolds s z .crit ↔ (s.zones[z]).eval.crit = true := Iff.rfl
  have hheating : RowHolds s z .heating ↔ 0 < (s.zones[z]).heat.h := Iff.rfl
  unfold State.choiceRow
  dsimp only
  split
  next h => exact ⟨hdisabled.2 h, nofun⟩
  next h1 =>
    rw [← hdisabled] at h1
    split
    next h => exact ⟨h, by simp [ChoiceRow.above, h1]⟩
    next h2 =>
      rw [← hcrit] at h2
      split
      next h => exact ⟨purgeClaims_iff.1 h, by simp [ChoiceRow.above, h1, h2]⟩
      next h3 =>
        rw [purgeClaims_iff] at h3
        split
        next h => exact ⟨h, by simp [ChoiceRow.above, h1, h2, h3]⟩
        next h4 =>
          have h4 : ¬ RowHolds s z .drying := h4
          split
          next h => exact ⟨h, by simp [ChoiceRow.above, h1, h2, h3, h4]⟩
          next h5 =>
            rw [← hheating] at h5
            exact ⟨trivial, by simp [ChoiceRow.above, h1, h2, h3, h4, h5]⟩

/-- The mode that the arbiter would choose. -/
def State.chosenMode (s : State) (z : ZoneIx) : Mode := (s.choiceRow z).mode (s.ventAvailable z)

theorem Chooses.row_eq (h : Chooses s z row mode) : row = s.choiceRow z := by
  obtain ⟨hholds, hfirst⟩ := choiceRow_first s z
  rcases row_above_or row (s.choiceRow z) with he | habove | hbelow
  · exact he
  · exact absurd h.holds (hfirst row habove)
  · exact absurd hholds (h.first _ hbelow)

theorem Chooses.mode_eq (h : Chooses s z row mode) : mode = s.chosenMode z := by
  have hvents (hr : row = .crit ∨ row = .drying) : mode = if s.ventAvailable z then .vent else .dry := by
    split
    next hv => exact h.vent hr (ventAvailable_iff.1 hv)
    next hv => exact h.dry hr fun ha => hv (ventAvailable_iff.2 ha)
  unfold State.chosenMode
  rw [← h.row_eq]
  cases row with
  | disabled => exact h.idle (.inl rfl)
  | none => exact h.idle (.inr rfl)
  | purge => exact h.purge rfl
  | heating => exact h.heating rfl
  | crit => exact hvents (.inl rfl)
  | drying => exact hvents (.inr rfl)

/-- PURGE is chosen by its own row alone. -/
theorem chosenMode_purge_iff : s.chosenMode z = .purge ↔ s.choiceRow z = .purge := by
  refine ⟨fun h => ?_, fun h => ?_⟩
  · by_contra hne
    exact mode_ne_purge hne _ h
  · unfold State.chosenMode
    rw [h]
    rfl

/-- The purge's row makes the choice where it holds, in an enabled zone whose CRIT is clear. -/
theorem choiceRow_purge_iff : s.choiceRow z = .purge ↔
    s.enabled z = true ∧ (s.zones[z]).eval.crit = false ∧ RowHolds s z .purge := by
  obtain ⟨hholds, hfirst⟩ := choiceRow_first s z
  refine ⟨fun h => ?_, fun ⟨he, hc, hp⟩ => ?_⟩
  · rw [h] at hholds hfirst
    exact ⟨Bool.not_eq_false _ ▸ hfirst .disabled (by decide), Bool.not_eq_true _ ▸ hfirst .crit (by decide), hholds⟩
  · rcases row_above_or (s.choiceRow z) .purge with h | h | h
    · exact h
    · rw [show ChoiceRow.purge.above = [.disabled, .crit] from rfl, List.mem_pair] at h
      rcases h with h | h <;> rw [h] at hholds
      · exact absurd (he.symm.trans hholds) (by decide)
      · exact absurd (hc.symm.trans hholds) (by decide)
    · exact absurd hp (hfirst _ h)

/-! ### Dwell, hold and cause (R71 to R73) -/

theorem passesDwell_iff : dwellPasses row (s.zones[z]).arb release = true ↔ PassesDwell s z row release := by
  simp only [dwellPasses, leavesPurge, PassesDwell, Bool.or_eq_true, Bool.and_eq_true, beq_iff_eq]
  tauto

theorem passesHold_iff : holdPasses (s.zones[z]).held row (s.zones[z]).arb release = true ↔ PassesHold s z row release := by
  simp only [holdPasses, leavesPurge, PassesHold, Bool.or_eq_true, Bool.and_eq_true, beq_iff_eq, Bool.not_eq_true', or_assoc]

theorem changeCause_eq (s : State) (z : ZoneIx) (row : ChoiceRow) (release : Bool) :
    changeCause row (s.zones[z]).arb.granted release = causeOf s z row release := by
  cases row <;> simp [changeCause, causeOf, leavesPurge]

/-! ### What a decision does in each case (R67, R71 to R73) -/

/-- A decision changes the mode. -/
structure Effective (s : State) (z : ZoneIx) (release : Bool) : Prop where
  differs : s.chosenMode z ≠ (s.zones[z]).arb.granted
  dwell : PassesDwell s z (s.choiceRow z) release
  hold : PassesHold s z (s.choiceRow z) release

/-- Why a decision that does not change the mode leaves it. -/
inductive Remains (s : State) (z : ZoneIx) (release : Bool) : Option Pending → Prop where
  | same (h : s.chosenMode z = (s.zones[z]).arb.granted) : Remains s z release none
  | dwell (h : s.chosenMode z ≠ (s.zones[z]).arb.granted) (hd : ¬ PassesDwell s z (s.choiceRow z) release) :
    Remains s z release (some .dwell)
  | hold (h : s.chosenMode z ≠ (s.zones[z]).arb.granted) (hd : PassesDwell s z (s.choiceRow z) release)
    (hh : ¬ PassesHold s z (s.choiceRow z) release) : Remains s z release (some .hold)

theorem arbitrateMode_remains {p : Option Pending} (h : Remains s z release p) :
    s.arbitrateMode z release = (s.choiceNoted z).updArb z fun a => { a with pending := p } := by
  unfold State.arbitrateMode
  cases h with
  | same h => exact if_pos h
  | dwell h hd =>
    rw [← passesDwell_iff, Bool.not_eq_true] at hd
    exact (if_neg h).trans (if_pos (by rw [hd]; rfl))
  | hold h hd hh =>
    rw [← passesDwell_iff] at hd
    rw [← passesHold_iff, Bool.not_eq_true] at hh
    exact (if_neg h).trans ((if_neg (by rw [hd]; decide)).trans (if_pos (by rw [hh]; rfl)))

theorem arbitrateMode_changes (h : Effective s z release) : s.arbitrateMode z release =
    (s.choiceNoted z).changeMode z (s.chosenMode z) (causeOf s z (s.choiceRow z) release) := by
  have hd := passesDwell_iff.2 h.dwell
  have hh := passesHold_iff.2 h.hold
  rw [← changeCause_eq]
  unfold State.arbitrateMode
  exact (if_neg h.differs).trans ((if_neg (by rw [hd]; decide)).trans (if_neg (by rw [hh]; decide)))

theorem effective_or_remains (s : State) (z : ZoneIx) (release : Bool) :
    Effective s z release ∨ ∃ p, Remains s z release p := by
  by_cases h : s.chosenMode z = (s.zones[z]).arb.granted
  · exact .inr ⟨_, .same h⟩
  · by_cases hd : PassesDwell s z (s.choiceRow z) release
    · by_cases hh : PassesHold s z (s.choiceRow z) release
      · exact .inl ⟨h, hd, hh⟩
      · exact .inr ⟨_, .hold h hd hh⟩
    · exact .inr ⟨_, .dwell h hd⟩

theorem Remains.not_effective {p : Option Pending} (h : Remains s z release p) : ¬ Effective s z release := by
  intro he
  cases h with
  | same h => exact he.differs h
  | dwell _ hd => exact hd he.dwell
  | hold _ _ hh => exact hh he.hold

/-- A decision that leaves the mode reaches the arbiter's record and the outputs alone. -/
theorem takeDecision_remains (h : ¬ Effective s z release) : Reaches z (.arb :: airParts) 0 0 s (s.takeDecision z release) := by
  obtain ⟨p, hp⟩ := (effective_or_remains s z release).resolve_left h
  have houtputs := takeDecision_outputs s z release
  rw [arbitrateMode_remains hp] at houtputs
  exact (((reaches_choiceNoted s).trans (reaches_updArb _ _)).trans houtputs).mono (by decide) (by decide) (by decide)

/-- The choice noted and the new mode with its record, before the purge timer is told. -/
def State.modeChanged (s : State) (z : ZoneIx) (release : Bool) : State :=
  (s.choiceNoted z).modeNoted z (s.chosenMode z) (causeOf s z (s.choiceRow z) release)

theorem reaches_modeChanged (s : State) (z : ZoneIx) (release : Bool) : Reaches z [.arb] 0 1 s (s.modeChanged z release) :=
  ((reaches_choiceNoted s).trans (reaches_modeNoted _ _ _)).mono (by decide) (by decide) (by decide)

/-- A change of mode tells the purge timer, and the outputs follow (R73, R74, R77). -/
theorem takeDecision_changes (h : Effective s z release) : Reaches z airParts 0 0
    ((s.modeChanged z release).tellPurge z (s.zones[z]).arb.granted (s.chosenMode z)) (s.takeDecision z release) := by
  have houtputs := takeDecision_outputs s z release
  rw [arbitrateMode_changes h, changeMode_eq, choiceNoted_granted] at houtputs
  exact houtputs

/-! ### What the purge timer is told (R74, R100, R101) -/

/-- PURGE granted to a requested or suspended purge. -/
def GrantsPurge (s : State) (z : ZoneIx) (release : Bool) : Prop :=
  Effective s z release ∧ s.chosenMode z = .purge ∧
    ((s.zones[z]).purge.state = .request ∨ (s.zones[z]).purge.state = .suspended)

/-- The grant of a running purge withdrawn. -/
def WithdrawsPurge (s : State) (z : ZoneIx) (release : Bool) : Prop :=
  Effective s z release ∧ (s.zones[z]).arb.granted = .purge ∧ (s.zones[z]).purge.state = .run

theorem modeChanged_purge (s : State) (z : ZoneIx) (release : Bool) :
    ((s.modeChanged z release).zones[z]).purge = (s.zones[z]).purge :=
  (reaches_modeChanged s z release).stands .purge (by decide)

theorem grants_of_decision (h : GrantsPurge s z release) :
    Reaches z airParts 0 0 ((s.modeChanged z release).purgeGranted z) (s.takeDecision z release) := by
  obtain ⟨heff, hmode, hstate⟩ := h
  have hchange := takeDecision_changes heff
  unfold State.tellPurge at hchange
  rwa [modeChanged_purge, if_pos ⟨hmode, hstate⟩] at hchange

theorem withdraws_of_decision (h : WithdrawsPurge s z release) :
    Reaches z airParts 0 0 ((s.modeChanged z release).purgeWithdrawn z) (s.takeDecision z release) := by
  obtain ⟨heff, hgranted, hstate⟩ := h
  have hchange := takeDecision_changes heff
  have hrun : ¬ (s.chosenMode z = .purge ∧ ((s.zones[z]).purge.state = .request ∨ (s.zones[z]).purge.state = .suspended)) := by
    rw [hstate]
    rintro ⟨_, h | h⟩ <;> cases h
  unfold State.tellPurge at hchange
  rwa [modeChanged_purge, if_neg hrun, if_pos ⟨hgranted, hstate⟩] at hchange

/-- Any other decision tells the purge timer nothing. -/
theorem takeDecision_apart (hg : ¬ GrantsPurge s z release) (hw : ¬ WithdrawsPurge s z release) :
    Reaches z (.arb :: airParts) 0 1 s (s.takeDecision z release) := by
  by_cases heff : Effective s z release
  · have hchange := takeDecision_changes heff
    unfold State.tellPurge at hchange
    rw [modeChanged_purge, if_neg fun h => hg ⟨heff, h⟩, if_neg fun h => hw ⟨heff, h⟩] at hchange
    exact (reaches_modeChanged s z release).trans hchange
  · exact (takeDecision_remains heff).mono (by decide) (by decide) (by decide)

/-- The purge timer with its run begun or gone on with, before the fans are requested. -/
def State.purgeStarted (s : State) (z : ZoneIx) : State :=
  s.updPurge z fun p =>
    match p.state with
    | .request =>
      { p with state := .run, runCounted := 0, remainingRun := (s.cfg.zones[z]).cover.runB * 60 * perSecond, runStart := some s.now }
    | .inactive | .wait | .run | .suspended => { p with state := .run, runCounted := 0 }

theorem purgeGranted_eq (s : State) (z : ZoneIx) :
    s.purgeGranted z = (s.purgeStarted z).requestFans z (s.cfg.zones[z]).cover.fanLevel := rfl

theorem purgeGranted_purge (s : State) (z : ZoneIx) :
    ((s.purgeGranted z).zones[z]).purge = ((s.purgeStarted z).zones[z]).purge := by
  rw [purgeGranted_eq]
  exact (reaches_requestFans (s.purgeStarted z) _).stands .purge (by decide)

theorem purgeGranted_grants (s : State) (z : ZoneIx) : PurgeGranted s (s.purgeGranted z) z where
  fans := requestFans_requested (s.purgeStarted z) z _
  starts hr := by
    rw [purgeGranted_purge, State.purgeStarted, updPurge_purge, hr]
    rfl
  resumes hr := by rw [purgeGranted_purge, State.purgeStarted, updPurge_purge, hr]

section Between

variable {parts parts' : List Part} {n n' r r' : Nat} {s' t' : State}

/-- A grant seen from before and after work that concerns neither the purge timer nor its fans. -/
theorem PurgeGranted.between (h : PurgeGranted s' t' z) (hs : Reaches z parts n r s s') (hw : OneZoneWork z s' t')
    (ht : Reaches z parts' n' r' t' t) (hrun : .run ∉ parts) (hpurge : .purge ∉ parts) (hpurge' : .purge ∉ parts')
    (hfan' : .acts .purgeFan ∉ parts') : PurgeGranted s t z := by
  have hcfg : s'.cfg = s.cfg := hs.stands .run hrun
  have hbefore : (s'.zones[z]).purge = (s.zones[z]).purge := hs.stands .purge hpurge
  have hafter : (t.zones[z]).purge = (t'.zones[z]).purge := ht.stands .purge hpurge'
  obtain ⟨hfans, hstarts, hresumes⟩ := h
  rw [hbefore, hcfg, hs.work.now] at hstarts
  rw [hbefore] at hresumes
  refine ⟨fun a hu hk hz => ?_, fun hr => hafter.trans (hstarts hr), fun hr => hafter.trans (hresumes hr)⟩
  have := hfans a (by rw [hcfg]; exact hu) (by rw [hcfg]; exact hk) (by rw [hcfg]; exact hz)
  rw [ht.stands (.acts .purgeFan) hfan' a (by rw [hw.acts, hcfg]; exact hk), this, hcfg]

theorem PurgeWithdrawn.between (h : PurgeWithdrawn s' t' z) (hs : Reaches z parts n r s s') (hw : OneZoneWork z s' t')
    (ht : Reaches z parts' n' r' t' t) (hrun : .run ∉ parts) (hpurge : .purge ∉ parts) (hacc : .acc accPurgeRun ∉ parts)
    (hpurge' : .purge ∉ parts') (hacc' : .acc accPurgeRun ∉ parts') (hfan' : .acts .purgeFan ∉ parts') :
    PurgeWithdrawn s t z := by
  refine ⟨h.toPurgeRunLeft.between hs ht hrun hpurge hacc hacc' hfan' hw, ?_⟩
  have hbefore : (s'.zones[z]).purge = (s.zones[z]).purge := hs.stands .purge hpurge
  have hcfg : s'.cfg = s.cfg := hs.stands .run hrun
  rw [show _ = _ from ht.stands .purge hpurge', h.purge, hbefore, hcfg]

end Between

theorem takeDecision_grants (h : GrantsPurge s z release) : PurgeGranted s (s.takeDecision z release) z := by
  have hgrants : PurgeGranted (s.modeChanged z release) ((s.modeChanged z release).purgeGranted z) z :=
    purgeGranted_grants _ z
  exact hgrants.between (reaches_modeChanged s z release) (reaches_purgeGranted _).work (grants_of_decision h)
    (by decide) (by decide) (by decide) (by decide)

theorem takeDecision_withdraws (h : WithdrawsPurge s z release) : PurgeWithdrawn s (s.takeDecision z release) z := by
  have hwithdrawn : PurgeWithdrawn (s.modeChanged z release) ((s.modeChanged z release).purgeWithdrawn z) z :=
    purgeWithdrawn_run (by rw [modeChanged_purge]; exact h.2.2)
  exact hwithdrawn.between (reaches_modeChanged s z release) (reaches_purgeWithdrawn _).work (withdraws_of_decision h)
    (by decide) (by decide) (by decide) (by decide) (by decide) (by decide)

/-! ### What a decision leaves in the arbiter's record (R67, R71 to R73) -/

theorem choiceNoted_arb (s : State) (z : ZoneIx) : ((s.choiceNoted z).zones[z]).arb = { (s.zones[z]).arb with
    ventAvailable := s.ventAvailable z, chosen := some (s.chosenMode z), lastDecision := some s.now } := updArb_arb ..

theorem takeDecision_arb_remains {p : Option Pending} (h : Remains s z release p) :
    ((s.takeDecision z release).zones[z]).arb = { (s.zones[z]).arb with
      ventAvailable := s.ventAvailable z, chosen := some (s.chosenMode z), lastDecision := some s.now, pending := p } := by
  rw [takeDecision_arb, arbitrateMode_remains h, updArb_arb, choiceNoted_arb]

theorem takeDecision_arb_changes (h : Effective s z release) :
    ((s.takeDecision z release).zones[z]).arb = { (s.zones[z]).arb with
      ventAvailable := s.ventAvailable z, chosen := some (s.chosenMode z), lastDecision := some s.now
      granted := s.chosenMode z, grantTime := some s.now, dwell := .running ((s.cfg.zones[z]).arb.dwell * 1000)
      pending := none, lastCause := some (causeOf s z (s.choiceRow z) release) } := by
  rw [takeDecision_arb, arbitrateMode_changes h, changeMode_arb, choiceNoted_arb]
  rfl

/-- Whatever a decision does, it stores the choice. -/
theorem takeDecision_noted (s : State) (z : ZoneIx) (release : Bool) :
    ((s.takeDecision z release).zones[z]).arb.chosen = some (s.chosenMode z) ∧
    ((s.takeDecision z release).zones[z]).arb.ventAvailable = s.ventAvailable z := by
  rcases effective_or_remains s z release with h | ⟨p, h⟩
  · rw [takeDecision_arb_changes h]
    exact ⟨rfl, rfl⟩
  · rw [takeDecision_arb_remains h]
    exact ⟨rfl, rfl⟩

/-- A change of mode is in the ring (R73, R183). -/
theorem takeDecision_recorded (h : Effective s z release) (hf : s.acct.frozen = false) :
    { time := s.now, zone := z, entry := .ahu (s.zones[z]).arb.granted (s.chosenMode z) (causeOf s z (s.choiceRow z) release) } ∈
      (s.takeDecision z release).acct.ring := by
  have hnew : Recent
      { time := s.now, zone := z, entry := .ahu (s.zones[z]).arb.granted (s.chosenMode z) (causeOf s z (s.choiceRow z) release) }
      0 (s.modeChanged z release).acct.ring := by
    unfold State.modeChanged State.modeNoted
    rw [choiceNoted_granted]
    exact recent_appendRing (s := (s.choiceNoted z).updArb z _) hf z _
  exact (((reaches_tellPurge _ _ _).trans (takeDecision_changes h)).ring _ 0 hnew (by decide)).mem

/-! ### The outputs (R77) -/

theorem airRequest_other {a b : ActIx} (h : b ≠ a) (s : State) (z : ZoneIx) (m : Mode) (night : Bool) (d : Int) :
    (s.airRequest z m night d a).acts[b] = s.acts[b] := by
  unfold State.airRequest
  dsimp only
  split
  · exact jobRequest_other h ..
  · exact jobRequest_other h ..
  · exact jobRequest_other h ..
  all_goals rfl

theorem airRequest_cfg (s : State) (z : ZoneIx) (m : Mode) (night : Bool) (d : Int) (a : ActIx) :
    (s.airRequest z m night d a).cfg = s.cfg :=
  (reaches_airRequest s m night d a).stands .run (by decide)

/-- The request made of an actuator of the air handler is the output of the mode. -/
theorem airRequest_requested {a : ActIx} {v : Int} (hcfg : t.cfg = s.cfg) (hu : (s.cfg.acts[a]).inUse = true)
    (hz : (s.cfg.acts[a]).zone = z) (hv : airOutput s z mode (s.cfg.acts[a]).kind = some v) :
    ((t.airRequest z mode ((s.zones[z]).cover.state == .covered) (s.zones[z]).eval.d a).acts[a]).requested =
      some ((s.cfg.acts[a]).limited v) := by
  have hrequest (k : ActKind) (hk : (s.cfg.acts[a]).kind = k) (x : Int) (hx : x = v) :
      ((t.jobRequest k z a x).acts[a]).requested = some ((s.cfg.acts[a]).limited v) := by
    rw [← hcfg] at hu hk hz ⊢
    rw [hx]
    exact jobRequest_requested hu hk hz v
  unfold State.airRequest
  rw [hcfg]
  cases hk : (s.cfg.acts[a]).kind <;> rw [hk] at hv <;> dsimp only [airOutput] at hv ⊢ <;> cases hv
  case ahuMode => exact hrequest _ hk _ (by cases mode <;> rfl)
  case supplyFan => exact hrequest _ hk _ (by cases mode <;> simp [fanLevel])
  case oaDamper => exact hrequest _ hk _ (by cases mode <;> rfl)

/-- The requests made of a list of actuators reach each of them that has an output. -/
theorem foldAirRequests_requested {a : ActIx} {v : Int} (hu : (s.cfg.acts[a]).inUse = true) (hz : (s.cfg.acts[a]).zone = z)
    (hv : airOutput s z mode (s.cfg.acts[a]).kind = some v) (l : List ActIx) : ∀ t : State, t.cfg = s.cfg →
    a ∈ l ∨ (t.acts[a]).requested = some ((s.cfg.acts[a]).limited v) →
    ((l.foldl (fun t a => t.airRequest z mode ((s.zones[z]).cover.state == .covered) (s.zones[z]).eval.d a) t).acts[a]).requested =
      some ((s.cfg.acts[a]).limited v) := by
  induction l with
  | nil => exact fun t _ h => h.resolve_left List.not_mem_nil
  | cons b l ih =>
    intro t hcfg h
    refine ih _ ((airRequest_cfg ..).trans hcfg) ?_
    by_cases hb : a = b
    · subst hb
      exact .inr (airRequest_requested hcfg hu hz hv)
    · rw [airRequest_other hb]
      exact h.imp_left fun h => (List.mem_cons.1 h).resolve_left hb

theorem airOutputs_requested {a : ActIx} {v : Int} (hu : (s.cfg.acts[a]).inUse = true) (hz : (s.cfg.acts[a]).zone = z)
    (hv : airOutput s z (s.zones[z]).arb.granted (s.cfg.acts[a]).kind = some v) :
    ((s.airOutputs z).acts[a]).requested = some ((s.cfg.acts[a]).limited v) :=
  foldAirRequests_requested hu hz hv _ s rfl (.inl (mem_indices a))

/-- An enabled zone's decision requests the outputs of the mode that it leaves granted. -/
theorem takeDecision_requests (he : s.enabled z = true) {a : ActIx} {v : Int} (hu : (s.cfg.acts[a]).inUse = true)
    (hz : (s.cfg.acts[a]).zone = z)
    (hv : airOutput s z ((s.takeDecision z release).zones[z]).arb.granted (s.cfg.acts[a]).kind = some v) :
    ((s.takeDecision z release).acts[a]).requested = some ((s.cfg.acts[a]).limited v) := by
  have hreach := reaches_arbitrateMode (z := z) s release
  have hcover : ((s.arbitrateMode z release).zones[z]).cover = (s.zones[z]).cover := hreach.stands .cover (by decide)
  have houtput (k : ActKind) (m : Mode) : airOutput (s.arbitrateMode z release) z m k = airOutput s z m k := by
    unfold airOutput
    rw [hcover, hreach.work.eval, hreach.work.zonesCfg]
  have hdecision : s.takeDecision z release = (s.arbitrateMode z release).airOutputs z :=
    if_pos ((enabled_of_work hreach.work z).trans he)
  rw [takeDecision_arb] at hv
  rw [← hreach.work.acts] at hu hz hv ⊢
  rw [hdecision]
  exact airOutputs_requested hu hz ((houtput _ _).trans hv)

end Decisions

/-- Settles O41: the choice is the first row, and a decision changes the mode or notes why not. -/
theorem decisionsGrantTheFirstRow : Obligations.DecisionsGrantTheFirstRow := by
  intro s z release row mode hchoice u before after purge effective granted withdrawn
  have hrow := hchoice.row_eq
  have hmode := hchoice.mode_eq
  subst hrow hmode
  have heff : effective ↔ Effective s z release := ⟨fun ⟨h, hd, hh⟩ => ⟨h, hd, hh⟩, fun h => ⟨h.differs, h.dwell, h.hold⟩⟩
  have hgrants : granted ↔ GrantsPurge s z release := and_congr_left' heff
  have hwithdraws : withdrawn ↔ WithdrawsPurge s z release := and_congr_left' heff
  obtain ⟨hchosen, hvent⟩ := takeDecision_noted s z release
  refine ⟨fun h => takeDecision_grants (hgrants.1 h), fun h => takeDecision_withdraws (hwithdraws.1 h), fun hg hw => ?_,
    zoneWork_takeDecision s z release rfl, hchosen, ?_, takeDecision_decided s z release, fun h => ?_, fun h hd => ?_,
    fun h hd hh => ?_, fun h hd hh => ?_, fun he a v hu hz hv => takeDecision_requests he hu hz hv⟩
  · have hapart := takeDecision_apart (fun h => hg (hgrants.2 h)) (fun h => hw (hwithdraws.2 h))
    exact ⟨hapart.stands .purge (by decide), hapart.stands (.acts .purgeFan) (by decide)⟩
  · rw [← ventAvailable_iff]
    exact Bool.eq_iff_iff.1 hvent
  · have harb : after = _ := takeDecision_arb_remains (.same h)
    rw [harb]
  · have harb : after = _ := takeDecision_arb_remains (.dwell h hd)
    rw [harb]
    exact ⟨rfl, rfl, rfl⟩
  · have harb : after = _ := takeDecision_arb_remains (.hold h hd hh)
    rw [harb]
    exact ⟨rfl, rfl, rfl⟩
  · have hchange : Effective s z release := ⟨h, hd, hh⟩
    have harb : after = _ := takeDecision_arb_changes hchange
    rw [harb]
    exact ⟨rfl, rfl, rfl, rfl, rfl, takeDecision_recorded hchange⟩

end Sys2Proof.Machine
end

section
/-! SUPPORT. The ends of the purge wait and of the run, and the obligation about them and the covers' leaving of COVERED. -/

namespace Sys2Proof.Machine

section Expiries

variable {z : ZoneIx} {s : State}

/-! ### The end of the wait (R99, R100) -/

/-- The purge requested. -/
def State.purgeRequested (s : State) (z : ZoneIx) : State := s.updPurge z fun p => { p with state := .request }

theorem purgeRequested_zone (s : State) (z : ZoneIx) : (s.purgeRequested z).zones[z] =
    { s.zones[z] with purge := { (s.zones[z]).purge with state := .request } } := State.updZone_same ..

theorem reaches_purgeRequested (s : State) (z : ZoneIx) : Reaches z [.purge] 0 0 s (s.purgeRequested z) := reaches_updPurge s _

theorem exec_purgeWaitExpiry (hh : (s.zones[z]).held = false) (hw : (s.zones[z]).purge.state = .wait)
    (h0 : (s.zones[z]).purge.remainingWait = 0) :
    exec (.purgeWaitExpiry z) s = .next ((s.purgeRequested z).takeDecision z false) := by
  have hdue : (s.zones[z]).purgeWaitDue = true := by
    unfold ZoneRt.purgeWaitDue
    rw [hh, hw, h0]
    rfl
  exact congrArg Host.Outcome.next (if_pos hdue)

/-- A request under closed covers is granted where neither CRIT nor the dwell stands against it. -/
theorem purgeRequested_grants (he : s.enabled z = true) (hh : (s.zones[z]).held = false) (hcrit : (s.zones[z]).eval.crit = false)
    (hc : (s.zones[z]).cover.state = .covered) (hd : (s.zones[z]).arb.dwell = .stopped) (hg : (s.zones[z]).arb.granted ≠ .purge) :
    GrantsPurge (s.purgeRequested z) z false ∧ (s.purgeRequested z).choiceRow z = .purge := by
  have hzone := purgeRequested_zone s z
  have hrow : (s.purgeRequested z).choiceRow z = .purge := by
    refine choiceRow_purge_iff.2 ⟨he, by rw [hzone]; exact hcrit, ?_⟩
    unfold RowHolds
    rw [hzone]
    exact ⟨.inl rfl, hc⟩
  have hmode := chosenMode_purge_iff.2 hrow
  refine ⟨⟨⟨?_, .inl ?_, .inl ?_⟩, hmode, .inl ?_⟩, hrow⟩
  · rw [hmode, hzone]
    exact hg.symm
  · rw [hzone]
    exact hd
  · rw [hzone]
    exact hh
  · rw [hzone]

/-- Otherwise the request waits: the decision tells the purge timer nothing. -/
theorem purgeRequested_waits (h : s.enabled z = false ∨ (s.zones[z]).eval.crit = true ∨ (s.zones[z]).cover.state ≠ .covered) :
    (((s.purgeRequested z).takeDecision z false).zones[z]).purge = { (s.zones[z]).purge with state := .request } := by
  have hzone := purgeRequested_zone s z
  have hgrants : ¬ GrantsPurge (s.purgeRequested z) z false := by
    rintro ⟨_, hmode, _⟩
    obtain ⟨he, hcrit, _, hc⟩ := choiceRow_purge_iff.1 (chosenMode_purge_iff.1 hmode)
    rw [hzone] at hcrit hc
    rcases h with h | h | h
    · exact absurd (h.symm.trans he) (by decide)
    · exact absurd (h.symm.trans hcrit) (by decide)
    · exact h hc
  have hwithdraws : ¬ WithdrawsPurge (s.purgeRequested z) z false := by
    rintro ⟨_, _, hstate⟩
    rw [hzone] at hstate
    cases hstate
  rw [show _ = _ from (takeDecision_apart hgrants hwithdraws).stands .purge (by decide), hzone]

/-! ### The end of the run (R75, R101) -/

/-- The run left and the wait begun anew, before the release is decided. -/
def State.purgeRunOver (s : State) (z : ZoneIx) : State := (s.purgeLeaveRun z).purgeEnterWait z

theorem reaches_purgeRunOver (s : State) (z : ZoneIx) : Reaches z purgeParts 1 0 s (s.purgeRunOver z) :=
  ((reaches_purgeLeaveRun s).trans (reaches_purgeEnterWait _)).mono (by decide) (by decide) (by decide)

theorem exec_purgeRunExpiry (hh : (s.zones[z]).held = false) (hr : (s.zones[z]).purge.state = .run)
    (h0 : (s.zones[z]).purge.remainingRun = 0) :
    exec (.purgeRunExpiry z) s = .next ((s.purgeRunOver z).takeDecision z true) := by
  have hdue : (s.zones[z]).purgeRunDue = true := by
    unfold ZoneRt.purgeRunDue
    rw [hh, hr, h0]
    rfl
  exact congrArg Host.Outcome.next (if_pos hdue)

theorem purgeRunOver_purge (s : State) (z : ZoneIx) : ((s.purgeRunOver z).zones[z]).purge =
    { state := .wait, remainingWait := (s.cfg.zones[z]).cover.waitA * 60 * 1000, remainingRun := 0, runCounted := 0
      runStart := none } := by
  have hcfg := (reaches_purgeLeaveRun (z := z) s).work.zonesCfg
  unfold State.purgeRunOver State.purgeEnterWait State.purgeWaitA
  rw [updPurge_purge, purgeLeaveRun_purge, hcfg]
  rfl

theorem purgeRunOver_arb (s : State) (z : ZoneIx) : ((s.purgeRunOver z).zones[z]).arb = (s.zones[z]).arb :=
  (reaches_purgeRunOver s z).stands .arb (by decide)

theorem purgeRunOver_rests (s : State) (z : ZoneIx) : PurgeRests (s.purgeRunOver z) z := by
  unfold PurgeRests
  rw [purgeRunOver_purge]
  exact .inl rfl

/-- The run stays left through the decision about the grant. -/
theorem purgeRunOver_left (s : State) (z : ZoneIx) : PurgeRunLeft s ((s.purgeRunOver z).takeDecision z true) z :=
  (purgeLeaveRun_left s z).between (Reaches.refl s)
    ((reaches_purgeEnterWait _).trans (takeDecision_rests (purgeRunOver_rests s z) true)) List.not_mem_nil List.not_mem_nil
    List.not_mem_nil (by decide) (by decide) (reaches_purgeLeaveRun s).work

end Expiries

/-- Settles O44: a request that is granted or waits, a run whose grant is released, and covers that leave COVERED. -/
theorem purgeTimerExpiriesAct : Obligations.PurgeTimerExpiriesAct := by
  refine ⟨fun s z next cause index hl hc hd => coverChange_leaves hl hc hd, fun s z hh => ?_⟩
  intro r
  refine ⟨fun hw h0 => ?_, fun hr h0 he hg => ?_⟩
  · refine ⟨_, exec_purgeWaitExpiry hh hw h0, (reaches_purgeRequested s z).work.trans (zoneWork_takeDecision _ z false rfl),
      takeDecision_decided (s.purgeRequested z) z false, fun he hcrit hc hd hg => ?_, purgeRequested_waits⟩
    obtain ⟨hgrants, hrow⟩ := purgeRequested_grants he hh hcrit hc hd hg
    have hgranted := takeDecision_grants hgrants
    have hstart := hgranted.starts (by rw [purgeRequested_zone])
    have harb := takeDecision_arb_changes hgrants.1
    have hcause : causeOf (s.purgeRequested z) z .purge false = .purge := by simp [causeOf]
    rw [chosenMode_purge_iff.2 hrow, hrow, hcause] at harb
    rw [purgeRequested_zone] at hstart
    rw [harb]
    refine ⟨rfl, rfl, hstart.trans ?_, hgranted.fans⟩
    dsimp only
    rw [show (s.zones[z]).purge.remainingWait = 0 from h0]
    rfl
  · have hover := reaches_purgeRunOver s z
    have henabled : (s.purgeRunOver z).enabled z = true := (enabled_of_work hover.work z).trans he
    obtain ⟨_, hne, hcause⟩ := takeDecision_release henabled (by rw [purgeRunOver_arb]; exact hg) (purgeRunOver_rests s z)
    have hafter := takeDecision_rests (purgeRunOver_rests s z) true
    have hpurge := (hafter.stands .purge (by decide)).trans (purgeRunOver_purge s z)
    have hleft := purgeRunOver_left s z
    have hexec := exec_purgeRunExpiry hh hr h0
    generalize (s.purgeRunOver z).takeDecision z true = u at *
    exact ⟨u, hexec, hover.work.trans hafter.work, hne, hcause, hpurge, hleft⟩

end Sys2Proof.Machine
end

section
/-! SUPPORT. The laws of covers and purge through a decision of the arbiter and a change of the covers. -/

namespace Sys2Proof.Machine

section Laws

variable {z : ZoneIx} {s t u : State} {enabled release : Bool} {r r' : ZoneRt} {next : CoverState} {cause : CoverCause}
  {index : Nat}

/-! ### The two halves of the law -/

/-- The part of the law that speaks of the cover sequencer's record alone (R63, R85). -/
structure SequencerLaw (enabled : Bool) (c : CoverRt) : Prop where
  detect : c.detectTimer ≠ .stopped → c.state = .detect
  prep : c.prepTimer ≠ .stopped → c.state = .prepClose ∨ c.state = .prepOpen
  motion : c.motionTimer ≠ .stopped → c.state = .deploying ∨ c.state = .retracting
  settle : c.settleTimer ≠ .stopped → c.state = .settle
  disabled : enabled = false ↔ c.state = .disabled
  reason : c.reason ≠ none ↔ c.state = .fault

/-- The part of the law that ties the purge timer and the grant to the covers (R98 to R102). -/
structure GrantLaw (r : ZoneRt) : Prop where
  purge : r.purge.state ≠ .inactive → r.cover.state = .covered
  grant : r.purge.state = .run → r.arb.granted = .purge
  purging : r.arb.granted = .purge →
    (r.purge.state = .request ∨ r.purge.state = .run ∨ r.purge.state = .suspended) ∧ r.cover.state = .covered

theorem coverLaw_iff : CoverLaw enabled r ↔ SequencerLaw enabled r.cover ∧ GrantLaw r := by
  refine ⟨fun h => ⟨⟨h.detect, h.prep, h.motion, h.settle, h.disabled, h.reason⟩, ⟨h.purge, h.grant, h.purging⟩⟩, ?_⟩
  rintro ⟨⟨hdetect, hprep, hmotion, hsettle, hdisabled, hreason⟩, ⟨hpurge, hgrant, hpurging⟩⟩
  exact ⟨hdetect, hprep, hmotion, hsettle, hdisabled, hpurge, hgrant, hpurging, hreason⟩

/-- Away from COVERED the law leaves the purge timer inactive and PURGE not granted. -/
theorem GrantLaw.away (h : GrantLaw r) (hc : r.cover.state ≠ .covered) : r.purge.state = .inactive ∧ r.arb.granted ≠ .purge :=
  ⟨by_contra fun hp => hc (h.purge hp), fun hg => hc (h.purging hg).2⟩

theorem GrantLaw.of_away (hp : r.purge.state = .inactive) (hg : r.arb.granted ≠ .purge) : GrantLaw r :=
  ⟨fun h => absurd hp h, fun h => (by rw [hp] at h; cases h), fun h => absurd h hg⟩

theorem GrantLaw.of_same (h : GrantLaw r) (hc : r'.cover.state = r.cover.state) (hp : r'.purge.state = r.purge.state)
    (ha : r'.arb.granted = r.arb.granted) : GrantLaw r' := by
  obtain ⟨hpurge, hgrant, hpurging⟩ := h
  rw [← hp, ← hc] at hpurge hpurging
  rw [← hp, ← ha] at hgrant
  exact ⟨hpurge, hgrant, ha ▸ hpurging⟩

/-- Outside DISABLED the law says that the zone is enabled. -/
theorem CoverLaw.enabled_of_state (h : CoverLaw enabled r) (hs : r.cover.state ≠ .disabled) : enabled = true :=
  (Bool.not_eq_false _).mp fun he => hs (h.disabled.1 he)

/-! ### A decision (R68, R71 to R75) -/

/-- What a decision needs of the zone for the grant law to hold after it: a PURGE that is granted either is claimed still or is
released. -/
structure GrantReady (r : ZoneRt) (release : Bool) : Prop where
  covered : r.purge.state ≠ .inactive → r.cover.state = .covered
  run : r.purge.state = .run → r.arb.granted = .purge
  claimed : r.arb.granted = .purge → release = true ∨
    ((r.purge.state = .request ∨ r.purge.state = .run ∨ r.purge.state = .suspended) ∧ r.cover.state = .covered)

theorem GrantReady.of_same (h : GrantReady r release) (hc : r'.cover = r.cover) (hp : r'.purge = r.purge)
    (ha : r'.arb = r.arb) : GrantReady r' release := by
  obtain ⟨hcovered, hrun, hclaimed⟩ := h
  rw [← hc, ← hp] at hcovered
  rw [← hp, ← ha] at hrun
  rw [← hc, ← hp, ← ha] at hclaimed
  exact ⟨hcovered, hrun, hclaimed⟩

theorem GrantLaw.ready (h : GrantLaw r) (release : Bool) : GrantReady r release :=
  ⟨h.purge, h.grant, fun hg => .inr (h.purging hg)⟩

theorem takeDecision_cover (s : State) (z : ZoneIx) (release : Bool) :
    ((s.takeDecision z release).zones[z]).cover = (s.zones[z]).cover :=
  (reaches_takeDecision s release).stands .cover (by decide)

theorem takeDecision_mode (h : Effective s z release) :
    ((s.takeDecision z release).zones[z]).arb.granted = s.chosenMode z := by
  rw [takeDecision_arb_changes h]

theorem takeDecision_stays (h : ¬ Effective s z release) :
    ((s.takeDecision z release).zones[z]).arb.granted = (s.zones[z]).arb.granted := by
  obtain ⟨p, hp⟩ := (effective_or_remains s z release).resolve_left h
  rw [takeDecision_arb_remains hp]

theorem claims_of_chosen (h : s.chosenMode z = .purge) : RowHolds s z .purge :=
  (choiceRow_purge_iff.1 (chosenMode_purge_iff.1 h)).2.2

/-- A granted request or suspension runs under the grant. -/
theorem grantLaw_of_grants (h : GrantsPurge s z release) :
    GrantLaw (s.takeDecision z release).zones[z] := by
  have hgranted := takeDecision_grants h
  have hcover := takeDecision_cover s z release
  have hmode := takeDecision_mode h.1
  obtain ⟨-, hchosen, hstate⟩ := h
  have hrun : ((s.takeDecision z release).zones[z]).purge.state = .run := by
    rcases hstate with hreq | hsus
    · rw [hgranted.starts hreq]
    · rw [hgranted.resumes hsus]
  have hcovered : ((s.takeDecision z release).zones[z]).cover.state = .covered := by
    rw [hcover]
    exact (claims_of_chosen hchosen).2
  exact ⟨fun _ => hcovered, fun _ => hmode.trans hchosen, fun _ => ⟨.inr (.inl hrun), hcovered⟩⟩

/-- A run whose grant is withdrawn runs no more, and the new mode is not PURGE. -/
theorem grantLaw_of_withdraws (h : WithdrawsPurge s z release) (hr : GrantReady s.zones[z] release) :
    GrantLaw (s.takeDecision z release).zones[z] := by
  have hpurge := (takeDecision_withdraws h).purge
  have hcover := takeDecision_cover s z release
  have hmode := takeDecision_mode h.1
  obtain ⟨heff, hgranted, hstate⟩ := h
  have hcovered := hr.covered (by rw [hstate]; decide)
  refine ⟨fun _ => by rw [hcover]; exact hcovered, fun hrun => ?_, fun hg => ?_⟩
  · rw [hpurge] at hrun
    split at hrun <;> cases hrun
  · exact absurd (hmode.symm.trans (hg.trans hgranted.symm)) heff.differs

/-- Any other decision leaves the purge timer, and PURGE granted only where it is claimed. -/
theorem grantLaw_of_apart (hg : ¬ GrantsPurge s z release) (hw : ¬ WithdrawsPurge s z release) (hr : GrantReady s.zones[z] release) :
    GrantLaw (s.takeDecision z release).zones[z] := by
  have hpurge : ((s.takeDecision z release).zones[z]).purge = (s.zones[z]).purge :=
    (takeDecision_apart hg hw).stands .purge (by decide)
  have hcover := takeDecision_cover s z release
  by_cases heff : Effective s z release
  · have hmode := takeDecision_mode heff
    have hidle : (s.zones[z]).purge.state ≠ .run := fun hrun => hw ⟨heff, hr.run hrun, hrun⟩
    refine ⟨by rw [hpurge, hcover]; exact hr.covered, fun hrun => absurd (hpurge ▸ hrun) hidle, fun hgranted => ?_⟩
    have hchosen := hmode.symm.trans hgranted
    rcases (claims_of_chosen hchosen).1 with h | h | h
    · exact absurd ⟨heff, hchosen, .inl h⟩ hg
    · exact absurd h hidle
    · exact absurd ⟨heff, hchosen, .inr h⟩ hg
  · have hstays := takeDecision_stays heff
    refine ⟨by rw [hpurge, hcover]; exact hr.covered, by rw [hpurge, hstays]; exact hr.run, ?_⟩
    rw [hpurge, hcover, hstays]
    intro hgranted
    by_contra hclaims
    have hrelease := (hr.claimed hgranted).resolve_right hclaims
    exact heff ⟨fun h => hclaims (claims_of_chosen (h.trans hgranted)), .inr (.inr (.inl ⟨hgranted, hrelease⟩)),
      .inr (.inr ⟨hgranted, hrelease⟩)⟩

theorem takeDecision_grantLaw (hr : GrantReady s.zones[z] release) : GrantLaw (s.takeDecision z release).zones[z] := by
  by_cases hg : GrantsPurge s z release
  · exact grantLaw_of_grants hg
  · by_cases hw : WithdrawsPurge s z release
    · exact grantLaw_of_withdraws hw hr
    · exact grantLaw_of_apart hg hw hr

/-! ### A change of the covers (R85, R86, R99, R102) -/

/-- A change starts the timer of its state and no other. -/
theorem enter_sequencerLaw (c : CoverCfg) (held : Bool) (formed : List ActIx) (x : CoverRt)
    (he : enabled = false ↔ next = .disabled) (hc : cause.reason ≠ none ↔ next = .fault) :
    SequencerLaw enabled (x.enter c held formed next cause) where
  detect := by cases next <;> simp [CoverRt.enter]
  prep := by cases next <;> simp [CoverRt.enter, CoverState.isPrep]
  motion := by cases next <;> simp [CoverRt.enter, CoverState.isMotion]
  settle := by cases next <;> simp [CoverRt.enter]
  disabled := he
  reason := hc

/-- The state with the drives requested, before the purge timer is told. -/
def State.coverDriven (s : State) (z : ZoneIx) (next : CoverState) (cause : CoverCause) : State :=
  (s.coverRecorded z next cause).coverDriveStep z next

theorem reaches_coverDriven (s : State) (z : ZoneIx) (next : CoverState) (cause : CoverCause) :
    Reaches z [.cover, .scene, .coverWork, .acts .coverDrive] 0 1 s (s.coverDriven z next cause) :=
  (reaches_coverRecorded s z next cause).trans (reaches_coverDriveStep _ z next)

theorem coverDriven_cover (s : State) (z : ZoneIx) (next : CoverState) (cause : CoverCause) :
    ((s.coverDriven z next cause).zones[z]).cover.state = next := by
  have hcover : ((s.coverDriven z next cause).zones[z]).cover = ((s.coverEntered z next cause).zones[z]).cover :=
    ((coverRecorded_of_entered s z next cause).trans (reaches_coverDriveStep _ z next)).stands .cover (by decide)
  rw [hcover, coverEntered_cover]
  rfl

theorem coverPurged_of_driven (s : State) (z : ZoneIx) (next : CoverState) (cause : CoverCause) :
    s.coverPurged z next cause = (s.coverDriven z next cause).coverPurgeStep z (s.zones[z]).cover.state next := rfl

/-- Once the purge timer has been told, the change's own decision releases a PURGE that is granted, or none is granted. -/
theorem coverPurged_ready (hl : GrantLaw s.zones[z]) (hstay : next = .covered → (s.zones[z]).cover.state ≠ .covered) :
    GrantReady (s.coverPurged z next cause).zones[z] ((s.zones[z]).cover.state == .covered) := by
  have hdriven := reaches_coverDriven s z next cause
  have hpurge : ((s.coverDriven z next cause).zones[z]).purge = (s.zones[z]).purge := hdriven.stands .purge (by decide)
  have harb : ((s.coverDriven z next cause).zones[z]).arb = (s.zones[z]).arb := hdriven.stands .arb (by decide)
  have hcover := coverDriven_cover s z next cause
  rw [coverPurged_of_driven]
  generalize s.coverDriven z next cause = driven at hpurge harb hcover
  unfold State.coverPurgeStep
  by_cases hn : next = .covered
  · obtain ⟨-, hg⟩ := hl.away (hstay hn)
    have hwait := reaches_purgeEnterWait (z := z) driven
    have hcover' : ((driven.purgeEnterWait z).zones[z]).cover = (driven.zones[z]).cover := hwait.stands .cover (by decide)
    have harb' : ((driven.purgeEnterWait z).zones[z]).arb = (driven.zones[z]).arb := hwait.stands .arb (by decide)
    have hstate : ((driven.purgeEnterWait z).zones[z]).purge.state = .wait := by
      unfold State.purgeEnterWait
      rw [updPurge_purge]
    rw [if_pos hn]
    refine ⟨fun _ => by rw [hcover', hcover, hn], fun h => ?_, fun h => ?_⟩
    · rw [hstate] at h
      cases h
    · rw [harb', harb] at h
      exact absurd h hg
  · rw [if_neg hn]
    by_cases hleft : (s.zones[z]).cover.state = .covered
    · have hstate : ((driven.purgeInactive z).zones[z]).purge.state = .inactive := by
        rw [purgeInactive_purge]
        rfl
      rw [if_pos hleft, hleft]
      refine ⟨fun h => absurd hstate h, fun h => ?_, fun _ => .inl rfl⟩
      rw [hstate] at h
      cases h
    · obtain ⟨hp, hg⟩ := hl.away hleft
      rw [if_neg hleft]
      rw [← hpurge] at hp
      rw [← harb] at hg
      exact (GrantLaw.of_away hp hg).ready _

theorem coverChange_grantLaw (hd : next ≠ .disabled) (hl : GrantLaw s.zones[z])
    (hstay : next = .covered → (s.zones[z]).cover.state ≠ .covered) :
    GrantLaw (s.coverChange z next cause index).zones[z] := by
  have hready := coverPurged_ready (cause := cause) hl hstay
  have hlast := coverNoticed_of_purged s z next cause index
  rw [coverChange_eq hd]
  exact takeDecision_grantLaw (hready.of_same (hlast.stands .cover (by decide)) (hlast.stands .purge (by decide))
    (hlast.stands .arb (by decide)))

/-- A change to a state other than DISABLED, in an enabled zone, brings the law about. -/
theorem coverChange_law (hd : next ≠ .disabled) (he : enabled = true) (hc : cause.reason ≠ none ↔ next = .fault)
    (hl : GrantLaw s.zones[z]) (hstay : next = .covered → (s.zones[z]).cover.state ≠ .covered) :
    CoverLaw enabled (s.coverChange z next cause index).zones[z] := by
  rw [coverLaw_iff, coverChange_cover hd]
  exact ⟨enter_sequencerLaw _ _ _ _ (by simp [he, hd]) hc, coverChange_grantLaw hd hl hstay⟩

end Laws

end Sys2Proof.Machine
end

section
/-! SUPPORT. Work that keeps the laws of covers and purge: every operation of the zone blocks, the dispatcher, the lines and the
management unit, every command, and the obligation about every step. -/

namespace Sys2Proof.Machine

section KeepingCovers

variable {z : ZoneIx} {s t u : State} {release : Bool} {r r' : ZoneRt} {next : CoverState} {cause : CoverCause} {index : Nat}

/-! ### The relation -/

/-- Every zone whose covers and purge keep their law keeps it. -/
structure KeepsCovers (s t : State) : Prop where
  zone : ∀ z : ZoneIx, CoverLaw (s.enabled z) s.zones[z] → CoverLaw (t.enabled z) t.zones[z]

theorem KeepsCovers.refl (s : State) : KeepsCovers s s := ⟨fun _ h => h⟩

theorem KeepsCovers.trans (h : KeepsCovers s t) (h' : KeepsCovers t u) : KeepsCovers s u :=
  ⟨fun z hz => h'.zone z (h.zone z hz)⟩

theorem KeepsCovers.of_zones (hz : t.zones = s.zones) (he : t.enabled = s.enabled) : KeepsCovers s t :=
  ⟨fun z h => by rw [hz, he]; exact h⟩

theorem KeepsCovers.ite {c : Prop} [Decidable c] (ht : c → KeepsCovers s t) (hu : ¬ c → KeepsCovers s u) :
    KeepsCovers s (if c then t else u) := by
  split
  next h => exact ht h
  next h => exact hu h

theorem KeepsCovers.foldl {α : Type} {f : State → α → State} (h : ∀ s a, KeepsCovers s (f s a)) (l : List α) :
    ∀ s, KeepsCovers s (l.foldl f s) := by
  induction l with
  | nil => exact .refl
  | cons a l ih => exact fun s => (h s a).trans (ih _)

/-- Work that touches the record and the enabling of one zone alone. -/
theorem KeepsCovers.of_others (hz : ∀ w : ZoneIx, w ≠ z → t.zones[w] = s.zones[w]) (he : ∀ w, w ≠ z → t.enabled w = s.enabled w)
    (h : CoverLaw (s.enabled z) s.zones[z] → CoverLaw (t.enabled z) t.zones[z]) : KeepsCovers s t := by
  refine ⟨fun w hw => ?_⟩
  by_cases hwz : w = z
  · subst hwz
    exact h hw
  · rw [hz w hwz, he w hwz]
    exact hw

theorem KeepsCovers.of_work (hw : OneZoneWork z s t)
    (h : CoverLaw (s.enabled z) s.zones[z] → CoverLaw (s.enabled z) t.zones[z]) : KeepsCovers s t :=
  .of_others hw.zone (fun w _ => enabled_of_work hw w) (by rw [enabled_of_work hw z]; exact h)

theorem keepsCovers_updZone {f : ZoneRt → ZoneRt}
    (h : CoverLaw (s.enabled z) s.zones[z] → CoverLaw (s.enabled z) (f s.zones[z])) : KeepsCovers s (s.updZone z f) :=
  .of_others (fun _ hw => State.updZone_other s hw _) (fun _ _ => rfl) (by rw [State.updZone_same]; exact h)

/-- The law speaks of the records of the cover sequencer, the purge timer and the arbiter alone. -/
theorem CoverLaw.of_same {enabled : Bool} (h : CoverLaw enabled r) (hc : r'.cover = r.cover) (hp : r'.purge = r.purge)
    (ha : r'.arb = r.arb) : CoverLaw enabled r' := by
  obtain ⟨hsequencer, hgrant⟩ := coverLaw_iff.1 h
  exact coverLaw_iff.2 ⟨hc ▸ hsequencer, hgrant.of_same (by rw [hc]) (by rw [hp]) (by rw [ha])⟩

theorem Reaches.keepsCovers {parts : List Part} {n k : Nat} (h : Reaches z parts n k s t) (ha : .arb ∉ parts) (hp : .purge ∉ parts)
    (hc : .cover ∉ parts) : KeepsCovers s t :=
  .of_work h.work fun hl => hl.of_same (h.stands .cover hc) (h.stands .purge hp) (h.stands .arb ha)

/-- Work that reaches no zone. -/
theorem ZoneWork.keepsCovers (h : ZoneWork (fun _ => False) s t) : KeepsCovers s t :=
  ⟨fun z hl => by
    rw [h.zone z id]
    unfold State.enabled at hl ⊢
    rw [h.zonesCfg]
    exact hl⟩

theorem keepsCovers_updScene (s : State) (f : SceneRt → SceneRt) : KeepsCovers s (s.updScene z f) := by
  rw [State.updScene_eq]
  exact keepsCovers_updZone fun h => h.of_same rfl rfl rfl

theorem keepsCovers_raise (s : State) (k : NoticeKind) (w : Byte) (d : List Byte) : KeepsCovers s (s.raise k w d) :=
  (zoneWork_raise s k w d : ZoneWork (fun _ => False) _ _).keepsCovers

theorem keepsCovers_jobRequest (s : State) (k : ActKind) (w : ZoneIx) (a : ActIx) (v : Int) :
    KeepsCovers s (s.jobRequest k w a v) :=
  (reaches_jobRequest s k a v).keepsCovers (by simp) (by simp) (by simp)

theorem keepsCovers_requestDrives (s : State) (v : Int) : KeepsCovers s (s.requestDrives z v) :=
  (reaches_requestDrives s v).keepsCovers (by decide) (by decide) (by decide)

theorem requestDrives_zones (s : State) (z : ZoneIx) (v : Int) : (s.requestDrives z v).zones = s.zones := by
  rw [requestDrives_frame]

/-! ### The clock and the arbiter -/

theorem tick_stopped {x : Timer} (h : x.tick ≠ .stopped) : x ≠ .stopped := fun e => h (by rw [e]; rfl)

theorem purgeTick_state (p : PurgeRt) : p.tick.state = p.state := by
  unfold PurgeRt.tick
  split
  · rfl
  · split <;> rfl
  all_goals rfl

/-- Timers count down, and no state changes (R30, R70, R85, R98). -/
theorem CoverLaw.tick {enabled : Bool} (h : CoverLaw enabled r) : CoverLaw enabled r.tick := by
  obtain ⟨hsequencer, hgrant⟩ := coverLaw_iff.1 h
  have hpurge : r.tick.purge.state = r.purge.state := by
    unfold ZoneRt.tick
    dsimp only
    split
    · rfl
    · exact purgeTick_state r.purge
  obtain ⟨hdetect, hprep, hmotion, hsettle, hdisabled, hreason⟩ := hsequencer
  exact coverLaw_iff.2 ⟨⟨fun hx => hdetect (tick_stopped hx), fun hx => hprep (tick_stopped hx),
    fun hx => hmotion (tick_stopped hx), fun hx => hsettle (tick_stopped hx), hdisabled, hreason⟩, hgrant.of_same rfl hpurge rfl⟩

theorem keepsCovers_clockTick (s : State) : KeepsCovers s (clockTick s) := by
  refine ⟨fun z h => ?_⟩
  have hzone : (clockTick s).zones[z] = (s.zones[z]).tick := by simp [clockTick]
  rw [hzone]
  exact h.tick

/-- A decision brings the law about where the grant is ready for it. -/
theorem takeDecision_law {enabled : Bool} (hs : SequencerLaw enabled (s.zones[z]).cover) (hr : GrantReady s.zones[z] release) :
    CoverLaw enabled (s.takeDecision z release).zones[z] := by
  rw [coverLaw_iff, takeDecision_cover]
  exact ⟨hs, takeDecision_grantLaw hr⟩

theorem keepsCovers_takeDecision (s : State) (z : ZoneIx) (release : Bool) : KeepsCovers s (s.takeDecision z release) :=
  .of_work (zoneWork_takeDecision s z release rfl) fun h =>
    takeDecision_law (coverLaw_iff.1 h).1 ((coverLaw_iff.1 h).2.ready release)

/-! ### The cover sequencer (05) -/

theorem keepsCovers_coverChange (hd : next ≠ .disabled) (hs : (s.zones[z]).cover.state ≠ .disabled)
    (hc : cause.reason ≠ none ↔ next = .fault) (hstay : next = .covered → (s.zones[z]).cover.state ≠ .covered) :
    KeepsCovers s (s.coverChange z next cause index) :=
  .of_work (zoneWork_coverChange s z next cause index rfl) fun h =>
    coverChange_law hd (h.enabled_of_state hs) hc (coverLaw_iff.1 h).2 hstay

theorem keepsCovers_enterFault (hs : (s.zones[z]).cover.state ≠ .disabled) (reason : FaultReason) (index : Nat) :
    KeepsCovers s (s.enterFault z reason index) := by
  have hfault (t : State) (ht : (t.zones[z]).cover.state ≠ .disabled) :
      KeepsCovers t (t.coverChange z .fault (.fault reason) index) :=
    keepsCovers_coverChange (by decide) ht (by simp [CoverCause.reason]) nofun
  unfold State.enterFault
  dsimp only
  split
  · exact (keepsCovers_requestDrives s _).trans (hfault _ (by rw [requestDrives_zones]; exact hs))
  · exact hfault s hs

theorem withFormed_state (s : State) (z : ZoneIx) : ((s.withFormed z).zones[z]).cover.state = (s.zones[z]).cover.state := by
  rw [State.withFormed, State.updZone_same]

theorem keepsCovers_withFormed (s : State) (z : ZoneIx) : KeepsCovers s (s.withFormed z) :=
  keepsCovers_updZone fun h => by
    obtain ⟨⟨hdetect, hprep, hmotion, hsettle, hdisabled, hreason⟩, hgrant⟩ := coverLaw_iff.1 h
    exact coverLaw_iff.2 ⟨⟨hdetect, hprep, hmotion, hsettle, hdisabled, hreason⟩, hgrant.of_same rfl rfl rfl⟩

theorem keepsCovers_enterMotion (hs : (s.zones[z]).cover.state ≠ .disabled) (hm : next.isMotion = true)
    (hc : cause.reason = none) : KeepsCovers s (s.enterMotion z next cause) := by
  have hformed := keepsCovers_withFormed s z
  have hs' : ((s.withFormed z).zones[z]).cover.state ≠ .disabled := by rw [withFormed_state]; exact hs
  have hmoves : KeepsCovers (s.withFormed z) ((s.withFormed z).coverChange z next cause noIndex) := by
    refine keepsCovers_coverChange ?_ hs' ?_ ?_ <;> rcases (isMotion_iff _).1 hm with rfl | rfl <;> simp [hc]
  unfold State.enterMotion
  dsimp only
  rw [show s.updCover z (fun c => { c with drives := s.formDrives z }) = s.withFormed z from rfl]
  split
  · exact hformed.trans (keepsCovers_enterFault hs' _ _)
  · exact hformed.trans (.ite (fun _ => keepsCovers_enterFault hs' _ _) fun _ => hmoves)

theorem keepsCovers_judgeEnds (s : State) (z : ZoneIx) : KeepsCovers s (s.judgeEnds z) := by
  have hends (hm : (s.zones[z]).cover.state.isMotion = true) {next : CoverState} (hd : next ≠ .disabled) (hf : next ≠ .fault) :
      KeepsCovers s ((s.requestDrives z driveStop).coverChange z next .endReached noIndex) := by
    have hstate : ((s.requestDrives z driveStop).zones[z]).cover.state = (s.zones[z]).cover.state := by rw [requestDrives_zones]
    refine (keepsCovers_requestDrives s _).trans (keepsCovers_coverChange hd ?_ (by simp [hf, CoverCause.reason]) fun _ => ?_) <;>
      rw [hstate] <;> intro e <;> rw [e] at hm <;> cases hm
  unfold State.judgeEnds
  split
  next h =>
    refine .ite (fun _ => ?_) fun _ => .refl s
    exact .ite (fun _ => hends (by rw [h]; rfl) (by decide) (by decide)) fun _ => hends (by rw [h]; rfl) (by decide) (by decide)
  next h => exact .ite (fun _ => hends (by rw [h]; rfl) (by decide) (by decide)) fun _ => .refl s
  all_goals exact .refl s

theorem keepsCovers_judgePosition (s : State) (z : ZoneIx) : KeepsCovers s (s.judgePosition z) := by
  unfold State.judgePosition
  refine .ite (fun hdetect => ?_) fun _ => .refl s
  have hfound {next : CoverState} (hd : next ≠ .disabled) (hf : next ≠ .fault) :
      KeepsCovers s (s.coverChange z next .positionFound noIndex) :=
    keepsCovers_coverChange hd (by rw [hdetect]; decide) (by simp [hf, CoverCause.reason]) fun _ => by rw [hdetect]; decide
  exact .ite (fun _ => hfound (by decide) (by decide)) fun _ => .ite (fun _ => hfound (by decide) (by decide)) fun _ =>
    .ite (fun _ => hfound (by decide) (by decide)) fun _ => .refl s

theorem keepsCovers_enterDetect (hs : (s.zones[z]).cover.state ≠ .disabled) (hc : cause.reason = none) :
    KeepsCovers s (s.enterDetect z cause) := by
  have hdetect : KeepsCovers s (s.coverChange z .detect cause noIndex) :=
    keepsCovers_coverChange (by decide) hs (by simp [hc]) nofun
  exact hdetect.trans (keepsCovers_judgePosition _ z)

theorem prep_ne_disabled {c : CoverState} (h : c.isPrep = true) : c ≠ .disabled := by rintro rfl; cases h

theorem keepsCovers_coverScene (s : State) (z : ZoneIx) (outcome : SceneState) : KeepsCovers s (s.coverScene z outcome) := by
  have hready : KeepsCovers s (s.updCover z fun c => { c with lightingReady := true }) := by
    rw [State.updCover_eq]
    refine keepsCovers_updZone fun h => ?_
    obtain ⟨⟨hdetect, hprep, hmotion, hsettle, hdisabled, hreason⟩, hgrant⟩ := coverLaw_iff.1 h
    exact coverLaw_iff.2 ⟨⟨hdetect, hprep, hmotion, hsettle, hdisabled, hreason⟩, hgrant.of_same rfl rfl rfl⟩
  unfold State.coverScene
  refine .ite (fun hused => ?_) fun _ => .refl s
  have hs := prep_ne_disabled hused.1
  cases outcome with
  | complete => exact .ite (fun _ => hready) fun _ => keepsCovers_enterMotion hs (motionAfterPrep_isMotion _) rfl
  | completeDegraded => exact keepsCovers_enterFault hs _ _
  | idle => exact .refl s
  | running => exact .refl s
  | settling => exact .refl s

theorem keepsCovers_reportScene {p : State × Option SceneState} (h : KeepsCovers s p.1) :
    KeepsCovers s (State.reportScene z p) := by
  unfold State.reportScene
  split
  · exact h.trans (keepsCovers_coverScene ..)
  · exact h

theorem keepsCovers_enterPrep (hs : (s.zones[z]).cover.state ≠ .disabled) (hp : next.isPrep = true) :
    KeepsCovers s (s.enterPrep z next) := by
  have hchange : KeepsCovers s (s.coverChange z next .command noIndex) := by
    refine keepsCovers_coverChange ?_ hs ?_ ?_ <;> rcases (isPrep_iff _).1 hp with rfl | rfl <;> simp [CoverCause.reason]
  exact hchange.trans (keepsCovers_coverScene ..)

theorem keepsCovers_coverContactIn (s : State) (z : ZoneIx) (p : PointIx) (k : PointKind) (report : ContactReport) :
    KeepsCovers s (s.coverContactIn z p k report) := by
  have hmoved (hs : (s.zones[z]).cover.state ≠ .disabled) (c : Prop) [Decidable c] :
      KeepsCovers s (if c then s.enterFault z .coverMoved p.val else s) :=
    .ite (fun _ => keepsCovers_enterFault hs _ _) fun _ => .refl s
  unfold State.coverContactIn
  split
  next => exact keepsCovers_judgePosition s z
  next h =>
    cases report with
    | unknown => exact keepsCovers_enterFault (by rw [h]; decide) _ _
    | known | changed => exact keepsCovers_judgeEnds s z
  next h =>
    cases report with
    | unknown => exact keepsCovers_enterFault (by rw [h]; decide) _ _
    | known | changed => exact keepsCovers_judgeEnds s z
  next h => exact hmoved (by rw [h]; decide) _
  next h => exact hmoved (by rw [h]; decide) _
  next h => exact hmoved (by rw [h]; decide) _
  next h => exact hmoved (by rw [h]; decide) _
  next h => exact hmoved (by rw [h]; decide) _
  all_goals exact .refl s

theorem keepsCovers_coverContact (s : State) (p : PointIx) (c : PointCfg) (report : ContactReport) :
    KeepsCovers s (s.coverContact p c report) := by
  unfold State.coverContact
  split
  · exact .ite (fun _ => keepsCovers_coverContactIn ..) fun _ => .refl s
  · exact .refl s

theorem keepsCovers_coverDrive (s : State) (z : ZoneIx) (a : ActIx) (outcome : CommandOutcome) :
    KeepsCovers s (s.coverDrive z a outcome) := by
  have hfailed (hs : (s.zones[z]).cover.state ≠ .disabled) (c : Prop) [Decidable c] :
      KeepsCovers s (if c then s.enterFault z .drive a.val else s) :=
    .ite (fun _ => keepsCovers_enterFault hs _ _) fun _ => .refl s
  unfold State.coverDrive
  split
  next h => exact hfailed (by rw [h]; decide) _
  next h => exact hfailed (by rw [h]; decide) _
  next h => exact hfailed (by rw [h]; decide) _
  all_goals exact .refl s

/-! ### Hold and its clearing (R95, R186) -/

theorem pause_stopped {x : Timer} (h : x.pause ≠ .stopped) : x ≠ .stopped := fun e => h (by rw [e]; rfl)

theorem continue_stopped {x : Timer} (h : x.continue ≠ .stopped) : x ≠ .stopped := fun e => h (by rw [e]; rfl)

/-- The prep, motion and settle timers may be replaced by timers that are stopped where they were. -/
theorem CoverLaw.of_timers {enabled : Bool} {prep motion settle : Timer} (h : CoverLaw enabled r)
    (hp : prep ≠ .stopped → r.cover.prepTimer ≠ .stopped) (hm : motion ≠ .stopped → r.cover.motionTimer ≠ .stopped)
    (hs : settle ≠ .stopped → r.cover.settleTimer ≠ .stopped) :
    CoverLaw enabled { r with cover := { r.cover with prepTimer := prep, motionTimer := motion, settleTimer := settle } } := by
  obtain ⟨⟨hdetect, hprep, hmotion, hsettle, hdisabled, hreason⟩, hgrant⟩ := coverLaw_iff.1 h
  exact coverLaw_iff.2 ⟨⟨hdetect, fun hx => hprep (hp hx), fun hx => hmotion (hm hx), fun hx => hsettle (hs hx), hdisabled,
    hreason⟩, hgrant.of_same rfl rfl rfl⟩

theorem keepsCovers_coverHold (s : State) (z : ZoneIx) : KeepsCovers s (s.coverHold z) := by
  have hpause (t : State) : KeepsCovers t (t.updCover z fun c =>
      { c with prepTimer := c.prepTimer.pause, motionTimer := c.motionTimer.pause, settleTimer := c.settleTimer.pause }) := by
    rw [State.updCover_eq]
    exact keepsCovers_updZone fun h => h.of_timers pause_stopped pause_stopped pause_stopped
  unfold State.coverHold
  exact (KeepsCovers.ite (fun _ => keepsCovers_requestDrives s _) fun _ => .refl s).trans (hpause _)

theorem keepsCovers_timersContinue (s : State) (z : ZoneIx) : KeepsCovers s (s.updCover z fun c =>
    { c with
      prepTimer := c.prepTimer.continue, motionTimer := c.motionTimer.continue, settleTimer := c.settleTimer.continue }) := by
  rw [State.updCover_eq]
  exact keepsCovers_updZone fun h => h.of_timers continue_stopped continue_stopped continue_stopped

theorem keepsCovers_coverClearHold (s : State) (z : ZoneIx) : KeepsCovers s (s.coverClearHold z) := by
  have hready (t : State) (hs : (t.zones[z]).cover.state ≠ .disabled) (c : Prop) [Decidable c] : KeepsCovers t
      (if c then t.enterMotion z (t.zones[z]).cover.state.motionAfterPrep .lightingReady else t) :=
    .ite (fun _ => keepsCovers_enterMotion hs (motionAfterPrep_isMotion _) rfl) fun _ => .refl t
  refine (keepsCovers_timersContinue s z).trans ?_
  unfold State.coverClearHold
  generalize s.updCover z _ = t
  dsimp only
  split
  next => exact keepsCovers_requestDrives t _
  next => exact keepsCovers_requestDrives t _
  next h => exact hready t (by rw [h]; decide) _
  next h => exact hready t (by rw [h]; decide) _
  all_goals exact .refl t

end KeepingCovers

end Sys2Proof.Machine
end

section
/-! SUPPORT. The laws of covers and purge through the reports, the dispatcher, the lines and the tables. -/

namespace Sys2Proof.Machine

section KeepingReports

variable {z : ZoneIx} {s t u : State}

/-! ### The scene engine and the dispatcher (06, 07) -/

theorem keepsCovers_startCue (s : State) (z : ZoneIx) (i : Nat) : KeepsCovers s (s.startCue z i) :=
  (reaches_startCue s i).keepsCovers (by decide) (by decide) (by decide)

theorem keepsCovers_startDueCues (s : State) (z : ZoneIx) : KeepsCovers s (s.startDueCues z) :=
  (reaches_startDueCues s).keepsCovers (by decide) (by decide) (by decide)

theorem keepsCovers_judgeIfDone (s : State) (z : ZoneIx) : KeepsCovers s (s.judgeIfDone z).1 :=
  (reaches_judgeIfDone s).keepsCovers (by decide) (by decide) (by decide)

theorem keepsCovers_sceneJudge (s : State) (z : ZoneIx) : KeepsCovers s (s.sceneJudge z).1 :=
  (reaches_sceneJudge s).keepsCovers (by decide) (by decide) (by decide)

theorem keepsCovers_stepChannel (s : State) (z : ZoneIx) (a : ActIx) (f : Fade) : KeepsCovers s (s.stepChannel z a f) := by
  unfold State.stepChannel
  exact (keepsCovers_jobRequest s _ z a _).trans (keepsCovers_updScene _ _)

theorem keepsCovers_stepOwned (s : State) (z : ZoneIx) (i : Nat) (a : ActIx) : KeepsCovers s (s.stepOwned z i a) := by
  unfold State.stepOwned
  split
  · exact .ite (fun _ => keepsCovers_stepChannel ..) fun _ => .refl s
  · exact .refl s

theorem keepsCovers_stepFades (s : State) (z : ZoneIx) : KeepsCovers s (s.stepFades z) := by
  unfold State.stepFades
  refine KeepsCovers.trans (KeepsCovers.foldl (fun s i => ?_) _ s) (keepsCovers_updScene _ _)
  split
  · exact .foldl (fun s a => keepsCovers_stepOwned s z i a) _ s
  · exact .refl s

theorem keepsCovers_sceneOutcome (s : State) (z : ZoneIx) (a : ActIx) (o : CommandOutcome) :
    KeepsCovers s (s.sceneOutcome z a o).1 := by
  unfold State.sceneOutcome
  dsimp only
  split
  · split
    · dsimp only
      exact keepsCovers_updScene s _
    · exact (keepsCovers_updScene s _).trans (keepsCovers_sceneJudge _ z)
    all_goals exact .refl s
  · exact .refl s

theorem keepsCovers_sceneControl (s : State) (z : ZoneIx) (a : ActIx) : KeepsCovers s (s.sceneControl z a).1 := by
  unfold State.sceneControl
  dsimp only
  split
  · exact keepsCovers_sceneJudge s z
  · exact .refl s

theorem keepsCovers_join (s : State) (a : ActIx) : KeepsCovers s (s.join a) :=
  .of_zones (by rw [join_frame]) (by rw [join_frame]; rfl)

theorem keepsCovers_unqueue (s : State) (a : ActIx) : KeepsCovers s (s.unqueue a) :=
  .of_zones (by rw [unqueue_frame]) (by rw [unqueue_frame]; rfl)

theorem keepsCovers_updAct (s : State) (a : ActIx) (f : ActRt → ActRt) : KeepsCovers s (s.updAct a f) := .of_zones rfl rfl

theorem keepsCovers_updDisp (s : State) (f : Dispatcher → Dispatcher) : KeepsCovers s (s.updDisp f) := .of_zones rfl rfl

theorem keepsCovers_raiseActuator (s : State) (k : NoticeKind) (a : ActIx) (v : Int) : KeepsCovers s (s.raiseActuator k a v) :=
  keepsCovers_raise ..

theorem keepsCovers_commandTimeout (s : State) (a : ActIx) (v : Int) : KeepsCovers s (s.commandTimeout a v) := by
  have hoffer (t : State) (w : ZoneIx) : KeepsCovers t (t.offer w accTimeouts 1) :=
    (reaches_offer t accTimeouts 1).keepsCovers (by decide) (by decide) (by decide)
  have hcounted (w : ZoneIx) (f g : ActRt → ActRt) : KeepsCovers s (((s.updAct a f).offer w accTimeouts 1).updAct a g) :=
    (keepsCovers_updAct s a f).trans ((hoffer _ w).trans (keepsCovers_updAct _ a g))
  unfold State.commandTimeout
  dsimp only
  split
  · split
    · exact (hcounted ..).trans (keepsCovers_updAct ..)
    · exact (hcounted ..).trans ((keepsCovers_updAct ..).trans (keepsCovers_raiseActuator ..))
  · exact hcounted ..

/-- What an outcome does to the actuator, with its notices and account, reaches no covers. -/
theorem keepsCovers_applyOutcome (s : State) (a : ActIx) (v : Int) (o : CommandOutcome) : KeepsCovers s (s.applyOutcome a v o) := by
  cases o with
  | applied =>
    exact (keepsCovers_updAct s a _).trans (.ite (fun _ => keepsCovers_raiseActuator ..) fun _ => .refl _)
  | refusedHand =>
    exact (keepsCovers_updAct s a _).trans (.ite (fun _ => .refl _) fun _ => keepsCovers_raiseActuator ..)
  | refusedRange =>
    exact (keepsCovers_updAct s a _).trans ((keepsCovers_raiseActuator ..).trans
      (.ite (fun _ => keepsCovers_raiseActuator ..) fun _ => .refl _))
  | timeout => exact keepsCovers_commandTimeout s a v

theorem keepsCovers_reportOutcome (s : State) (a : ActIx) (o : CommandOutcome) : KeepsCovers s (s.reportOutcome a o) := by
  unfold State.reportOutcome
  dsimp only
  split
  · exact keepsCovers_reportScene (keepsCovers_sceneOutcome ..)
  · exact keepsCovers_coverDrive ..
  all_goals exact .refl s

theorem keepsCovers_reportControl (s : State) (a : ActIx) (b : Bool) : KeepsCovers s (s.reportControl a b) :=
  .ite (fun _ => keepsCovers_reportScene (keepsCovers_sceneControl ..)) fun _ => .refl s

theorem keepsCovers_endCommand (s : State) (o : Outstanding) (r : CommandOutcome) : KeepsCovers s (s.endCommand o r) := by
  have hfree (t : State) : KeepsCovers t (t.freeCommand o.act o.tag) :=
    (keepsCovers_updDisp t _).trans ((keepsCovers_updAct _ o.act _).trans (keepsCovers_join ..))
  exact (keepsCovers_applyOutcome s o.act o.value r).trans ((hfree _).trans
    ((keepsCovers_reportOutcome ..).trans (keepsCovers_reportControl ..)))

theorem keepsCovers_overrideEnds (s : State) (a : ActIx) : KeepsCovers s (s.overrideEnds a) :=
  (keepsCovers_updAct s a _).trans ((keepsCovers_join ..).trans (keepsCovers_reportControl ..))

theorem keepsCovers_refreshExpire (s : State) (a : ActIx) : KeepsCovers s (s.refreshExpire a) :=
  (keepsCovers_updAct s a _).trans (.ite (fun _ => (keepsCovers_updAct _ a _).trans (keepsCovers_join ..)) fun _ => .refl _)

theorem keepsCovers_retryExpire (s : State) (a : ActIx) : KeepsCovers s (s.retryExpire a) :=
  (keepsCovers_updAct s a _).trans (keepsCovers_join ..)

theorem keepsCovers_dispatchWith (s : State) (a : ActIx) (t : Tag) (v : Int) : KeepsCovers s (s.dispatchWith a t v) := by
  unfold State.dispatchWith
  exact (keepsCovers_unqueue s a).trans ((keepsCovers_updDisp ..).trans (keepsCovers_updAct ..))

theorem keepsCovers_overrideEffect (s : State) (a : ActIx) : KeepsCovers s (s.overrideEffect a).1 := by
  unfold State.overrideEffect
  dsimp only
  split
  · exact (keepsCovers_unqueue s a).trans (.of_zones rfl rfl)
  · exact .of_zones rfl rfl
  all_goals exact .refl s

theorem keepsCovers_disableActuator (s : State) (a : ActIx) : KeepsCovers s (s.disableActuator a).1 := by
  unfold State.disableActuator
  dsimp only
  split
  · exact (keepsCovers_unqueue s a).trans (.of_zones rfl rfl)
  · exact (keepsCovers_unqueue s a).trans (.of_zones rfl rfl)
  all_goals exact .refl s

theorem keepsCovers_enableActuator (s : State) (a : ActIx) : KeepsCovers s (s.enableActuator a).1 := by
  unfold State.enableActuator
  split
  · exact .refl s
  · exact (keepsCovers_updAct s a _).trans (keepsCovers_join ..)
  · exact .of_zones rfl rfl
  · exact (keepsCovers_updAct s a _).trans (keepsCovers_join ..)

/-! ### Hold and watches (R185, R186) -/

theorem keepsCovers_heldZone (s : State) (z : ZoneIx) (held : Bool) (w : Option WatchIx) :
    KeepsCovers s (s.updZone z fun r => { r with held := held, holdCause := w }) :=
  keepsCovers_updZone fun h => h.of_same rfl rfl rfl

theorem keepsCovers_holdZone (s : State) (z : ZoneIx) (w : WatchIx) : KeepsCovers s (s.holdZone z w) := by
  unfold State.holdZone
  refine .ite (fun _ => keepsCovers_updZone fun h => h.of_same rfl rfl rfl) fun _ => ?_
  exact (keepsCovers_heldZone s z true _).trans ((keepsCovers_coverHold _ z).trans (keepsCovers_updScene _ _))

theorem keepsCovers_clearHold (s : State) (z : ZoneIx) : KeepsCovers s (s.clearHold z) := by
  have hjoin (t : State) : KeepsCovers t (t.dispatcherClearHold z) := .foldl keepsCovers_join _ t
  have hscene (t : State) : KeepsCovers t (t.sceneClearHold z).1 := by
    unfold State.sceneClearHold
    exact (keepsCovers_updScene t _).trans ((keepsCovers_startDueCues _ z).trans (keepsCovers_judgeIfDone _ z))
  have hheld : KeepsCovers s (s.updZone z fun r => { r with held := false }) := keepsCovers_updZone fun h => h.of_same rfl rfl rfl
  unfold State.clearHold
  dsimp only
  split
  · refine hheld.trans ((hjoin _).trans ((keepsCovers_coverClearHold _ z).trans ?_))
    exact keepsCovers_reportScene (hscene _)
  · exact .refl s

theorem keepsCovers_capture (s : State) (z : ZoneIx) (r : CaptureReason) : KeepsCovers s (s.capture z r) :=
  (zoneWork_capture s z r : ZoneWork (fun _ => False) _ _).keepsCovers

theorem keepsCovers_watchAct (s : State) (w : WatchIx) (a : WatchAction) (y : PointZone) : KeepsCovers s (s.watchAct w a y) := by
  unfold State.watchAct
  split
  · exact .refl s
  · exact .foldl (fun s z => keepsCovers_capture s z _) _ s
  · exact .foldl (fun s z => keepsCovers_holdZone s z w) _ s

theorem keepsCovers_offerWatch (e : WatchEvent) (s : State) (w : WatchIx) : KeepsCovers s (s.offerWatch e w) := by
  have hdisarm (f : Vector Watch 4) : KeepsCovers s (s.updCfg fun c => { c with watches := f }) := .of_zones rfl rfl
  exact .ite (fun _ => (hdisarm _).trans ((keepsCovers_watchAct ..).trans (keepsCovers_raise ..))) fun _ => .refl s

theorem keepsCovers_offerWatches (s : State) (e : WatchEvent) : KeepsCovers s (s.offerWatches e) :=
  .foldl (keepsCovers_offerWatch e) _ s

theorem keepsCovers_arbitrate (s : State) : KeepsCovers s s.arbitrate := by
  unfold State.arbitrate
  split
  · split
    · exact (keepsCovers_updDisp s _).trans ((keepsCovers_dispatchWith ..).trans (keepsCovers_offerWatches ..))
    · exact .refl s
  · exact .refl s

/-! ### The evaluation (R31) -/

/-- An evaluation's decision is taken on the zone's laws; its other steps leave covers, purge and arbiter. -/
theorem keepsCovers_evaluate (s : State) (z : ZoneIx) : KeepsCovers s (s.evaluate z) := by
  have hformed : KeepsCovers s (s.updZone z fun _ => s.evaluated z) := keepsCovers_updZone fun h => h.of_same rfl rfl rfl
  have hcondensation (t : State) : KeepsCovers t (t.raiseCondensation z) := keepsCovers_raise ..
  have hstage (t : State) : KeepsCovers t (t.stage9 z) := (reaches_stage9 t).keepsCovers (by decide) (by decide) (by decide)
  have hsums (t : State) (n : Nat) : KeepsCovers t (t.offerSums z n) :=
    (reaches_offerSums t n).keepsCovers (by decide) (by decide) (by decide)
  have harmed (t : State) : KeepsCovers t (t.armedCapture z) := by
    unfold State.armedCapture
    split
    · exact (keepsCovers_capture ..).trans (keepsCovers_updZone fun h => h.of_same rfl rfl rfl)
    · exact .refl t
  have hclosing (t : State) (n : Nat) : KeepsCovers t ((((t.stage9 z).takeDecision z false).offerSums z n).armedCapture z) :=
    (hstage _).trans ((keepsCovers_takeDecision ..).trans ((hsums _ _).trans (harmed _)))
  unfold State.evaluate
  dsimp only
  refine hformed.trans ?_
  generalize s.updZone z _ = t
  exact (KeepsCovers.ite (fun _ => hcondensation t) fun _ => .refl t).trans (hclosing _ _)

/-! ### Points (01) -/

theorem keepsCovers_changePoint (s : State) (p : PointIx) (c : PointCfg) (f : PointRt → PointRt) :
    KeepsCovers s (s.changePoint p c f) := by
  have htold (report : Option ContactReport) (t : State) : KeepsCovers t (t.told p c report) := by
    unfold State.told
    split
    · exact .ite (fun _ => keepsCovers_coverContact ..) fun _ => .refl t
    · exact .refl t
  have hpoint : KeepsCovers s (s.updPoint p f) := .of_zones rfl rfl
  rw [changePoint_eq]
  exact hpoint.trans (htold _ _)

theorem keepsCovers_takeItem (line : Line) (node : Nat) (s : State) (item : ReadingItem) :
    KeepsCovers s (State.takeItem line node s item) := by
  unfold State.takeItem
  split
  · exact .ite (fun _ => (keepsCovers_changePoint ..).trans (keepsCovers_offerWatches ..)) fun _ => keepsCovers_changePoint ..
  · exact .refl s

theorem keepsCovers_inspectReading (s : State) (line : Line) (t : Telegram) : KeepsCovers s (s.inspectReading line t) :=
  .ite (fun _ => .foldl (keepsCovers_takeItem line t.src.toNat) _ s) fun _ => .refl s

theorem keepsCovers_pointStale (s : State) (p : PointIx) : KeepsCovers s (s.pointStale p) :=
  (keepsCovers_changePoint ..).trans (.ite (fun _ => keepsCovers_raise ..) fun _ => .refl _)

/-! ### The lines (08) -/

theorem keepsCovers_updQueue (s : State) (d : Direction) (f : ForwardQueue → ForwardQueue) : KeepsCovers s (s.updQueue d f) :=
  .of_zones (updQueue_zones s d f) (by cases d <;> rfl)

theorem keepsCovers_setTx (s : State) (line : Line) (x : Transmitter) : KeepsCovers s (s.setTx line x) :=
  .of_zones (setTx_zones s line x) (by cases line <;> rfl)

theorem keepsCovers_offerFilter (s : State) (d : Direction) (t : Telegram) : KeepsCovers s (s.offerFilter d t) :=
  .ite (fun _ => keepsCovers_updQueue ..) fun _ => .refl s

theorem keepsCovers_judgeForeign (s : State) (t : Telegram) : KeepsCovers s (s.judgeForeign t) := by
  have hoffer := keepsCovers_offerFilter s .th t
  unfold State.judgeForeign
  split
  · exact hoffer
  · refine .ite (fun _ => .ite (fun _ => .of_zones rfl rfl) fun _ => hoffer) fun _ => ?_
    split
    · exact hoffer
    next a _ =>
      refine .ite (fun _ => hoffer) fun _ => .ite (fun _ => ?_) fun _ => .of_zones rfl rfl
      unfold State.forwardOverride
      exact .ite (fun _ => hoffer.trans ((keepsCovers_overrideEffect _ a).trans (keepsCovers_reportControl ..))) fun _ => hoffer

theorem keepsCovers_acknowledge (s : State) (t : Telegram) : KeepsCovers s (s.acknowledge t) := by
  unfold State.acknowledge
  split
  · exact .refl s
  · split
    · exact keepsCovers_endCommand ..
    · exact .refl s

theorem keepsCovers_requestArrives (s : State) (c : Channel) (t : Telegram) : KeepsCovers s (s.requestArrives c t) := by
  refine .of_zones (requestArrives_zones s c t) ?_
  unfold State.requestArrives
  split
  · rfl
  · split
    · cases c <;> rfl
    · rfl

theorem keepsCovers_hand (s : State) (line : Line) (t : Telegram) : KeepsCovers s (s.hand line t) := by
  have hread := keepsCovers_inspectReading s line t
  unfold State.hand State.handOwn State.handTransit
  refine .ite (fun _ => .ite (fun _ => hread) fun _ => ?_) fun _ => ?_
  · cases line with
    | hall => exact .ite (fun _ => keepsCovers_acknowledge s t) fun _ => .refl s
    | trunk => exact .ite (fun _ => keepsCovers_requestArrives ..) fun _ => .refl s
  · have hin : KeepsCovers s (if t.kind = kindReading then s.inspectReading line t else s) := .ite (fun _ => hread) fun _ => .refl s
    cases line with
    | hall => exact hin.trans (keepsCovers_offerFilter ..)
    | trunk => exact hin.trans (.ite (fun _ => keepsCovers_judgeForeign ..) fun _ => keepsCovers_offerFilter ..)

theorem keepsCovers_receive (s : State) (line : Line) (heard : List RxByte) : KeepsCovers s (s.receive line heard) := by
  unfold State.receive
  refine .ite (fun _ => .refl s) fun _ => ?_
  split
  · cases line <;> exact .of_zones rfl rfl
  · refine KeepsCovers.trans ?_ (keepsCovers_hand ..)
    cases line <;> exact .of_zones rfl rfl

theorem keepsCovers_receiveService (s : State) (heard : List RxByte) : KeepsCovers s (s.receiveService heard) := by
  unfold State.receiveService
  split
  · exact .of_zones rfl rfl
  · split
    · exact .of_zones rfl rfl
    · split
      · refine KeepsCovers.trans ?_ (keepsCovers_requestArrives ..)
        unfold State.restartIdle
        exact .ite (fun _ => .of_zones rfl rfl) fun _ => .refl s
      · exact .refl s

theorem keepsCovers_hallChoose (s : State) : KeepsCovers s s.hallChoose := by
  unfold State.hallChoose
  split <;> exact .of_zones rfl rfl

theorem keepsCovers_trunkChoose (s : State) : KeepsCovers s s.trunkChoose := by
  unfold State.trunkChoose
  split <;> exact .of_zones rfl rfl

theorem keepsCovers_telegramFate (s : State) (line : Line) (source : TxSource) (sent : Bool) :
    KeepsCovers s (s.telegramFate line source sent) := by
  unfold State.telegramFate
  cases source with
  | command tag =>
    dsimp only [State.commandTransmitted]
    split
    · exact .refl s
    · exact .ite (fun _ => .of_zones rfl rfl) fun _ => keepsCovers_endCommand ..
  | forward => exact keepsCovers_updQueue ..
  | reply => cases sent <;> exact .of_zones rfl rfl
  | notice => cases sent <;> exact .of_zones rfl rfl
  | announce => cases sent <;> exact .of_zones rfl rfl

theorem keepsCovers_endTransmission (s : State) (line : Line) (source : TxSource) (sent : Bool) :
    KeepsCovers s (s.endTransmission line source sent) := by
  have hfate := (keepsCovers_setTx s line .free).trans (keepsCovers_telegramFate _ line source sent)
  unfold State.endTransmission
  cases line with
  | hall => exact hfate
  | trunk => exact hfate.trans (.of_zones rfl rfl)

theorem keepsCovers_attemptEnd (s : State) (line : Line) (readBack : List RxByte) :
    KeepsCovers s (s.attemptEnd line readBack) := by
  unfold State.attemptEnd
  split
  · split
    · exact .refl s
    · exact keepsCovers_endTransmission ..
    · exact .ite (fun _ => keepsCovers_setTx ..) fun _ => keepsCovers_endTransmission ..
  all_goals exact .refl s

theorem keepsCovers_retryAttempt (s : State) (line : Line) (quietByteTimes : Nat) :
    KeepsCovers s (s.retryAttempt line quietByteTimes) := by
  unfold State.retryAttempt
  split
  · exact .ite (fun _ => keepsCovers_setTx ..) fun _ => .refl s
  all_goals exact .refl s

end KeepingReports

end Sys2Proof.Machine
end

section
/-! SUPPORT. The laws of covers and purge through the start, the zone commands, the other requests and every command, and the
obligation about every step. -/

namespace Sys2Proof.Machine

section KeepingCommands

variable {z w : ZoneIx} {s t u : State}

/-! ### The start (R85, R98, R189) -/

theorem coverLaw_reset (c : ZoneCfg) : CoverLaw c.eval.enabled (.reset c) := by
  rw [coverLaw_iff]
  refine ⟨?_, .of_away rfl (by simp [ZoneRt.reset, ArbRt.reset])⟩
  unfold ZoneRt.reset CoverRt.reset
  cases c.eval.enabled <;> constructor <;> simp

theorem keepsCovers_startZone (s : State) (z : ZoneIx) : KeepsCovers s (s.startZone z) :=
  .ite (fun _ => (keepsCovers_withFormed s z).trans (keepsCovers_judgePosition _ z)) fun _ => .refl s

/-- Whatever stood before it, a start brings the law about. -/
theorem keepsCovers_boot (s : State) (image : Image) (trunkActive : Bool) : KeepsCovers s (s.boot image trunkActive) := by
  refine ⟨fun z _ => (KeepsCovers.foldl keepsCovers_startZone (indices 4) (s.loaded image trunkActive)).zone z ?_⟩
  have hreset : (s.loaded image trunkActive).zones[z] = ZoneRt.reset image.config.zones[z] := by simp [State.loaded]
  rw [hreset]
  exact coverLaw_reset _

/-! ### Requests (09) -/

/-- A taken request keeps what its own rule keeps (R163 to R165). -/
theorem keepsCovers_serve {own : Request → State → Answer} (h : ∀ r s, KeepsCovers s (own r s).state) (s : State)
    (row : Instr) : KeepsCovers s (s.serve row own) := by
  unfold State.serve
  split
  next r _ =>
    refine .ite (fun _ => ?_) fun _ => .refl s
    have hpop : KeepsCovers s (s.popRequest r.channel) := by
      rw [popRequest_eq_taken]
      cases r.channel <;> exact .of_zones rfl rfl
    have hreply (a : Answer) : KeepsCovers a.state (a.reply r) := by
      unfold Answer.reply
      cases a.mode <;> exact .of_zones rfl rfl
    have hrefused (t : State) (status : Status) : KeepsCovers t (t.commonRefusal r status).state := by
      unfold State.commonRefusal
      split
      · cases r.channel <;> exact .of_zones rfl rfl
      · split <;> exact .of_zones rfl rfl
      all_goals exact .of_zones rfl rfl
    unfold State.take
    refine hpop.trans (KeepsCovers.trans ?_ (hreply _))
    split
    · exact hrefused ..
    · exact h ..
  · exact .refl s

theorem keepsCovers_answerSegment (s : State) (bytes : List Byte) (segment : Nat) :
    KeepsCovers s (s.answerSegment bytes segment).state := by
  unfold State.answerSegment
  split <;> exact .refl s

theorem keepsCovers_setStaging (s : State) (c : Channel) (g : Option Staging) : KeepsCovers s (s.setStaging c g) := by
  cases c <;> exact .of_zones rfl rfl

/-! ### Writes (R167) -/

theorem keepsCovers_storePoint (s : State) (p : PointIx) (c : PointCfg) : KeepsCovers s (s.storePoint p c) := by
  have hstored : KeepsCovers s (s.updCfg fun k => { k with points := k.points.set p c }) := .of_zones rfl rfl
  unfold State.storePoint
  exact hstored.trans (keepsCovers_changePoint ..)

theorem keepsCovers_writePoint (s : State) (c : Channel) (i : Nat) (r : RawPoint) : KeepsCovers s (s.writePoint c i r).1 := by
  unfold State.writePoint
  repeat' split
  case h_1.isTrue => exact keepsCovers_storePoint ..
  all_goals exact .of_zones rfl rfl

theorem keepsCovers_writeActuator (s : State) (c : Channel) (i : Nat) (r : RawActuator) :
    KeepsCovers s (s.writeActuator c i r).1 := by
  refine .of_zones (writeActuator_zones ..) ?_
  unfold State.writeActuator
  repeat' split
  all_goals rfl

theorem keepsCovers_writeGroup (s : State) (i : Nat) (r : List Nat) : KeepsCovers s (s.writeGroup i r).1 := by
  refine .of_zones (writeGroup_zones ..) ?_
  unfold State.writeGroup
  repeat' split
  all_goals rfl

theorem keepsCovers_writeHeader (s : State) (c : Channel) (i : Nat) (r : RawHeader) : KeepsCovers s (s.writeHeader c i r).1 := by
  refine .of_zones (writeHeader_zones ..) ?_
  unfold State.writeHeader
  repeat' split
  all_goals rfl

theorem keepsCovers_writeCue (s : State) (c : Channel) (i : Nat) (r : RawCue) : KeepsCovers s (s.writeCue c i r).1 := by
  refine .of_zones (writeCue_zones ..) ?_
  unfold State.writeCue
  repeat' split
  all_goals rfl

theorem entry_enabled {r : RawZone} {b : Bool} {e : ZoneCfg} (h : r.entry b = some e) : e.eval.enabled = b := by
  unfold RawZone.entry at h
  split at h
  · split at h
    · obtain rfl := Option.some.inj h
      rfl
    · cases h
  · cases h

/-- A write of a zone entry leaves its enabled field (R27). -/
theorem keepsCovers_writeZone (s : State) (c : Channel) (i : Nat) (r : RawZone) : KeepsCovers s (s.writeZone c i r).1 := by
  refine .of_zones (writeZone_zones ..) (funext fun w => ?_)
  unfold State.writeZone
  split
  · rfl
  next z _ =>
    split
    · rfl
    · split
      next e he =>
        show ((s.cfg.zones.set z e)[w]).eval.enabled = (s.cfg.zones[w]).eval.enabled
        by_cases hw : w = z
        · subst hw
          simp [entry_enabled he, State.enabled]
        · have hne : (z : Nat) ≠ w := fun h => hw (Fin.ext h.symm)
          simp [hne]
      · rfl

theorem keepsCovers_writeSaturation (s : State) (i : Nat) (r : List Nat) : KeepsCovers s (s.writeSaturation i r).1 := by
  refine .of_zones (writeSaturation_zones ..) ?_
  unfold State.writeSaturation
  repeat' split
  all_goals rfl

theorem keepsCovers_writeFilter (s : State) (i : Nat) (r : RawFilter) : KeepsCovers s (s.writeFilter i r).1 := by
  refine .of_zones (writeFilter_zones ..) ?_
  unfold State.writeFilter
  repeat' split
  all_goals rfl

theorem keepsCovers_writePart (s : State) (i : Nat) (r : RawPart) : KeepsCovers s (s.writePart i r).1 := by
  refine .of_zones (writePart_zones ..) ?_
  unfold State.writePart
  repeat' split
  case h_1.isTrue =>
    unfold State.storePart
    dsimp only
    split <;> split <;> rfl
  all_goals rfl

theorem keepsCovers_decodeThen {α : Type} {write : α → Verdict} (s : State) (r : Reader α) (bytes : List Byte)
    (h : ∀ x, KeepsCovers s (write x).1) : KeepsCovers s (s.decodeThen r bytes write).1 := by
  unfold State.decodeThen
  split
  · exact h _
  · exact .refl s

theorem keepsCovers_writeEntry (s : State) (c : Channel) (table : TableId) (index : Nat) (bytes : List Byte) :
    KeepsCovers s (s.writeEntry c table index bytes).1 := by
  unfold State.writeEntry
  cases table <;> refine keepsCovers_decodeThen s _ bytes fun x => ?_
  case point => exact keepsCovers_writePoint ..
  case actuator => exact keepsCovers_writeActuator ..
  case group => exact keepsCovers_writeGroup ..
  case sceneHeader => exact keepsCovers_writeHeader ..
  case cue => exact keepsCovers_writeCue ..
  case zone => exact keepsCovers_writeZone ..
  case saturation => exact keepsCovers_writeSaturation ..
  case filter => exact keepsCovers_writeFilter ..
  case part => exact keepsCovers_writePart ..

theorem keepsCovers_writeSegment (r : Request) (s : State) : KeepsCovers s (writeSegment r s).state := by
  have hemptied := keepsCovers_setStaging s r.channel none
  unfold writeSegment
  dsimp only
  split
  · exact hemptied
  · split
    · exact hemptied
    · split
      · exact keepsCovers_setStaging ..
      · split
        · exact hemptied.trans (keepsCovers_writeEntry ..)
        · exact hemptied

/-! ### ENABLE (R85, R169) -/

theorem setEnabled_same (s : State) (z : ZoneIx) (b : Bool) : (s.setEnabled z b).enabled z = b := by
  unfold State.enabled
  rw [setEnabled_zoneCfg]

theorem setEnabled_other (h : w ≠ z) (s : State) (b : Bool) : (s.setEnabled z b).enabled w = s.enabled w := by
  have hne : (z : Nat) ≠ w := fun e => h (Fin.ext e.symm)
  unfold State.enabled State.setEnabled State.updCfg
  simp [hne]

/-- The zone that has been enabled with the arbiter reset: no purge is at work and no mode granted. -/
theorem enabledReset_grantLaw (h : GrantLaw s.zones[z]) (hd : (s.zones[z]).cover.state = .disabled) :
    GrantLaw ((s.enabledBase z).updArb z fun _ => .reset).zones[z] := by
  have hreset := reaches_updArb (z := z) (s.enabledBase z) (fun _ => .reset)
  refine .of_away ?_ ?_
  · rw [show _ = _ from hreset.stands .purge (by decide), enabledBase_zone]
    exact (h.away (by rw [hd]; decide)).1
  · rw [updArb_arb]
    decide

theorem enabledDetecting_law (h : CoverLaw (s.enabled z) s.zones[z]) (hd : s.enabled z = false) :
    CoverLaw true (s.enabledDetecting z).zones[z] :=
  coverChange_law (by decide) rfl (by simp [CoverCause.reason])
    (takeDecision_grantLaw ((enabledReset_grantLaw (coverLaw_iff.1 h).2 (h.disabled.1 hd)).ready _)) nofun

theorem keepsCovers_enableZone (hd : s.enabled z = false) : KeepsCovers s (s.enableZone z) := by
  have hwork := zoneWork_enabledDetecting s z
  have hon : (s.enabledDetecting z).enabled z = true :=
    (enabled_of_work hwork z).trans (setEnabled_same s z true)
  have hdetecting : KeepsCovers s (s.enabledDetecting z) := by
    refine .of_others (z := z) (fun w hw => (hwork.zone w hw).trans (State.updZone_other _ hw _))
      (fun w hw => (enabled_of_work hwork w).trans (setEnabled_other hw s true)) fun h => ?_
    rw [hon]
    exact enabledDetecting_law h hd
  rw [enableZone_eq]
  exact hdetecting.trans (keepsCovers_judgePosition _ z)

/-! ### DISABLE (R81, R96, R102) -/

/-- Without a purge at work the disabling leaves the purge timer. -/
theorem disabled_purge_apart (hg : (s.zones[z]).arb.granted ≠ .purge) (hc : (s.zones[z]).cover.state ≠ .covered) :
    ((s.disableZone z).zones[z]).purge = (s.zones[z]).purge := by
  have hdecided : Reaches z [.arb] 0 1 (s.disabledBase z) (s.disabledDecided z) :=
    arbiterDisable_apart (disabledBase_enabled s z) (by rw [disabledBase_zone]; exact hg)
  have hstopped := reaches_drivesStopped (s.disabledDecided z) z
  have hcovers := coverChange_disabled_apart (s := (s.disabledDecided z).drivesStopped z) (z := z)
    (by rw [drivesStopped_cover, disabledDecided_cover]; exact hc) .zoneDisabled noIndex
  have hall := ((hdecided.trans hstopped).trans hcovers).trans (reaches_sceneDisable (z := z) _)
  have hbase : ((s.disabledBase z).zones[z]).purge = (s.zones[z]).purge := by rw [disabledBase_zone]
  rw [disableZone_zones]
  exact (show _ = _ from hall.stands .purge (by decide)).trans hbase

theorem disabled_law (h : GrantLaw s.zones[z]) : CoverLaw false (s.disableZone z).zones[z] := by
  obtain ⟨hgranted, -⟩ := disabled_arb s z
  have hinactive : ((s.disableZone z).zones[z]).purge.state = .inactive := by
    by_cases hc : (s.zones[z]).cover.state = .covered
    · rw [(disabled_purge hc).1]
      rfl
    · obtain ⟨hp, hg⟩ := h.away hc
      rw [disabled_purge_apart hg hc]
      exact hp
  rw [coverLaw_iff, disabled_cover]
  exact ⟨by constructor <;> simp, .of_away hinactive (by rw [hgranted]; decide)⟩

theorem keepsCovers_disableZone (s : State) (z : ZoneIx) : KeepsCovers s (s.disableZone z) := by
  have hwork := disabled_work s z
  have hoff : (s.disableZone z).enabled z = false := (enabled_of_work hwork z).trans (setEnabled_same s z false)
  have hother (w : ZoneIx) (hw : w ≠ z) : (s.disabledBase z).zones[w] = s.zones[w] := State.updZone_other _ hw _
  refine .of_others (z := z) (fun w hw => (hwork.zone w hw).trans (hother w hw))
    (fun w hw => (enabled_of_work hwork w).trans (setEnabled_other hw s false)) fun h => ?_
  rw [hoff]
  exact disabled_law (coverLaw_iff.1 h).2

/-! ### The other zone commands (R88, R169, R186) -/

theorem keepsCovers_moveCovers {prep motion : CoverState} (hs : (s.zones[z]).cover.state ≠ .disabled) (hp : prep.isPrep = true)
    (hm : motion.isMotion = true) (force : Bool) : KeepsCovers s (s.moveCovers z force prep motion) :=
  .ite (fun _ => keepsCovers_enterMotion hs hm rfl) fun _ => .ite (fun _ => keepsCovers_enterMotion hs hm rfl) fun _ =>
    keepsCovers_enterPrep hs hp

/-- The resets leave no PURGE granted and no purge running (R32, R74). -/
theorem controlReset_law {enabled : Bool} (h : CoverLaw enabled s.zones[z]) : CoverLaw enabled (s.controlReset z).zones[z] := by
  obtain ⟨hsequencer, hgrant⟩ := coverLaw_iff.1 h
  have hcover : ((s.controlReset z).zones[z]).cover = (s.zones[z]).cover :=
    keeps_controlReset (f := fun r => r.cover) ⟨fun _ _ => rfl, fun _ _ => rfl⟩ (fun _ _ _ _ => rfl) s z
  have harb := controlReset_arb s z
  have hpurge : ((s.controlReset z).zones[z]).purge.state ≠ .run ∧
      (((s.controlReset z).zones[z]).purge.state ≠ .inactive → (s.zones[z]).purge.state ≠ .inactive) := by
    by_cases hruns : PurgeRuns s z
    · exact ⟨(controlReset_withdraws hruns).ne_run, fun _ => by rw [hruns.1]; decide⟩
    · rw [controlReset_idle hruns, resetControl_zone]
      exact ⟨fun hrun => hruns ⟨hrun, hgrant.grant hrun⟩, id⟩
  obtain ⟨hrun, hactive⟩ := hpurge
  rw [coverLaw_iff, hcover]
  refine ⟨hsequencer, fun hp => ?_, fun hp => absurd hp hrun, fun hg => ?_⟩
  · rw [hcover]
    exact hgrant.purge (hactive hp)
  · rw [harb] at hg
    cases hg

theorem keepsCovers_controlReset (s : State) (z : ZoneIx) : KeepsCovers s (s.controlReset z) := by
  have hwork := zoneWork_controlReset s z
  refine .of_others (z := z) (fun w hw => (hwork.zone w hw).trans (State.updZone_other _ hw _))
    (fun w _ => enabled_of_work hwork w) fun h => ?_
  rw [enabled_of_work hwork z]
  exact controlReset_law h

theorem keepsCovers_resetControlAll (s : State) (z : ZoneIx) : KeepsCovers s (s.resetControlAll z) := by
  have hdisarmed (t : State) : KeepsCovers t (t.disarmed z) := keepsCovers_updZone fun h => h.of_same rfl rfl rfl
  rw [resetControlAll_eq]
  exact (keepsCovers_controlReset s z).trans ((hdisarmed _).trans (keepsCovers_clearHold _ z))

theorem keepsCovers_resumeZone (s : State) (z : ZoneIx) : KeepsCovers s (s.resumeZone z) :=
  (keepsCovers_clearHold s z).trans (.ite (fun _ => keepsCovers_takeDecision ..) fun _ => .refl _)

theorem keepsCovers_zoneChecked {effect : ZoneIx → Bool → State → Answer} (h : ∀ z b s, KeepsCovers s (effect z b s).state)
    (r : Request) (s : State) : KeepsCovers s (zoneChecked effect r s).state := by
  unfold zoneChecked
  dsimp only
  split
  · exact .refl s
  · split
    · exact .refl s
    · split
      · exact .refl s
      · split
        · exact .of_zones rfl rfl
        · exact h ..

theorem keepsCovers_zoneEnable (r : Request) (s : State) : KeepsCovers s (zoneEnableOwn r s).state :=
  keepsCovers_zoneChecked (fun _ _ s => KeepsCovers.ite (fun _ => .refl s) fun h =>
    keepsCovers_enableZone ((Bool.not_eq_true _).mp h)) r s

theorem keepsCovers_zoneDisable (r : Request) (s : State) : KeepsCovers s (zoneDisableOwn r s).state :=
  keepsCovers_zoneChecked (fun z _ s => KeepsCovers.ite (fun _ => keepsCovers_disableZone s z) fun _ => .refl s) r s

theorem keepsCovers_closeCovers (r : Request) (s : State) : KeepsCovers s (closeCoversOwn r s).state := by
  refine keepsCovers_zoneChecked (fun z force s => ?_) r s
  split
  · exact .refl s
  next h =>
    have hidle := not_not.1 (not_or.1 h).1
    split
    · exact .refl s
    · exact keepsCovers_moveCovers (by rw [hidle]; decide) rfl rfl force

theorem keepsCovers_openCovers (r : Request) (s : State) : KeepsCovers s (openCoversOwn r s).state := by
  refine keepsCovers_zoneChecked (fun z force s => ?_) r s
  split
  · exact .refl s
  next h =>
    have hcovered := not_not.1 (not_or.1 h).1
    exact keepsCovers_moveCovers (by rw [hcovered]; decide) rfl rfl force

theorem keepsCovers_clearFault (r : Request) (s : State) : KeepsCovers s (clearFaultOwn r s).state := by
  refine keepsCovers_zoneChecked (fun z _ s => ?_) r s
  split
  next h =>
    rw [done_state]
    exact keepsCovers_enterDetect (by rw [h]; decide) rfl
  · exact .refl s

/-! ### The other requests -/

theorem keepsCovers_sceneRequest (r : Request) (s : State) : KeepsCovers s (sceneRequestOwn r s).state := by
  unfold sceneRequestOwn
  split
  next z n _ _ =>
    split
    · exact .refl s
    · split
      · exact .refl s
      · exact keepsCovers_reportScene ((reaches_takeScene s n .request).keepsCovers (by decide) (by decide) (by decide))
  · exact .refl s

theorem keepsCovers_actuatorChecked {effect : State → ActIx → State × Bool} (h : ∀ s a, KeepsCovers s (effect s a).1)
    (r : Request) (s : State) : KeepsCovers s (actuatorChecked effect r s).state := by
  unfold actuatorChecked
  split
  · exact .refl s
  next a _ =>
    split
    · exact .refl s
    · split
      · exact .refl s
      · split
        · exact .of_zones rfl rfl
        · exact (h s a).trans (keepsCovers_reportControl ..)

theorem keepsCovers_clearFlags (s : State) (selector : Nat) (mask : Byte) : KeepsCovers s (s.clearFlags selector mask) := by
  refine .ite (fun _ => .of_zones rfl rfl) fun _ => ?_
  split
  · exact keepsCovers_updZone fun h => h.of_same rfl rfl rfl
  · exact .refl s

theorem keepsCovers_readEntry (r : Request) (s : State) : KeepsCovers s (readEntryOwn r s).state := by
  unfold readEntryOwn
  split
  · exact .refl s
  · split <;> exact .refl s

theorem keepsCovers_readFlags (r : Request) (s : State) : KeepsCovers s (readFlagsOwn r s).state := by
  unfold readFlagsOwn
  split
  · exact .refl s
  · exact keepsCovers_clearFlags ..

theorem keepsCovers_accumulatorRead (r : Request) (s : State) : KeepsCovers s (accumulatorReadOwn r s).state := by
  unfold accumulatorReadOwn
  split
  · exact .refl s
  · exact keepsCovers_answerSegment ..

theorem keepsCovers_accumulatorPreload (r : Request) (s : State) : KeepsCovers s (accumulatorPreloadOwn r s).state := by
  unfold accumulatorPreloadOwn
  split <;> exact .of_zones rfl rfl

theorem keepsCovers_accumulatorSetRun (r : Request) (s : State) : KeepsCovers s (accumulatorSetRunOwn r s).state := by
  unfold accumulatorSetRunOwn
  split <;> exact .of_zones rfl rfl

theorem keepsCovers_captureTake (r : Request) (s : State) : KeepsCovers s (captureTakeOwn r s).state := by
  unfold captureTakeOwn
  split
  · exact .refl s
  · exact keepsCovers_capture ..

theorem keepsCovers_captureRead (r : Request) (s : State) : KeepsCovers s (captureReadOwn r s).state := by
  have hremoved : KeepsCovers s (if r.param 1 = 0 then s.removeCaptures r.channel else s) := by
    refine .ite (fun _ => ?_) fun _ => .refl s
    unfold State.removeCaptures State.setReadOut
    cases r.channel <;> exact .of_zones rfl rfl
  exact hremoved.trans (keepsCovers_answerSegment ..)

theorem keepsCovers_ringRead (r : Request) (s : State) : KeepsCovers s (ringReadOwn r s).state := by
  unfold ringReadOwn
  split
  · exact keepsCovers_answerSegment ..
  · exact .refl s

theorem keepsCovers_watchChecked {effect : WatchIx → State → Answer} (h : ∀ w s, KeepsCovers s (effect w s).state)
    (r : Request) (s : State) : KeepsCovers s (watchChecked effect r s).state := by
  unfold watchChecked
  split
  · exact .refl s
  · exact h ..

theorem keepsCovers_watchRead (r : Request) (s : State) : KeepsCovers s (watchReadOwn r s).state :=
  keepsCovers_watchChecked (fun w s => keepsCovers_answerSegment s (s.cfg.watches[w]).bytes (r.param 2)) r s

theorem keepsCovers_watchWrite (r : Request) (s : State) : KeepsCovers s (watchWriteOwn r s).state := by
  refine keepsCovers_watchChecked (fun w s => ?_) r s
  split <;> exact .of_zones rfl rfl

theorem keepsCovers_takeLocal (r : Request) (s : State) : KeepsCovers s (takeLocalOwn r s).state := by
  unfold takeLocalOwn
  split <;> exact .of_zones rfl rfl

theorem keepsCovers_releaseLocalWith (s : State) (cause : Nat) : KeepsCovers s (s.releaseLocalWith cause) := by
  have hreleased : KeepsCovers s (s.updMgmt fun m => { m with localMode := false, idleTimer := .stopped }) := .of_zones rfl rfl
  exact hreleased.trans (keepsCovers_raise ..)

theorem keepsCovers_completeCommit (s : State) (k : Commit) : KeepsCovers s (s.completeCommit k) := by
  refine .of_zones (completeCommit_zones s k) ?_
  rw [State.completeCommit, raise_frame]
  rfl

/-! ### Expiries of timers (R70, R87 to R92, R99, R101) -/

theorem keepsCovers_dwellExpiry (s : State) (z : ZoneIx) : KeepsCovers s (s.updArb z fun a => { a with dwell := .stopped }) := by
  rw [State.updArb_eq]
  refine keepsCovers_updZone fun h => ?_
  obtain ⟨hsequencer, hgrant⟩ := coverLaw_iff.1 h
  exact coverLaw_iff.2 ⟨hsequencer, hgrant.of_same rfl rfl rfl⟩

theorem due_ne_stopped {x : Timer} (h : x.due = true) : x ≠ .stopped := by rintro rfl; cases h

/-- The expiry of one of the cover sequencer's timers brings FAULT, from the timer's own state. -/
theorem keepsCovers_coverTimeout {x : Timer} (hx : x.due = true) (reason : FaultReason)
    (hs : CoverLaw (s.enabled z) s.zones[z] → x ≠ .stopped → (s.zones[z]).cover.state ≠ .disabled) :
    KeepsCovers s (s.enterFault z reason noIndex) := by
  refine .of_work (zoneWork_enterFault s z reason noIndex rfl) fun h => ?_
  have hkeeps := (keepsCovers_enterFault (hs h (due_ne_stopped hx)) reason noIndex).zone z h
  rwa [enabled_of_work (zoneWork_enterFault s z reason noIndex rfl) z] at hkeeps

theorem keepsCovers_detectTimeout (h : (s.zones[z]).cover.detectTimer.due = true) (reason : FaultReason) :
    KeepsCovers s (s.enterFault z reason noIndex) :=
  keepsCovers_coverTimeout h reason fun hl hx => by rw [hl.detect hx]; decide

theorem keepsCovers_prepTimeout (h : (s.zones[z]).cover.prepTimer.due = true) (reason : FaultReason) :
    KeepsCovers s (s.enterFault z reason noIndex) :=
  keepsCovers_coverTimeout h reason fun hl hx => by rcases hl.prep hx with e | e <;> rw [e] <;> decide

theorem keepsCovers_motionTimeout (h : (s.zones[z]).cover.motionTimer.due = true) (reason : FaultReason) :
    KeepsCovers s (s.enterFault z reason noIndex) :=
  keepsCovers_coverTimeout h reason fun hl hx => by rcases hl.motion hx with e | e <;> rw [e] <;> decide

theorem keepsCovers_settleExpiry (h : (s.zones[z]).cover.settleTimer.due = true) :
    KeepsCovers s (s.coverChange z .covered .settled noIndex) := by
  refine .of_work (zoneWork_coverChange s z .covered .settled noIndex rfl) fun hl => ?_
  have hsettle := hl.settle (due_ne_stopped h)
  exact coverChange_law (by decide) (hl.enabled_of_state (by rw [hsettle]; decide)) (by simp [CoverCause.reason])
    (coverLaw_iff.1 hl).2 fun _ => by rw [hsettle]; decide

/-- The wait's end requests the purge under closed covers (R99). -/
theorem keepsCovers_purgeWaitExpiry (hw : (s.zones[z]).purge.state = .wait) :
    KeepsCovers s ((s.purgeRequested z).takeDecision z false) := by
  refine .trans ?_ (keepsCovers_takeDecision _ z false)
  unfold State.purgeRequested
  rw [State.updPurge_eq]
  refine keepsCovers_updZone fun h => ?_
  obtain ⟨hsequencer, hgrant⟩ := coverLaw_iff.1 h
  have hcovered := hgrant.purge (by rw [hw]; decide)
  exact coverLaw_iff.2 ⟨hsequencer, fun _ => hcovered, nofun, fun _ => ⟨.inl rfl, hcovered⟩⟩

/-- The run's end releases the grant (R75, R101). -/
theorem keepsCovers_purgeRunExpiry (hr : (s.zones[z]).purge.state = .run) :
    KeepsCovers s ((s.purgeRunOver z).takeDecision z true) := by
  have hover := reaches_purgeRunOver s z
  refine .of_work (hover.work.trans (zoneWork_takeDecision _ z true rfl)) fun h => ?_
  obtain ⟨hsequencer, hgrant⟩ := coverLaw_iff.1 h
  have hcover : ((s.purgeRunOver z).zones[z]).cover = (s.zones[z]).cover := hover.stands .cover (by decide)
  have hstate : ((s.purgeRunOver z).zones[z]).purge.state = .wait := by rw [purgeRunOver_purge]
  generalize s.purgeRunOver z = left at hcover hstate
  refine takeDecision_law (by rw [hcover]; exact hsequencer) ⟨fun _ => ?_, fun hrun => ?_, fun _ => .inl rfl⟩
  · rw [hcover]
    exact hgrant.purge (by rw [hr]; decide)
  · rw [hstate] at hrun
    cases hrun

/-! ### Every command (R150, R169) -/

/-- A meaning that answers a state which keeps the laws. -/
theorem KeepsCovers.next (h : KeepsCovers s u) (he : Host.Outcome.next u = (.next t : Host.Outcome State Fault Refusal)) :
    KeepsCovers s t := by
  cases he
  exact h

theorem wait_of_due {r : ZoneRt} (h : r.purgeWaitDue = true) : r.purge.state = .wait := by
  simp only [ZoneRt.purgeWaitDue, Bool.and_eq_true, beq_iff_eq] at h
  exact h.1.1

theorem run_of_due {r : ZoneRt} (h : r.purgeRunDue = true) : r.purge.state = .run := by
  simp only [ZoneRt.purgeRunDue, Bool.and_eq_true, beq_iff_eq] at h
  exact h.1.1

/-- Every command keeps the laws. -/
theorem keepsCovers_exec (i : Instr) (s t : State) (he : exec i s = .next t) : KeepsCovers s t := by
  cases i with
  | powerOn => exact (keepsCovers_boot s _ _).next he
  | receivedUnit line heard => exact (keepsCovers_receive s line heard).next he
  | serviceUnit heard => exact (keepsCovers_receiveService s heard).next he
  | staleExpiry p => exact (KeepsCovers.ite (fun _ => keepsCovers_pointStale s p) fun _ => .refl s).next he
  | evaluation z => exact (KeepsCovers.ite (fun _ => keepsCovers_evaluate s z) fun _ => .refl s).next he
  | dwellExpiry z => exact (KeepsCovers.ite (fun _ => keepsCovers_dwellExpiry s z) fun _ => .refl s).next he
  | detectTimeout z => exact (KeepsCovers.ite (fun h => keepsCovers_detectTimeout h _) fun _ => .refl s).next he
  | prepTimeout z => exact (KeepsCovers.ite (fun h => keepsCovers_prepTimeout h _) fun _ => .refl s).next he
  | motionTimeout z => exact (KeepsCovers.ite (fun h => keepsCovers_motionTimeout h _) fun _ => .refl s).next he
  | settleExpiry z => exact (KeepsCovers.ite keepsCovers_settleExpiry fun _ => .refl s).next he
  | purgeWaitExpiry z =>
    exact (KeepsCovers.ite (fun h => keepsCovers_purgeWaitExpiry (wait_of_due h)) fun _ => .refl s).next he
  | purgeRunExpiry z =>
    exact (KeepsCovers.ite (fun h => keepsCovers_purgeRunExpiry (run_of_due h)) fun _ => .refl s).next he
  | cueDelayExpiry z cue =>
    have hcue : KeepsCovers s (s.cueExpires z cue.val) :=
      keepsCovers_reportScene ((keepsCovers_startCue ..).trans (keepsCovers_judgeIfDone ..))
    exact (KeepsCovers.ite (fun _ => hcue) fun _ => .refl s).next he
  | fadeStep z =>
    have hstep : KeepsCovers s (State.reportScene z ((s.stepFades z).judgeIfDone z)) :=
      keepsCovers_reportScene ((keepsCovers_stepFades ..).trans (keepsCovers_judgeIfDone ..))
    exact (KeepsCovers.ite (fun _ => hstep) fun _ => .refl s).next he
  | refreshExpiry a => exact (KeepsCovers.ite (fun _ => keepsCovers_refreshExpire s a) fun _ => .refl s).next he
  | retryExpiry a => exact (KeepsCovers.ite (fun _ => keepsCovers_retryExpire s a) fun _ => .refl s).next he
  | overrideHoldExpiry a => exact (KeepsCovers.ite (fun _ => keepsCovers_overrideEnds s a) fun _ => .refl s).next he
  | ackTimeout tag =>
    refine KeepsCovers.next ?_ he
    split
    · exact .ite (fun _ => keepsCovers_endCommand ..) fun _ => .refl s
    · exact .refl s
  | arbitration => exact (keepsCovers_arbitrate s).next he
  | hallTxChoose => exact (keepsCovers_hallChoose s).next he
  | trunkTxChoose => exact (keepsCovers_trunkChoose s).next he
  | txAttemptEnd line readBack => exact (keepsCovers_attemptEnd s line readBack).next he
  | txRetryAttempt line quiet => exact (keepsCovers_retryAttempt s line quiet).next he
  | serviceReplySent => exact (KeepsCovers.of_zones (State.updMgmt_zones ..) rfl).next he
  | commitComplete =>
    refine KeepsCovers.next ?_ he
    split
    · exact keepsCovers_completeCommit ..
    · exact .refl s
  | localIdleExpiry => exact (KeepsCovers.ite (fun _ => keepsCovers_releaseLocalWith s 1) fun _ => .refl s).next he
  | restartBegin => exact (KeepsCovers.ite (fun _ => keepsCovers_boot s _ _) fun _ => .refl s).next he
  | unknownRequest | identify | captureCount => exact (keepsCovers_serve (fun _ s => .refl s) s _).next he
  | readEntry => exact (keepsCovers_serve keepsCovers_readEntry s _).next he
  | writeEntrySegment | writeEntryPoint | writeEntryActuator | writeEntryGroup | writeEntrySceneHeader | writeEntryCue
  | writeEntryZone | writeEntrySaturation | writeEntryFilter | writeEntryPart =>
    exact (keepsCovers_serve keepsCovers_writeSegment s _).next he
  | zoneEnable => exact (keepsCovers_serve keepsCovers_zoneEnable s _).next he
  | zoneDisable => exact (keepsCovers_serve keepsCovers_zoneDisable s _).next he
  | closeCovers => exact (keepsCovers_serve keepsCovers_closeCovers s _).next he
  | openCovers => exact (keepsCovers_serve keepsCovers_openCovers s _).next he
  | clearFault => exact (keepsCovers_serve keepsCovers_clearFault s _).next he
  | resetControl =>
    exact (keepsCovers_serve (keepsCovers_zoneChecked fun z _ s => keepsCovers_resetControlAll s z) s _).next he
  | resume => exact (keepsCovers_serve (keepsCovers_zoneChecked fun z _ s => keepsCovers_resumeZone s z) s _).next he
  | sceneRequest => exact (keepsCovers_serve keepsCovers_sceneRequest s _).next he
  | actuatorDisable => exact (keepsCovers_serve (keepsCovers_actuatorChecked keepsCovers_disableActuator) s _).next he
  | actuatorEnable => exact (keepsCovers_serve (keepsCovers_actuatorChecked keepsCovers_enableActuator) s _).next he
  | readFlags => exact (keepsCovers_serve keepsCovers_readFlags s _).next he
  | lineStatus hall trunk => exact (keepsCovers_serve (fun _ s => keepsCovers_answerSegment s _ _) s _).next he
  | accumulatorRead => exact (keepsCovers_serve keepsCovers_accumulatorRead s _).next he
  | accumulatorPreload => exact (keepsCovers_serve keepsCovers_accumulatorPreload s _).next he
  | accumulatorSetRun => exact (keepsCovers_serve keepsCovers_accumulatorSetRun s _).next he
  | captureTake => exact (keepsCovers_serve keepsCovers_captureTake s _).next he
  | captureRead => exact (keepsCovers_serve keepsCovers_captureRead s _).next he
  | ringRead => exact (keepsCovers_serve keepsCovers_ringRead s _).next he
  | ringUnfreeze => exact (keepsCovers_serve (fun _ _ => .of_zones rfl rfl) s _).next he
  | watchRead => exact (keepsCovers_serve keepsCovers_watchRead s _).next he
  | watchWrite => exact (keepsCovers_serve keepsCovers_watchWrite s _).next he
  | watchArm | watchDisarm => exact (keepsCovers_serve (keepsCovers_watchChecked fun _ _ => .of_zones rfl rfl) s _).next he
  | commitImage | restart => exact (keepsCovers_serve (fun _ _ => .of_zones rfl rfl) s _).next he
  | takeLocal => exact (keepsCovers_serve keepsCovers_takeLocal s _).next he
  | releaseLocal =>
    exact (keepsCovers_serve (fun _ s => KeepsCovers.ite (fun _ => keepsCovers_releaseLocalWith s 0) fun _ => .refl s) s _).next he

end KeepingCommands

/-- Settles O60: with no command waiting the clock keeps the laws, and every command keeps them. -/
theorem stepsKeepTheCoverLaw : Obligations.StepsKeepTheCoverLaw := by
  intro s t hs hstep z
  unfold step at hstep
  split at hstep
  · exact ((keepsCovers_clockTick s).next hstep).zone z (hs z)
  next c rest _ =>
    have hpopped : KeepsCovers s { s with pending := rest } := .of_zones rfl rfl
    exact (hpopped.trans (keepsCovers_exec _ _ t hstep)).zone z (hs z)

end Sys2Proof.Machine
end

section
/-! SUPPORT. What a take leaves the scene engine in: the cues it is made from, an empty scene, and a cue that has to wait. -/

namespace Sys2Proof.Machine

section Takes

variable {z : ZoneIx} {s t u : State} {n : SceneIx} {o : TakeOrigin}

/-! ### The cues of a take (R106, R113, R114) -/

/-- The cues of a take depend on the configuration, the points and the state of the zone's covers. -/
theorem takeCues_congr (hw : OneZoneWork z s t) {prep : CoverState} (hc : (t.zones[z]).cover.state = prep) (n : SceneIx) :
    t.takeCues z n = (s.updZone z fun r => { r with cover := { r.cover with state := prep } }).takeCues z n := by
  have hcues : t.cfg.cues = s.cfg.cues := by rw [hw.cfg]
  have hheaders : t.cfg.headers = s.cfg.headers := by rw [hw.cfg]
  have hgroups : t.cfg.groups = s.cfg.groups := by rw [hw.cfg]
  have hzone := State.updZone_same s z fun r => { r with cover := { r.cover with state := prep } }
  have hcfg : (s.updZone z fun r => { r with cover := { r.cover with state := prep } }).cfg = s.cfg := rfl
  have hpoints : (s.updZone z fun r => { r with cover := { r.cover with state := prep } }).points = s.points := rfl
  generalize s.updZone z (fun r => { r with cover := { r.cover with state := prep } }) = v at hzone hcfg hpoints
  have hcover : (t.zones[z]).cover.state = (v.zones[z]).cover.state := by rw [hc, hzone]
  have hguards : t.guardHolds z = v.guardHolds z := by
    funext guard
    unfold State.guardHolds State.freshValue
    rw [hcover, hcfg, hw.pointsCfg, hw.points, hpoints]
  have hruns : t.cueRun z = v.cueRun z := by
    funext applied c
    unfold State.cueRun State.expand State.isDimmerOf
    rw [hcfg, hw.acts, hgroups]
  unfold State.takeCues State.sceneCues
  rw [hguards, hruns, hcfg, hcues, hheaders]

theorem takeCues_empty (h : (s.cfg.headers[n]).cueCount = 0) : s.takeCues z n = [] := by
  unfold State.takeCues State.sceneCues
  rw [h]
  rfl

/-! ### The record of the take -/

theorem takeNoted_sceneRt (s : State) (z : ZoneIx) (n : SceneIx) (o : TakeOrigin) : ((s.takeNoted z n o).zones[z]).scene =
    { (s.zones[z]).scene with
      scene := some n, origin := some o, takeTime := some s.now, cues := s.takeCues z n
      touched := (firstAppearances ((s.takeCues z n).flatMap CueRun.channels)).map fun a =>
        { act := a, owner := none, fade := none, rangeRefused := false }
      stepTimer := .stopped, state := .running } := by
  rw [State.takeNoted, State.updScene_eq, State.updZone_same]

theorem takeRecord_sceneRt (s : State) (z : ZoneIx) (n : SceneIx) (o : TakeOrigin) :
    ((s.takeRecord z n o).zones[z]).scene = ((s.takeNoted z n o).zones[z]).scene := by
  have hrecord : Reaches z [.acc accSceneChanges, .run] 1 1 (s.takeNoted z n o) (s.takeRecord z n o) := by
    rw [takeRecord_eq]
    exact (reaches_appendRing _ _).trans (reaches_offer _ accSceneChanges 1)
  exact hrecord.stands .scene (by decide)

theorem takeRecord_held (s : State) (z : ZoneIx) (n : SceneIx) (o : TakeOrigin) :
    ((s.takeRecord z n o).zones[z]).held = (s.zones[z]).held := by
  have hrecord : Reaches z [.acc accSceneChanges, .run] 1 1 (s.takeNoted z n o) (s.takeRecord z n o) := by
    rw [takeRecord_eq]
    exact (reaches_appendRing _ _).trans (reaches_offer _ accSceneChanges 1)
  exact hrecord.held.trans (reaches_takeNoted s n o).held

/-- In a zone that is not held the due cues start, and completion is judged if nothing is left at work (R112). -/
theorem takeScene_free (h : (s.zones[z]).held = false) (n : SceneIx) (o : TakeOrigin) :
    s.takeScene z n o = ((s.takeRecord z n o).startDueCues z).judgeIfDone z := by
  unfold State.takeScene
  dsimp only
  rw [takeRecord_held, h]
  rfl

/-! ### Starting cues -/

theorem keeps_startCue_state (s : State) (z : ZoneIx) (i : Nat) : Keeps (fun r => r.scene.state) z s (s.startCue z i) := by
  unfold State.startCue
  split
  next run c _ _ =>
    have hmarked : Keeps (fun r => r.scene.state) z s
        (s.updScene z fun e => { e with cues := e.cues.modify i fun r => { r with status := .started } }) := by
      rw [State.updScene_eq]
      exact keeps_updZone _ rfl
    exact hmarked.trans (keeps_claims (fun _ _ _ => rfl) _ i c run.channels)
  next => exact .refl _ z s

theorem startDueCues_state (s : State) (z : ZoneIx) :
    ((s.startDueCues z).zones[z]).scene.state = (s.zones[z]).scene.state := by
  have hfold : Keeps (fun r => r.scene.state) z s (s.startDueCues z) := by
    unfold State.startDueCues
    refine Keeps.foldl _ (fun s i => ?_) _ s
    split
    · exact keeps_startCue_state s z i
    · exact .refl _ z s
  generalize s.startDueCues z = v at hfold
  exact hfold

/-- A cue is at its place in the zone's list. -/
def CueAt (z : ZoneIx) (j : Nat) (run : CueRun) (s : State) : Prop := (s.zones[z]).scene.cues[j]? = some run

theorem not_due_of_waiting {run : CueRun} {ms : Nat} (hr : run.status = .pending ms) (hms : 0 < ms) : run.isDue = false := by
  unfold CueRun.isDue
  rw [hr]
  exact beq_false_of_ne fun e => by cases e; exact absurd hms (Nat.lt_irrefl 0)

/-- A cue with delay left is at its place when the due cues have started. -/
theorem startDueCues_waiting {j ms : Nat} {run : CueRun} (hr : run.status = .pending ms) (hms : 0 < ms) (h : CueAt z j run s) :
    CueAt z j run (s.startDueCues z) := by
  unfold State.startDueCues
  refine List.foldlRecOn (motive := CueAt z j run) _ _ h fun t ht i _ => ?_
  by_cases hi : j = i
  · subst hi
    unfold CueAt at ht
    rw [ht, Option.any_some, not_due_of_waiting hr hms, if_neg Bool.false_ne_true]
    exact ht
  · split
    · exact (startCue_cue t z hi).trans ht
    · exact ht

/-! ### The judgement that ends the take (R119) -/

theorem updScene_scene (s : State) (z : ZoneIx) (f : SceneRt → SceneRt) :
    ((s.updScene z f).zones[z]).scene = f (s.zones[z]).scene := by
  rw [State.updScene_eq, State.updZone_same]

theorem sceneJudge_state (s : State) (z : ZoneIx) : ((s.sceneJudge z).1.zones[z]).scene.state ≠ .idle := by
  unfold State.sceneJudge
  split
  · rw [updScene_scene]
    exact SceneState.noConfusion
  · split <;> rw [updScene_scene] <;> exact SceneState.noConfusion

theorem judgeIfDone_state (h : (s.zones[z]).scene.state ≠ .idle) : ((s.judgeIfDone z).1.zones[z]).scene.state ≠ .idle := by
  unfold State.judgeIfDone
  dsimp only
  split
  · exact sceneJudge_state s z
  · exact h

theorem started_running (s : State) (z : ZoneIx) (n : SceneIx) (o : TakeOrigin) :
    (((s.takeRecord z n o).startDueCues z).zones[z]).scene.state = .running := by
  rw [startDueCues_state, takeRecord_sceneRt, takeNoted_sceneRt]

theorem takeScene_state (h : (s.zones[z]).held = false) (n : SceneIx) (o : TakeOrigin) :
    ((s.takeScene z n o).1.zones[z]).scene.state ≠ .idle := by
  rw [takeScene_free h]
  exact judgeIfDone_state (by rw [started_running]; decide)

/-- A scene without cues touches nothing and is complete at its take. -/
theorem takeScene_empty (h : (s.zones[z]).held = false) (h0 : (s.cfg.headers[n]).cueCount = 0) (o : TakeOrigin) :
    ((s.takeScene z n o).1.zones[z]).scene.state = .complete := by
  have hscene := takeRecord_sceneRt s z n o
  rw [takeNoted_sceneRt, takeCues_empty h0] at hscene
  have hcues : ((s.takeRecord z n o).zones[z]).scene.cues = [] := congrArg SceneRt.cues hscene
  have htouched : ((s.takeRecord z n o).zones[z]).scene.touched = [] := congrArg SceneRt.touched hscene
  have hrunning : ((s.takeRecord z n o).zones[z]).scene.state = .running := congrArg SceneRt.state hscene
  have hstarted : (s.takeRecord z n o).startDueCues z = s.takeRecord z n o := by
    rw [startDueCues_eq, State.cuesStarted, dueCues, hcues]
    simp
  rw [takeScene_free h, hstarted]
  generalize s.takeRecord z n o = v at hcues htouched hrunning
  have hnone : v.lowestDegraded z = none := by
    unfold State.lowestDegraded
    rw [htouched, List.find?_eq_none]
    simp
  have hjudged : (v.judgeIfDone z).1 = v.updScene z fun e => { e with state := .complete, degraded := none } := by
    unfold State.judgeIfDone State.sceneJudge SceneRt.fading
    dsimp only
    rw [hrunning, hcues, htouched, hnone]
    rfl
  rw [hjudged, updScene_scene]

/-- A cue that has to wait keeps the engine running. -/
theorem takeScene_waits (h : (s.zones[z]).held = false) {run : CueRun} {ms : Nat} (hrun : run ∈ s.takeCues z n)
    (hr : run.status = .pending ms) (hms : 0 < ms) (o : TakeOrigin) :
    ((s.takeScene z n o).1.zones[z]).scene.state = .running := by
  obtain ⟨j, hj⟩ := List.mem_iff_getElem?.1 hrun
  have hscene := takeRecord_sceneRt s z n o
  rw [takeNoted_sceneRt] at hscene
  have hnoted : CueAt z j run (s.takeRecord z n o) := by
    unfold CueAt
    rw [hscene]
    exact hj
  have hwaiting := startDueCues_waiting hr hms hnoted
  have hrunning := started_running s z n o
  rw [takeScene_free h]
  generalize (s.takeRecord z n o).startDueCues z = v at hwaiting hrunning
  have hpending : (v.zones[z]).scene.cues.any CueRun.isPending = true :=
    List.any_eq_true.2 ⟨run, List.mem_of_getElem? hwaiting, isPending_iff.2 ⟨ms, hr⟩⟩
  unfold State.judgeIfDone
  dsimp only
  rw [hpending, if_neg fun h => absurd h.2.1 (by decide)]
  exact hrunning

end Takes

end Sys2Proof.Machine
end

section
/-! SUPPORT. The covers on their way: a change into motion or FAULT, the preparation and what its scene's report leads to, and the end
of a purge that they leave behind. -/

namespace Sys2Proof.Machine

section OnTheWay

variable {z : ZoneIx} {s t u : State} {next prep : CoverState} {cause : CoverCause} {index : Nat} {v : Int}

/-! ### A change into motion or FAULT (R86, R90, R94) -/

/-- A state that calls for no scene and concerns the purge only where it leaves COVERED. -/
def CoverState.onTheWay (c : CoverState) : Prop := c.isMotion = true ∨ c = .fault

theorem ne_disabled_of_onTheWay (h : next.onTheWay) : next ≠ .disabled := by
  rintro rfl
  rcases h with h | h <;> cases h

theorem ne_covered_of_onTheWay (h : next.onTheWay) : next ≠ .covered := by
  rintro rfl
  rcases h with h | h <;> cases h

theorem sceneOf_onTheWay (h : next.onTheWay) (c : CoverCfg) : c.sceneOf next = none := by
  rcases h with h | rfl
  · rcases (isMotion_iff _).1 h with rfl | rfl <;> rfl
  · rfl

/-- From a state other than COVERED such a change requests drives and raises a notice before its decision, and no more. -/
theorem onTheWay_noticed (hl : (s.zones[z]).cover.state ≠ .covered) (hn : next.onTheWay) :
    Reaches z [.acts .coverDrive] 1 0 (s.coverRecorded z next cause) (s.coverNoticed z next cause index) := by
  have hpurged : s.coverPurged z next cause = (s.coverRecorded z next cause).coverDriveStep z next := by
    unfold State.coverPurged State.coverPurgeStep
    rw [if_neg (ne_covered_of_onTheWay hn), if_neg hl]
  have hscene : (s.coverPurged z next cause).coverSceneStep z next = s.coverPurged z next cause := by
    unfold State.coverSceneStep
    rw [sceneOf_onTheWay hn]
  unfold State.coverNoticed
  rw [hscene, hpurged]
  exact (reaches_coverDriveStep _ z next).trans (reaches_coverNoticeStep _ z _ next cause index)

/-- What follows the new record reaches neither the covers nor the scene. -/
theorem onTheWay_followed (hl : (s.zones[z]).cover.state ≠ .covered) (hn : next.onTheWay) :
    Reaches z (.acts .coverDrive :: decisionParts) 2 1 (s.coverRecorded z next cause) (s.coverChange z next cause index) := by
  rw [coverChange_eq (ne_disabled_of_onTheWay hn)]
  exact ((onTheWay_noticed hl hn).trans (reaches_takeDecision _ _)).mono (by decide) (by decide) (by decide)

/-- With no purge at work, what follows the new record is the drives' and the arbiter's. -/
theorem onTheWay_decided (hl : (s.zones[z]).cover.state ≠ .covered) (hn : next.onTheWay) (hp : PurgeRests s z) :
    Reaches z (.acts .coverDrive :: .arb :: airParts) 1 1 (s.coverRecorded z next cause) (s.coverChange z next cause index) := by
  have hnoticed := onTheWay_noticed (cause := cause) (index := index) hl hn
  have hrests : PurgeRests (s.coverNoticed z next cause index) z := by
    unfold PurgeRests
    rw [show _ = _ from ((reaches_coverRecorded s z next cause).trans hnoticed).stands .purge (by decide)]
    exact hp
  rw [coverChange_eq (ne_disabled_of_onTheWay hn)]
  exact (hnoticed.trans (takeDecision_rests hrests _)).mono (by decide) (by decide) (by decide)

/-- The parts of a change into motion or FAULT, and those of one with no purge at work. -/
def wayParts : List Part := [.cover, .scene, .coverWork, .acts .coverDrive] ++ decisionParts

def quietParts : List Part := [.cover, .scene, .coverWork, .acts .coverDrive, .arb] ++ airParts

theorem onTheWay_reaches (hl : (s.zones[z]).cover.state ≠ .covered) (hn : next.onTheWay) (hp : PurgeRests s z) :
    Reaches z quietParts 1 2 s (s.coverChange z next cause index) :=
  ((reaches_coverRecorded s z next cause).trans (onTheWay_decided hl hn hp)).mono (by decide) (by decide) (by decide)

theorem wayParts_reaches (hl : (s.zones[z]).cover.state ≠ .covered) (hn : next.onTheWay) :
    Reaches z wayParts 2 2 s (s.coverChange z next cause index) :=
  ((reaches_coverRecorded s z next cause).trans (onTheWay_followed hl hn)).mono (by decide) (by decide) (by decide)

/-- Of the scene's record the cover work alone changes. -/
theorem onTheWay_scene (hl : (s.zones[z]).cover.state ≠ .covered) (hn : next.onTheWay) :
    ((s.coverChange z next cause index).zones[z]).scene = { (s.zones[z]).scene with coverWork := next.isWork } :=
  (((coverRecorded_of_entered s z next cause).trans (onTheWay_followed hl hn)).stands .scene (by decide)).trans
    (coverEntered_scene ..)

/-- Where no purge claims the grant, the choice reads no more than results, configuration and the granted mode. -/
theorem GrantChosen.of_rests (h : GrantChosen s z) (hs : PurgeRests s z) (ht : PurgeRests t z) (hw : OneZoneWork z s t)
    (hg : (t.zones[z]).arb.granted = (s.zones[z]).arb.granted) : GrantChosen t z := by
  have hvent : t.ventAvailable z = s.ventAvailable z := by
    unfold State.ventAvailable
    dsimp only
    rw [hw.eval, hw.heat, hw.zonesCfg]
  unfold GrantChosen at h ⊢
  rw [choiceRow_rests hs] at h
  rw [choiceRow_rests ht, hvent, hg, enabled_of_work hw, hw.eval, hw.heat, hw.zonesCfg]
  exact h

/-- A grant that would be chosen again stays with its cause. -/
theorem onTheWay_granted (hl : (s.zones[z]).cover.state ≠ .covered) (hn : next.onTheWay) (hp : PurgeRests s z)
    (hg : GrantChosen s z) :
    ((s.coverChange z next cause index).zones[z]).arb.granted = (s.zones[z]).arb.granted ∧
    ((s.coverChange z next cause index).zones[z]).arb.lastCause = (s.zones[z]).arb.lastCause := by
  have hbefore := (reaches_coverRecorded s z next cause).trans (onTheWay_noticed (cause := cause) (index := index) hl hn)
  have harb : ((s.coverNoticed z next cause index).zones[z]).arb = (s.zones[z]).arb := hbefore.stands .arb (by decide)
  have hpurge : ((s.coverNoticed z next cause index).zones[z]).purge = (s.zones[z]).purge := hbefore.stands .purge (by decide)
  rw [coverChange_eq (ne_disabled_of_onTheWay hn)]
  generalize s.coverNoticed z next cause index = noticed at hbefore harb hpurge
  have hchosen : GrantChosen noticed z :=
    hg.of_rests hp (by unfold PurgeRests; rw [hpurge]; exact hp) hbefore.work (by rw [harb])
  rw [← harb]
  exact takeDecision_granted hchosen _

/-! ### The drives requested on entry into motion (R90) -/

theorem motion_onTheWay (hm : next.isMotion = true) : next.onTheWay := .inl hm

theorem motion_requests (hm : next.isMotion = true) (hready : DrivesReady s z) {a : ActIx} (ha : a ∈ s.formDrives z) :
    ((s.coverChange z next cause index).acts[a]).requested = some (motionValue next) := by
  obtain ⟨_, hall⟩ := hready
  obtain ⟨_, _, hmin, hmax, _⟩ := hall a ha
  obtain ⟨huse, hkind, hzone⟩ := driveOf_formDrives ha
  have hrecorded := reaches_coverRecorded s z next cause
  have hcfg : (s.coverRecorded z next cause).cfg = s.cfg := hrecorded.stands .run (by decide)
  have hcover : ((s.coverRecorded z next cause).zones[z]).cover = _ :=
    ((coverRecorded_of_entered s z next cause).stands .cover (by decide)).trans (coverEntered_cover ..)
  have hafter : Reaches z changeParts 4 3 ((s.coverRecorded z next cause).coverDriveStep z next)
      (s.coverChange z next cause index) :=
    ((reaches_coverPurgeStep _ z _ next).trans (coverChange_of_purged (ne_disabled_of_onTheWay (.inl hm)))).mono
      (by decide) (by decide) (by decide)
  rw [coverDriveStep_motion _ z hm] at hafter
  have hbefore := reaches_requestDrives (z := z) (s.coverRecorded z next cause) (motionValue next)
  have hrequested := requestDrives_requested (s.coverRecorded z next cause) z (motionValue next) a
    (by rw [hcover]; unfold CoverRt.enter; rw [if_pos (.inr hm)]; exact ha) (by rw [hcfg]; exact huse) (by rw [hcfg]; exact hkind)
    (by rw [hcfg]; exact hzone)
  rw [hafter.stands (.acts .coverDrive) (by decide) a (by rw [hbefore.work.acts, hcfg]; exact hkind), hrequested, hcfg,
    limited_drive hmin hmax]
  · rcases (isMotion_iff _).1 hm with rfl | rfl <;> decide
  · rcases (isMotion_iff _).1 hm with rfl | rfl <;> decide

/-- The record with which motion begins without a preparation (R85, R88). -/
theorem enter_direct {r : CoverRt} (c : CoverCfg) (formed : List ActIx) (hm : next.isMotion = true)
    (hprep : r.state.isPrep = false) (hc : cause.reason = none) : r.enter c false formed next cause =
      { state := next, reason := none, drives := formed, detectTimer := .stopped, prepTimer := .stopped
        motionTimer := .running (c.motion * 1000), settleTimer := .stopped, lightingReady := false
        workSceneTaken := false } := by
  unfold CoverRt.enter
  rw [hc, hprep]
  rcases (isMotion_iff _).1 hm with rfl | rfl <;> rfl

theorem withFormed_zone (s : State) (z : ZoneIx) : (s.withFormed z).zones[z] =
    { s.zones[z] with cover := { (s.zones[z]).cover with drives := s.formDrives z } } := State.updZone_same ..

theorem enterMotion_ready (hready : DrivesReady s z) :
    s.enterMotion z next cause = (s.withFormed z).coverChange z next cause noIndex := by
  have hnone : (s.formDrives z).find? (fun a => !(s.withFormed z).driveReady a) = none := by
    rw [List.find?_eq_none]
    intro a ha
    rw [show (s.withFormed z).driveReady a = s.driveReady a from rfl, driveReady_iff.2 (hready.2 a ha)]
    decide
  unfold State.enterMotion
  dsimp only
  rw [show s.updCover z (fun c => { c with drives := s.formDrives z }) = s.withFormed z from rfl, hnone,
    List.isEmpty_eq_false_iff.2 hready.1]
  rfl

/-- Motion without a preparation, the drive check passed (R88, R90). -/
theorem enterMotion_direct (hm : next.isMotion = true) (hprep : (s.zones[z]).cover.state.isPrep = false)
    (hheld : (s.zones[z]).held = false) (hready : DrivesReady s z) (hc : cause.reason = none) :
    CoversMove s (s.enterMotion z next cause) z next (motionValue next) false := by
  have hzone := withFormed_zone s z
  have hcover := coverChange_cover (s := s.withFormed z) (z := z) (cause := cause) (index := noIndex)
    (ne_disabled_of_onTheWay (motion_onTheWay hm))
  have hrequested (a : ActIx) (ha : a ∈ s.formDrives z) :=
    motion_requests (s := s.withFormed z) (cause := cause) (index := noIndex) hm hready ha
  rw [enterMotion_ready hready]
  rw [hzone] at hcover
  dsimp only at hcover
  rw [hheld] at hcover
  exact ⟨hcover.trans (enter_direct _ _ hm hprep hc), hrequested⟩

theorem MotionRefused.fault (h : MotionRefused s u z) :
    (u.zones[z]).cover.state = .fault ∧ (u.zones[z]).cover.reason = some .drive := by
  obtain ⟨index, hfails, _⟩ := h
  rw [hfails.rests.cover]
  exact ⟨rfl, rfl⟩

/-! ### Ways into motion or FAULT -/

/-- The covers have entered motion or FAULT, the drives formed before or not. -/
def EntersWay (s u : State) (z : ZoneIx) : Prop :=
  ∃ next cause index, next.onTheWay ∧
    (u = s.coverChange z next cause index ∨ u = (s.withFormed z).coverChange z next cause index)

theorem enterFault_enters (hm : (s.zones[z]).cover.state.isMotion = false) (reason : FaultReason) (index : Nat) :
    EntersWay s (s.enterFault z reason index) z := by
  refine ⟨.fault, .fault reason, index, .inr rfl, .inl ?_⟩
  unfold State.enterFault
  rw [hm]
  rfl

theorem enterMotion_enters (hs : (s.zones[z]).cover.state.isMotion = false) (hm : next.isMotion = true) :
    EntersWay s (s.enterMotion z next cause) z := by
  rcases enterMotion_cases s z next cause with ⟨index, he⟩ | he
  · refine ⟨.fault, .fault .drive, index, .inr rfl, .inr ?_⟩
    rw [he]
    unfold State.enterFault
    rw [withFormed_state, hs]
    rfl
  · exact ⟨next, cause, noIndex, .inl hm, .inr he⟩

theorem reaches_withFormed (s : State) (z : ZoneIx) : Reaches z [.cover] 0 0 s (s.withFormed z) := by
  rw [show s.withFormed z = s.updCover z fun c => { c with drives := s.formDrives z } from rfl]
  exact reaches_updCover s _

/-- A way taken from a state other than COVERED leaves of the scene's record all but the cover work. -/
theorem EntersWay.reaches (h : EntersWay s u z) (hl : (s.zones[z]).cover.state ≠ .covered) :
    Reaches z wayParts 2 2 s u ∧ ∃ work, (u.zones[z]).scene = { (s.zones[z]).scene with coverWork := work } := by
  obtain ⟨next, cause, index, hn, rfl | rfl⟩ := h
  · exact ⟨wayParts_reaches hl hn, _, onTheWay_scene hl hn⟩
  · have hl' : ((s.withFormed z).zones[z]).cover.state ≠ .covered := by rw [withFormed_state]; exact hl
    have hscene := onTheWay_scene (cause := cause) (index := index) hl' hn
    rw [withFormed_zone] at hscene
    exact ⟨((reaches_withFormed s z).trans (wayParts_reaches hl' hn)).mono (by decide) (by decide) (by decide), _, hscene⟩

/-- With no purge at work it leaves the purge timer, and a grant that would be chosen again. -/
theorem EntersWay.quiet (h : EntersWay s u z) (hl : (s.zones[z]).cover.state ≠ .covered) (hp : PurgeRests s z) :
    Reaches z quietParts 1 2 s u ∧
    (GrantChosen s z → (u.zones[z]).arb.granted = (s.zones[z]).arb.granted ∧
      (u.zones[z]).arb.lastCause = (s.zones[z]).arb.lastCause) := by
  obtain ⟨next, cause, index, hn, rfl | rfl⟩ := h
  · exact ⟨onTheWay_reaches hl hn hp, onTheWay_granted hl hn hp⟩
  · have hformed := reaches_withFormed s z
    have hzone := withFormed_zone s z
    have hl' : ((s.withFormed z).zones[z]).cover.state ≠ .covered := by rw [hzone]; exact hl
    have hp' : PurgeRests (s.withFormed z) z := by unfold PurgeRests; rw [hzone]; exact hp
    have hgranted := onTheWay_granted (cause := cause) (index := index) hl' hn hp'
    rw [hzone] at hgranted
    exact ⟨(hformed.trans (onTheWay_reaches hl' hn hp')).mono (by decide) (by decide) (by decide), fun hg =>
      hgranted (hg.of_rests hp hp' hformed.work (by rw [hzone]))⟩

/-! ### The purge left behind (R75, R102) -/

/-- A change out of COVERED releases the grant for a mode that would be chosen again. -/
theorem coverChange_chosen (hleft : (s.zones[z]).cover.state = .covered) (hc : next ≠ .covered) (hd : next ≠ .disabled)
    (he : s.enabled z = true) (hg : (s.zones[z]).arb.granted = .purge) :
    GrantChosen (s.coverChange z next cause index) z := by
  have hdriven := reaches_coverDriven s z next cause
  have hpurged : s.coverPurged z next cause = (s.coverDriven z next cause).purgeInactive z := by
    rw [coverPurged_of_driven]
    exact (if_neg hc).trans (if_pos hleft)
  have hnoticed := coverNoticed_of_purged s z next cause index
  rw [hpurged] at hnoticed
  have hchange := coverChange_eq (s := s) (z := z) (cause := cause) (index := index) hd
  rw [hleft, beq_self_eq_true] at hchange
  rw [hchange]
  generalize s.coverDriven z next cause = driven at hdriven hnoticed
  generalize s.coverNoticed z next cause index = noticed at hnoticed
  have hgranted : (driven.zones[z]).arb.granted = .purge :=
    (congrArg ArbRt.granted (hdriven.stands .arb (by decide))).trans hg
  have henabled : driven.enabled z = true := (enabled_of_work hdriven.work z).trans he
  have hrests : PurgeRests noticed z := by
    unfold PurgeRests
    rw [show _ = _ from hnoticed.stands .purge (by decide), purgeInactive_purge]
    exact .inr rfl
  have hstay : (noticed.zones[z]).arb = ((driven.purgeInactive z).zones[z]).arb := hnoticed.stands .arb (by decide)
  have hlast := takeDecision_rests hrests true
  have hrests' : PurgeRests (noticed.takeDecision z true) z := by
    unfold PurgeRests
    rw [show _ = _ from hlast.stands .purge (by decide)]
    exact hrests
  by_cases hrun : (driven.zones[z]).purge.state = .run
  · obtain ⟨hchosen, -, -⟩ := purgeInactive_release hrun henabled hgranted
    have hchosen' : GrantChosen noticed z := hchosen.stands (hnoticed.sameChoice (by decide) (by decide)) hstay
    exact hchosen'.of_rests hrests hrests' hlast.work (takeDecision_granted hchosen' true).1
  · have hidle : ((driven.purgeInactive z).zones[z]).arb = (driven.zones[z]).arb := by
      rw [purgeInactive_idle hrun]
      exact (reaches_updPurge _ _).stands .arb (by decide)
    have hpurge : (noticed.zones[z]).arb.granted = .purge := by rw [hstay, hidle]; exact hgranted
    have hzone : noticed.enabled z = true :=
      (enabled_of_work ((reaches_purgeInactive driven).work.trans hnoticed.work) z).trans henabled
    exact grantChosen_of_release (hlast.sameChoice (by decide) (by decide)) hrests hpurge
      (takeDecision_release hzone hpurge hrests).1

/-- A purge that has been left stays left on the covers' further way. -/
theorem LeavesCovered.onTheWay (h : LeavesCovered s t z) (hw : OneZoneWork z s t) (hr : Reaches z quietParts 1 2 t u)
    (hg : s.enabled z = true → (s.zones[z]).arb.granted = .purge →
      (u.zones[z]).arb.granted = (t.zones[z]).arb.granted ∧ (u.zones[z]).arb.lastCause = (t.zones[z]).arb.lastCause) :
    LeavesCovered s u z where
  purge := (show _ = _ from hr.stands .purge (by decide)).trans h.purge
  run hrun := (h.run hrun).between (Reaches.refl s) hr List.not_mem_nil List.not_mem_nil List.not_mem_nil (by decide) (by decide) hw
  rest hrest a ha := (hr.stands (.acts .purgeFan) (by decide) a (by rw [hw.acts]; exact ha)).trans (h.rest hrest a ha)
  released he hp := by
    obtain ⟨hgranted, hcause⟩ := hg he hp
    rw [hgranted, hcause]
    exact h.released he hp

/-- Only the drives have been formed before. -/
theorem LeavesCovered.of_formed (h : LeavesCovered (s.withFormed z) u z) : LeavesCovered s u z := by
  have hzone := withFormed_zone s z
  obtain ⟨hpurge, hrun, hrest, hreleased⟩ := h
  rw [hzone] at hrun hrest hreleased
  refine ⟨hpurge, fun hr => ?_, hrest, hreleased⟩
  obtain ⟨hfans, haccount⟩ := hrun hr
  rw [hzone] at haccount
  exact ⟨hfans, haccount⟩

theorem EntersWay.leaves (h : EntersWay s u z) (hleft : (s.zones[z]).cover.state = .covered) : LeavesCovered s u z := by
  obtain ⟨next, cause, index, hn, rfl | rfl⟩ := h
  · exact coverChange_leaves hleft (ne_covered_of_onTheWay hn) (ne_disabled_of_onTheWay hn)
  · exact (coverChange_leaves (by rw [withFormed_state]; exact hleft) (ne_covered_of_onTheWay hn)
      (ne_disabled_of_onTheWay hn)).of_formed

end OnTheWay

end Sys2Proof.Machine
end

section
/-! SUPPORT. The preparation of the covers: its take, what the scene's report at once leads to, and the purge left behind. -/

namespace Sys2Proof.Machine

section Preparation

variable {z : ZoneIx} {s t u : State} {prep : CoverState} {n : SceneIx}

/-! ### The change into a prep state (R86, R88) -/

/-- The zone in the prep state, before the scene's report. -/
def State.prepared (s : State) (z : ZoneIx) (prep : CoverState) : State := s.coverChange z prep .command noIndex

theorem enterPrep_eq (s : State) (z : ZoneIx) (prep : CoverState) :
    s.enterPrep z prep = (s.prepared z prep).coverScene z ((s.prepared z prep).zones[z]).scene.state := rfl

theorem prepared_work (s : State) (z : ZoneIx) (prep : CoverState) : OneZoneWork z s (s.prepared z prep) :=
  zoneWork_coverChange s z prep .command noIndex rfl

/-- The record with which a preparation begins (R85). -/
theorem enter_prep {r : CoverRt} (c : CoverCfg) (formed : List ActIx) (hp : prep.isPrep = true) :
    r.enter c false formed prep .command =
      { state := prep, reason := none, drives := r.drives, detectTimer := .stopped, prepTimer := .running (c.prep * 1000)
        motionTimer := .stopped, settleTimer := .stopped, lightingReady := false, workSceneTaken := true } := by
  rcases (isPrep_iff _).1 hp with rfl | rfl <;> rfl

theorem prepared_cover (hp : prep.isPrep = true) (hh : (s.zones[z]).held = false) : ((s.prepared z prep).zones[z]).cover =
    { state := prep, reason := none, drives := (s.zones[z]).cover.drives, detectTimer := .stopped
      prepTimer := .running ((s.cfg.zones[z]).cover.prep * 1000), motionTimer := .stopped, settleTimer := .stopped
      lightingReady := false, workSceneTaken := true } := by
  have hcover := coverChange_cover (s := s) (z := z) (cause := .command) (index := noIndex) (prep_ne_disabled hp)
  rw [hh, enter_prep _ _ hp] at hcover
  exact hcover

theorem prepared_state (hp : prep.isPrep = true) (hh : (s.zones[z]).held = false) :
    ((s.prepared z prep).zones[z]).cover.state = prep := congrArg CoverRt.state (prepared_cover hp hh)

theorem prepared_held (hp : prep.isPrep = true) : ((s.prepared z prep).zones[z]).held = (s.zones[z]).held :=
  ((reaches_coverRecorded s z prep .command).trans (coverChange_of_recorded (prep_ne_disabled hp))).held

theorem prepared_coverWork (hp : prep.isPrep = true) : ((s.prepared z prep).zones[z]).scene.coverWork = true := by
  refine (coverChange_coverWork (prep_ne_disabled hp)).trans ?_
  rcases (isPrep_iff _).1 hp with rfl | rfl <;> rfl

/-- The state at which a preparation takes its scene. -/
def State.prepPurged (s : State) (z : ZoneIx) (prep : CoverState) : State := s.coverPurged z prep .command

theorem prepPurged_reaches (s : State) (z : ZoneIx) (prep : CoverState) :
    Reaches z ([.cover, .scene, .coverWork, .acts .coverDrive] ++ decisionParts) 1 2 s (s.prepPurged z prep) :=
  (reaches_coverDriven s z prep .command).trans (reaches_coverPurgeStep _ z _ prep)

theorem prepPurged_state (s : State) (z : ZoneIx) (prep : CoverState) :
    ((s.prepPurged z prep).zones[z]).cover.state = prep := by
  have hcover : ((s.prepPurged z prep).zones[z]).cover = ((s.coverDriven z prep .command).zones[z]).cover :=
    (reaches_coverPurgeStep (s.coverDriven z prep .command) z (s.zones[z]).cover.state prep).stands .cover (by decide)
  rw [hcover]
  exact coverDriven_cover s z prep .command

/-- In the zone's record of its scene nothing follows the take but the arbiter's decision, which leaves it. -/
theorem prepared_taken (hp : prep.isPrep = true) (hn : (s.cfg.zones[z]).cover.coverWorkScene = some n) :
    Reaches z decisionParts 2 1 ((s.prepPurged z prep).takeScene z n .coverWork).1 (s.prepared z prep) := by
  have hscene : (s.cfg.zones[z]).cover.sceneOf prep = some (n, .coverWork) := by
    rcases (isPrep_iff _).1 hp with rfl | rfl <;> exact congrArg (Option.map fun n => (n, TakeOrigin.coverWork)) hn
  have htaken : (s.prepPurged z prep).coverSceneStep z prep = ((s.prepPurged z prep).takeScene z n .coverWork).1 := by
    unfold State.coverSceneStep
    rw [(prepPurged_reaches s z prep).work.zonesCfg, hscene]
  unfold State.prepared
  rw [coverChange_eq (prep_ne_disabled hp), ← htaken]
  exact (reaches_coverNoticeStep _ z _ prep .command noIndex).trans (reaches_takeDecision _ _)

theorem prepared_scene (hp : prep.isPrep = true) (hn : (s.cfg.zones[z]).cover.coverWorkScene = some n) :
    ((s.prepared z prep).zones[z]).scene = (((s.prepPurged z prep).takeScene z n .coverWork).1.zones[z]).scene :=
  (prepared_taken hp hn).stands .scene (by decide)

/-- The take of a preparation: the scene, its origin, and the time. -/
def WorkSceneTaken (s : State) (n : SceneIx) (e : SceneRt) : Prop :=
  e.scene = some n ∧ e.origin = some .coverWork ∧ e.takeTime = some s.now

theorem prepared_takes (hp : prep.isPrep = true) (hn : (s.cfg.zones[z]).cover.coverWorkScene = some n) :
    WorkSceneTaken s n ((s.prepared z prep).zones[z]).scene := by
  have hnow : (s.prepPurged z prep).now = s.now := (prepPurged_reaches s z prep).work.now
  have htaken := takeScene_taken (s.prepPurged z prep) z n .coverWork n rfl
  have hscene := prepared_scene hp hn
  generalize ((s.prepPurged z prep).takeScene z n .coverWork).1 = t at htaken hscene
  obtain ⟨hn', horigin, htime, -⟩ := htaken
  rw [hnow] at htime
  rw [hscene]
  exact ⟨hn', horigin, htime⟩

section Outcome

variable (hp : prep.isPrep = true) (hh : (s.zones[z]).held = false)
  (hn : (s.cfg.zones[z]).cover.coverWorkScene = some n)
include hp hh hn

theorem prepared_notIdle : ((s.prepared z prep).zones[z]).scene.state ≠ .idle := by
  have hstate := takeScene_state ((prepPurged_reaches s z prep).held.trans hh) n .coverWork
  have hscene := prepared_scene hp hn
  generalize ((s.prepPurged z prep).takeScene z n .coverWork).1 = t at hstate hscene
  rw [hscene]
  exact hstate

theorem prepared_empty (h0 : (s.cfg.headers[n]).cueCount = 0) : ((s.prepared z prep).zones[z]).scene.state = .complete := by
  have hbefore := prepPurged_reaches s z prep
  have hheaders : (s.prepPurged z prep).cfg.headers = s.cfg.headers := by rw [hbefore.work.cfg]
  have hstate := takeScene_empty (hbefore.held.trans hh) (n := n) (by rw [hheaders]; exact h0) .coverWork
  have hscene := prepared_scene hp hn
  generalize ((s.prepPurged z prep).takeScene z n .coverWork).1 = t at hstate hscene
  rw [hscene]
  exact hstate

theorem prepared_waits {run : CueRun} {ms : Nat}
    (hrun : run ∈ (s.updZone z fun r => { r with cover := { r.cover with state := prep } }).takeCues z n)
    (hr : run.status = .pending ms) (hms : 0 < ms) : ((s.prepared z prep).zones[z]).scene.state = .running := by
  have hbefore := prepPurged_reaches s z prep
  rw [← takeCues_congr hbefore.work (prepPurged_state s z prep)] at hrun
  have hstate := takeScene_waits (hbefore.held.trans hh) hrun hr hms .coverWork
  have hscene := prepared_scene hp hn
  generalize ((s.prepPurged z prep).takeScene z n .coverWork).1 = t at hstate hscene
  rw [hscene]
  exact hstate

end Outcome

/-! ### The scene's report at once (R89) -/

theorem isMotion_of_isPrep (hp : prep.isPrep = true) : prep.isMotion = false := by
  rcases (isPrep_iff _).1 hp with rfl | rfl <;> rfl

theorem enterPrep_waits (hw : ((s.prepared z prep).zones[z]).scene.state = .running ∨
    ((s.prepared z prep).zones[z]).scene.state = .settling) : s.enterPrep z prep = s.prepared z prep := by
  refine (enterPrep_eq s z prep).trans (coverScene_unused (.inr ?_))
  rcases hw with hw | hw <;> rw [hw] <;> exact ⟨SceneState.noConfusion, SceneState.noConfusion⟩

section Reported

variable (hp : prep.isPrep = true) (hh : (s.zones[z]).held = false)
  (hn : (s.cfg.zones[z]).cover.coverWorkScene = some n)
include hp hh hn

theorem enterPrep_moves (hw : ((s.prepared z prep).zones[z]).scene.state = .complete) :
    s.enterPrep z prep = (s.prepared z prep).enterMotion z prep.motionAfterPrep .lightingReady := by
  obtain ⟨-, horigin, -⟩ := prepared_takes hp hn
  have hstate := prepared_state hp hh
  have hmoves := coverScene_moves (s := s.prepared z prep) (z := z) (by rw [hstate]; exact (isPrep_iff _).1 hp) horigin
    ((prepared_held hp).trans hh)
  rw [hstate] at hmoves
  rw [enterPrep_eq, hw]
  exact hmoves

theorem enterPrep_fails (hw : ((s.prepared z prep).zones[z]).scene.state = .completeDegraded) :
    s.enterPrep z prep = (s.prepared z prep).enterFault z .lighting noIndex := by
  obtain ⟨-, horigin, -⟩ := prepared_takes hp hn
  rw [enterPrep_eq, hw]
  exact coverScene_reported (by rw [prepared_state hp hh]; exact (isPrep_iff _).1 hp) horigin _

/-- The preparation stands, or its report has led on into motion or FAULT. -/
theorem enterPrep_cases : s.enterPrep z prep = s.prepared z prep ∨ EntersWay (s.prepared z prep) (s.enterPrep z prep) z := by
  have hmotion : ((s.prepared z prep).zones[z]).cover.state.isMotion = false := by
    rw [prepared_state hp hh]
    exact isMotion_of_isPrep hp
  cases hw : ((s.prepared z prep).zones[z]).scene.state with
  | idle => exact absurd hw (prepared_notIdle hp hh hn)
  | running => exact .inl (enterPrep_waits (.inl hw))
  | settling => exact .inl (enterPrep_waits (.inr hw))
  | complete =>
    rw [enterPrep_moves hp hh hn hw]
    exact .inr (enterMotion_enters hmotion (motionAfterPrep_isMotion prep))
  | completeDegraded =>
    rw [enterPrep_fails hp hh hn hw]
    exact .inr (enterFault_enters hmotion .lighting noIndex)

/-- The report's way leaves the take, its outcome, and the ring's record of the preparation. -/
theorem enterPrep_scene : ∃ work,
    ((s.enterPrep z prep).zones[z]).scene = { ((s.prepared z prep).zones[z]).scene with coverWork := work } := by
  have hleft : ((s.prepared z prep).zones[z]).cover.state ≠ .covered := by
    rw [prepared_state hp hh]
    exact ne_covered_of_isPrep hp
  rcases enterPrep_cases hp hh hn with he | hway
  · rw [he]
    exact ⟨_, rfl⟩
  · exact (hway.reaches hleft).2

theorem enterPrep_recorded (hf : s.acct.frozen = false) :
    { time := s.now, zone := z, entry := .cover (s.zones[z]).cover.state prep .command } ∈ (s.enterPrep z prep).acct.ring := by
  have hleft : ((s.prepared z prep).zones[z]).cover.state ≠ .covered := by
    rw [prepared_state hp hh]
    exact ne_covered_of_isPrep hp
  have hrecent := coverChange_recent (s := s) (z := z) (cause := .command) (index := noIndex) (prep_ne_disabled hp) hf
  rcases enterPrep_cases hp hh hn with he | hway
  · rw [he]
    exact hrecent.mem
  · exact ((hway.reaches hleft).1.ring _ 3 hrecent (by decide)).mem

theorem enterPrep_leaves (hl : (s.zones[z]).cover.state = .covered) : LeavesCovered s (s.enterPrep z prep) z := by
  have hd := prep_ne_disabled hp
  have hc := ne_covered_of_isPrep hp
  have hleaves : LeavesCovered s (s.prepared z prep) z := coverChange_leaves hl hc hd
  rcases enterPrep_cases hp hh hn with he | hway
  · rw [he]
    exact hleaves
  · have hrests : PurgeRests (s.prepared z prep) z := by
      unfold PurgeRests
      rw [hleaves.purge]
      exact .inr rfl
    obtain ⟨hquiet, hgranted⟩ := hway.quiet (by rw [prepared_state hp hh]; exact hc) hrests
    exact hleaves.onTheWay (prepared_work s z prep) hquiet fun he hg => hgranted (coverChange_chosen hl hc hd he hg)

end Reported

/-! ### The drive check before and after the preparation (R90) -/

theorem SameButQueued.control {r r' : ActRt} (h : SameButQueued r r') : r'.control = r.control := by rw [h.record]

theorem SameButQueued.health {r r' : ActRt} (h : SameButQueued r r') : r'.health = r.health := by rw [h.record]

theorem OneZoneWork.drivesReady (hw : OneZoneWork z s t) : DrivesReady t z ↔ DrivesReady s z := by
  have hcfg : t.cfg.acts = s.cfg.acts := hw.acts
  unfold DrivesReady
  rw [hw.sameDrives.formDrives, hcfg]
  simp only [(hw.record _).control, (hw.record _).health]

theorem CoversMove.after {motion : CoverState} {v : Int} {b : Bool} (h : CoversMove t u z motion v b) (hw : OneZoneWork z s t) :
    CoversMove s u z motion v b := by
  obtain ⟨hcover, hrequested⟩ := h
  rw [hw.sameDrives.formDrives, hw.zonesCfg] at hcover
  rw [hw.sameDrives.formDrives] at hrequested
  exact ⟨hcover, hrequested⟩

/-! ### What an accepted preparation leaves -/

/-- The covers are in preparation, or have gone on as the scene's outcome at its take tells (R86, R88 to R90). -/
structure CoversPrepared (s u : State) (z : ZoneIx) (prep : CoverState) (n : SceneIx) : Prop where
  taken : WorkSceneTaken s n (u.zones[z]).scene
  notIdle : (u.zones[z]).scene.state ≠ .idle
  record : s.acct.frozen = false →
    { time := s.now, zone := z, entry := .cover (s.zones[z]).cover.state prep .command } ∈ u.acct.ring
  waits : (u.zones[z]).scene.state = .running ∨ (u.zones[z]).scene.state = .settling →
    (u.zones[z]).scene.coverWork = true ∧ (u.zones[z]).cover =
      { state := prep, reason := none, drives := (s.zones[z]).cover.drives, detectTimer := .stopped
        prepTimer := .running ((s.cfg.zones[z]).cover.prep * 1000), motionTimer := .stopped, settleTimer := .stopped
        lightingReady := false, workSceneTaken := true }
  moves : (u.zones[z]).scene.state = .complete → DrivesReady s z → (u.zones[z]).scene.coverWork = true ∧
    CoversMove s u z prep.motionAfterPrep (motionValue prep.motionAfterPrep) true
  refused : (u.zones[z]).scene.state = .complete → ¬ DrivesReady s z →
    (u.zones[z]).cover.state = .fault ∧ (u.zones[z]).cover.reason = some .drive
  degraded : (u.zones[z]).scene.state = .completeDegraded →
    (u.zones[z]).cover.state = .fault ∧ (u.zones[z]).cover.reason = some .lighting
  empty : (s.cfg.headers[n]).cueCount = 0 → (u.zones[z]).scene.state = .complete
  delayed : (∃ run ∈ (s.updZone z fun r => { r with cover := { r.cover with state := prep } }).takeCues z n, ∃ ms,
    run.status = .pending ms ∧ 0 < ms) → (u.zones[z]).scene.state = .running

/-- Motion after a preparation keeps the mark of its scene (R85). -/
theorem prepared_moves (hp : prep.isPrep = true) (hh : (s.zones[z]).held = false) (hready : DrivesReady s z) :
    CoversMove s ((s.prepared z prep).enterMotion z prep.motionAfterPrep .lightingReady) z prep.motionAfterPrep
      (motionValue prep.motionAfterPrep) true := by
  have hwork := prepared_work s z prep
  have hmoves := enterMotion_moves (s := s.prepared z prep) (z := z) (cause := .lightingReady) (motionAfterPrep_isMotion prep)
    (by rw [prepared_state hp hh]; exact hp) ((prepared_held hp).trans hh) (hwork.drivesReady.2 hready) rfl
  rw [show ((s.prepared z prep).zones[z]).cover.workSceneTaken = true from
    congrArg CoverRt.workSceneTaken (prepared_cover hp hh)] at hmoves
  exact hmoves.after hwork

theorem enterMotion_coverWork {motion : CoverState} {cause : CoverCause} (hm : motion.isMotion = true) (hready : DrivesReady s z) :
    ((s.enterMotion z motion cause).zones[z]).scene.coverWork = true := by
  rw [enterMotion_ready hready]
  refine (coverChange_coverWork (ne_disabled_of_onTheWay (motion_onTheWay hm))).trans ?_
  rcases (isMotion_iff _).1 hm with rfl | rfl <;> rfl

theorem enterPrep_prepared (hp : prep.isPrep = true) (hh : (s.zones[z]).held = false)
    (hn : (s.cfg.zones[z]).cover.coverWorkScene = some n) : CoversPrepared s (s.enterPrep z prep) z prep n := by
  obtain ⟨work, hscene⟩ := enterPrep_scene hp hh hn
  have hstate : ((s.enterPrep z prep).zones[z]).scene.state = ((s.prepared z prep).zones[z]).scene.state := by rw [hscene]
  have htakes := prepared_takes hp hn
  have hready := (prepared_work s z prep).drivesReady
  exact {
    taken := by
      rw [hscene]
      exact htakes
    notIdle := hstate ▸ prepared_notIdle hp hh hn
    record := enterPrep_recorded hp hh hn
    waits := fun hw => by
      rw [hstate] at hw
      rw [enterPrep_waits hw]
      exact ⟨prepared_coverWork hp, prepared_cover hp hh⟩
    moves := fun hw hr => by
      rw [hstate] at hw
      rw [enterPrep_moves hp hh hn hw]
      exact ⟨enterMotion_coverWork (motionAfterPrep_isMotion prep) (hready.2 hr), prepared_moves hp hh hr⟩
    refused := fun hw hr => by
      rw [hstate] at hw
      rw [enterPrep_moves hp hh hn hw]
      exact (enterMotion_refused (mt hready.1 hr)).fault
    degraded := fun hw => by
      rw [hstate] at hw
      rw [enterPrep_fails hp hh hn hw, (enterFault_fails (s.prepared z prep) z .lighting noIndex).rests.cover]
      exact ⟨rfl, rfl⟩
    empty := fun h0 => hstate.trans (prepared_empty hp hh hn h0)
    delayed := fun ⟨_, hrun, _, hr, hms⟩ => hstate.trans (prepared_waits hp hh hn hrun hr hms) }

theorem CoversPrepared.states (h : CoversPrepared s u z prep n) : (u.zones[z]).cover.state = prep ∨
    (u.zones[z]).cover.state = prep.motionAfterPrep ∨ (u.zones[z]).cover.state = .fault := by
  cases hw : (u.zones[z]).scene.state with
  | idle => exact absurd hw h.notIdle
  | running => exact .inl (by rw [(h.waits (.inl hw)).2])
  | settling => exact .inl (by rw [(h.waits (.inr hw)).2])
  | completeDegraded => exact .inr (.inr (h.degraded hw).1)
  | complete =>
    by_cases hr : DrivesReady s z
    · exact .inr (.inl (by rw [(h.moves hw hr).2.cover]))
    · exact .inr (.inr (h.refused hw hr).1)

end Preparation

end Sys2Proof.Machine
end

section
/-! SUPPORT. CLOSE_COVERS, OPEN_COVERS and CLEAR_FAULT, and the obligation about them. -/

namespace Sys2Proof.Machine

/-! ### The checks of the cover moves (R88, R169) -/

section Checks

variable {s : State} {c : Channel} {t : Telegram} {z : ZoneIx} {action force : Byte}

theorem force_iff : (force.toNat == 1) = true ↔ force = 1 := by
  rw [beq_iff_eq, ← BitVec.toNat_inj]
  rfl

/-- A cover move with FORCE is not for the trunk. -/
theorem zoneChecked_move (h : NextIs s c t 4 [BitVec.ofNat 8 z, action, force]) (hf : force.toNat ≤ 1)
    (ha : action.toNat = 2 ∨ action.toNat = 3) (effect : ZoneIx → Bool → State → Answer) (u : State) :
    zoneChecked effect (.of c t) u =
      if force.toNat = 1 ∧ c = .trunk ∧ (action.toNat = 2 ∨ action.toNat = 3) then u.refuse .badValue
      else effect z (force.toNat == 1) u := by
  have hz : (Request.of c t).param 0 = (BitVec.ofNat 8 z.val : Byte).toNat := request_param h.payload 0
  have hact : (Request.of c t).param 1 = action.toNat := request_param h.payload 1
  have hforce : (Request.of c t).param 2 = force.toNat := request_param h.payload 2
  unfold zoneChecked
  rw [hz, hact, hforce, asIndex_byte z (by decide)]
  dsimp only
  rw [if_neg (by omega : ¬ (6 < action.toNat ∨ 1 < force.toNat))]
  refine if_congr Iff.rfl rfl (if_neg ?_)
  rintro ⟨-, hlow, -⟩
  omega

theorem serve_move_trunk (h : NextIs s .trunk t 4 [BitVec.ofNat 8 z, action, force]) (hf : force = 1)
    (ha : action.toNat = 2 ∨ action.toNat = 3) {row : Instr} (hrow : zoneCommandRow action.toNat = row)
    (effect : ZoneIx → Bool → State → Answer) :
    s.serve row (zoneChecked effect) = (s.taken .trunk).replied .trunk t 4 .badValue [] := by
  subst hf
  rw [serve_zoneCommand h hrow, zoneChecked_move h (by decide) ha, if_pos ⟨rfl, rfl, ha⟩]
  exact reply_now _ rfl h.payload

theorem serve_move (h : NextIs s c t 4 [BitVec.ofNat 8 z, action, force]) (hf : force.toNat ≤ 1)
    (ha : action.toNat = 2 ∨ action.toNat = 3) (ho : c = .service ∨ force = 0) {row : Instr}
    (hrow : zoneCommandRow action.toNat = row) (effect : ZoneIx → Bool → State → Answer) :
    s.serve row (zoneChecked effect) = (effect z (force.toNat == 1) (s.taken c)).reply (.of c t) := by
  rw [serve_zoneCommand h hrow, zoneChecked_move h hf ha, if_neg]
  rintro ⟨hforce, rfl, -⟩
  rcases ho with ho | rfl
  · cases ho
  · cases hforce

end Checks

/-! ### A cover move at once (R88, R90) -/

section Direct

variable {z : ZoneIx} {s : State} {prep motion : CoverState} {force : Bool}

/-- FORCE, or a zone without a cover-work scene. -/
def MovesDirectly (s : State) (z : ZoneIx) (force : Bool) : Prop :=
  force = true ∨ (s.cfg.zones[z]).cover.coverWorkScene = none

theorem moveCovers_direct (h : MovesDirectly s z force) : ∃ cause : CoverCause, cause.reason = none ∧
    s.moveCovers z force prep motion = s.enterMotion z motion cause := by
  unfold State.moveCovers
  cases force with
  | true => exact ⟨.forced, rfl, rfl⟩
  | false => exact ⟨.lightingReady, rfl, if_pos (Option.isNone_iff_eq_none.2 (h.resolve_left Bool.false_ne_true))⟩

theorem moveCovers_prepares (h : ¬ MovesDirectly s z force) : s.moveCovers z force prep motion = s.enterPrep z prep := by
  obtain ⟨hforce, hscene⟩ := not_or.1 h
  unfold State.moveCovers
  rw [if_neg hforce, if_neg (mt Option.isNone_iff_eq_none.1 hscene)]

/-- Covers that stand where a cover move is accepted, in a zone that is not held. -/
structure MayMove (s : State) (z : ZoneIx) : Prop where
  state : (s.zones[z]).cover.state = .openIdle ∨ (s.zones[z]).cover.state = .covered
  free : (s.zones[z]).held = false

theorem MayMove.not_motion (h : MayMove s z) : (s.zones[z]).cover.state.isMotion = false := by
  rcases h.state with h | h <;> rw [h] <;> rfl

theorem MayMove.not_prep (h : MayMove s z) : (s.zones[z]).cover.state.isPrep = false := by
  rcases h.state with h | h <;> rw [h] <;> rfl

theorem moveCovers_work (s : State) (z : ZoneIx) (force : Bool) (prep motion : CoverState) :
    OneZoneWork z s (s.moveCovers z force prep motion) := by
  by_cases h : MovesDirectly s z force
  · obtain ⟨cause, -, he⟩ := moveCovers_direct (prep := prep) (motion := motion) h
    rw [he]
    exact zoneWork_enterMotion s z motion cause rfl
  · rw [moveCovers_prepares h]
    exact zoneWork_enterPrep s z prep rfl

theorem moveCovers_moves (h : MayMove s z) (hd : MovesDirectly s z force) (hm : motion.isMotion = true) (hr : DrivesReady s z) :
    CoversMove s (s.moveCovers z force prep motion) z motion (motionValue motion) false := by
  obtain ⟨cause, hc, he⟩ := moveCovers_direct (prep := prep) (motion := motion) hd
  rw [he]
  exact enterMotion_direct hm h.not_prep h.free hr hc

theorem moveCovers_refused (hd : MovesDirectly s z force) (hr : ¬ DrivesReady s z) :
    ((s.moveCovers z force prep motion).zones[z]).cover.state = .fault ∧
    ((s.moveCovers z force prep motion).zones[z]).cover.reason = some .drive := by
  obtain ⟨cause, -, he⟩ := moveCovers_direct (prep := prep) (motion := motion) hd
  rw [he]
  exact (enterMotion_refused hr).fault

theorem moveCovers_prepared {n : SceneIx} (h : MayMove s z) (hd : ¬ MovesDirectly s z force) (hp : prep.isPrep = true)
    (hn : (s.cfg.zones[z]).cover.coverWorkScene = some n) :
    CoversPrepared s (s.moveCovers z force prep motion) z prep n := by
  rw [moveCovers_prepares hd]
  exact enterPrep_prepared hp h.free hn

theorem moveCovers_leaves (h : MayMove s z) (hp : prep.isPrep = true) (hm : motion.isMotion = true)
    (hl : (s.zones[z]).cover.state = .covered) : LeavesCovered s (s.moveCovers z force prep motion) z := by
  by_cases hd : MovesDirectly s z force
  · obtain ⟨cause, -, he⟩ := moveCovers_direct (prep := prep) (motion := motion) hd
    rw [he]
    exact (enterMotion_enters h.not_motion hm).leaves hl
  · obtain ⟨n, hn⟩ := Option.ne_none_iff_exists'.1 (not_or.1 hd).2
    rw [moveCovers_prepares hd]
    exact enterPrep_leaves hp h.free hn hl

end Direct

/-! ### CLEAR_FAULT (R87, R88) -/

section Clearing

variable {s : State} {z : ZoneIx} {cause : CoverCause}

/-- The zone in DETECT, before the position is judged. -/
def State.detecting (s : State) (z : ZoneIx) (cause : CoverCause) : State := s.coverChange z .detect cause noIndex

theorem enterDetect_eq (s : State) (z : ZoneIx) (cause : CoverCause) :
    s.enterDetect z cause = (s.detecting z cause).judgePosition z := rfl

theorem detecting_sameDrives (s : State) (z : ZoneIx) (cause : CoverCause) : SameDrives s (s.detecting z cause) :=
  ZoneWork.sameDrives (zs := fun w => w = z) (zoneWork_coverChange s z .detect cause noIndex rfl)

theorem detecting_cover (hc : cause.reason = none) : ((s.detecting z cause).zones[z]).cover = s.detectingCover z :=
  (coverChange_cover (by decide)).trans (enter_detect _ _ _ _ cause hc)

/-- The record of covers whose rest the judgement found. -/
theorem found_cover {next : CoverState} (hc : cause.reason = none) (hn : next = .covered ∨ next = .openIdle)
    (hj : (s.detecting z cause).judgePosition z = (s.detecting z cause).coverChange z next .positionFound noIndex) :
    ((s.enterDetect z cause).zones[z]).cover = { s.detectingCover z with state := next, detectTimer := .stopped } := by
  have hrests := coverChange_rests (s := s.detecting z cause) (z := z) (cause := .positionFound) (index := noIndex)
    (hn.imp_right .inl)
  have hcover := hrests.cover
  rw [detecting_cover hc] at hcover
  rw [enterDetect_eq, hj]
  exact hcover

theorem enterDetect_open (hc : cause.reason = none)
    (ho : s.formDrives z = [] ∨ (¬ AllClosed s z (s.formDrives z) ∧ AllOpen s z (s.formDrives z))) :
    ((s.enterDetect z cause).zones[z]).cover = { s.detectingCover z with state := .openIdle, detectTimer := .stopped } := by
  have hcover := detecting_cover (s := s) (z := z) hc
  have hsame := detecting_sameDrives s z cause
  refine found_cover hc (.inr rfl) (judgePosition_open (by rw [hcover]; rfl) ?_)
  rw [hcover, hsame.allClosed, hsame.allOpen]
  exact ho

theorem enterDetect_closed (hc : cause.reason = none) (hne : s.formDrives z ≠ []) (hclosed : AllClosed s z (s.formDrives z)) :
    ((s.enterDetect z cause).zones[z]).cover = { s.detectingCover z with state := .covered, detectTimer := .stopped } := by
  have hcover := detecting_cover (s := s) (z := z) hc
  have hjudged := judgePosition_detect (s := s.detecting z cause) (z := z) (by rw [hcover]; rfl) (by rw [hcover]; exact hne)
  refine found_cover hc (.inl rfl) (hjudged.1 ?_)
  rw [hcover, (detecting_sameDrives s z cause).allClosed]
  exact hclosed

theorem enterDetect_stays (hc : cause.reason = none) (hclosed : ¬ AllClosed s z (s.formDrives z))
    (hopen : ¬ AllOpen s z (s.formDrives z)) : ((s.enterDetect z cause).zones[z]).cover = s.detectingCover z := by
  have hcover := detecting_cover (s := s) (z := z) hc
  have hsame := detecting_sameDrives s z cause
  have hstays : (s.detecting z cause).judgePosition z = s.detecting z cause := by
    refine judgePosition_stays (by rw [hcover]; rfl) ?_ ?_
    · rw [hcover, hsame.allClosed]
      exact hclosed
    · rw [hcover, hsame.allOpen]
      exact hopen
  rw [enterDetect_eq, hstays]
  exact hcover

/-- What entry into DETECT leaves in the covers' record: the ends of the working drives decide. -/
theorem enterDetect_cover (hc : cause.reason = none) : ∃ next timer,
    ((s.enterDetect z cause).zones[z]).cover = { s.detectingCover z with state := next, detectTimer := timer } ∧
    (next = .detect ∨ next = .openIdle ∨ next = .covered) ∧
    (s.formDrives z = [] → next = .openIdle) ∧
    (s.formDrives z ≠ [] → AllClosed s z (s.formDrives z) → next = .covered) ∧
    (¬ AllClosed s z (s.formDrives z) → AllOpen s z (s.formDrives z) → next = .openIdle) ∧
    (¬ AllClosed s z (s.formDrives z) → ¬ AllOpen s z (s.formDrives z) →
      next = .detect ∧ timer = .running ((s.cfg.zones[z]).cover.detect * 1000)) := by
  by_cases hne : s.formDrives z = []
  · have hclosed : AllClosed s z (s.formDrives z) := by
      rw [hne]
      exact fun _ ha => absurd ha List.not_mem_nil
    exact ⟨_, _, enterDetect_open hc (.inl hne), .inr (.inl rfl), fun _ => rfl, fun h => absurd hne h,
      fun h => absurd hclosed h, fun h => absurd hclosed h⟩
  · by_cases hclosed : AllClosed s z (s.formDrives z)
    · exact ⟨_, _, enterDetect_closed hc hne hclosed, .inr (.inr rfl), fun h => absurd h hne, fun _ _ => rfl,
        fun h => absurd hclosed h, fun h => absurd hclosed h⟩
    · by_cases hopen : AllOpen s z (s.formDrives z)
      · exact ⟨_, _, enterDetect_open hc (.inr ⟨hclosed, hopen⟩), .inr (.inl rfl), fun _ => rfl,
          fun _ h => absurd h hclosed, fun _ _ => rfl, fun _ h => absurd hopen h⟩
      · exact ⟨.detect, .running _, enterDetect_stays hc hclosed hopen, .inl rfl, fun h => absurd h hne,
          fun _ h => absurd h hclosed, fun _ h => absurd h hopen, fun _ _ => ⟨rfl, rfl⟩⟩

end Clearing

/-! ### The working drives (R84) -/

/-- The drives formed are the two lowest of the zone's cover drives that a contact names. -/
theorem formDrives_lowest (s : State) (z : ZoneIx) : ∃ l : List ActIx, l.Pairwise (· < ·) ∧ s.formDrives z = l.take 2 ∧
    ∀ a, a ∈ l ↔ DriveOf s z a ∧ ∃ p, NamesDrive s z .coverClosed a p ∨ NamesDrive s z .coverOpen a p := by
  refine ⟨_, (List.pairwise_lt_finRange 96).filter _, rfl, fun a => ?_⟩
  rw [List.mem_filter, and_iff_right (List.mem_finRange a), Bool.and_eq_true, isDriveOf_iff, List.any_eq_true]
  simp only [mem_indices, true_and, Bool.or_eq_true, contactNames_iff]

/-! ### On the state from which the request has been taken -/

section Taken

variable {s u : State} {z : ZoneIx} {c : Channel} {force : Bool}

theorem taken_acts (s : State) (c : Channel) : (s.taken c).acts = s.acts := by cases c <;> rfl

theorem taken_mayMove : MayMove (s.taken c) z ↔ MayMove s z := by
  constructor
  · rintro ⟨hstate, hfree⟩
    rw [taken_zones] at hstate hfree
    exact ⟨hstate, hfree⟩
  · rintro ⟨hstate, hfree⟩
    exact ⟨by rw [taken_zones]; exact hstate, by rw [taken_zones]; exact hfree⟩

theorem taken_movesDirectly : MovesDirectly (s.taken c) z force ↔ MovesDirectly s z force := by
  unfold MovesDirectly
  rw [taken_cfg]

theorem taken_drivesReady : DrivesReady (s.taken c) z ↔ DrivesReady s z := by
  unfold DrivesReady
  rw [(taken_sameDrives s c).formDrives, taken_acts, taken_cfg]

theorem LeavesCovered.of_taken (h : LeavesCovered (s.taken c) u z) : LeavesCovered s u z := by
  obtain ⟨hpurge, hrun, hrest, hreleased⟩ := h
  unfold FansStand at hrest
  rw [taken_zones] at hrun hrest hreleased
  rw [taken_acts, taken_cfg] at hrest
  rw [taken_enabled] at hreleased
  exact ⟨hpurge, fun hr => (hrun hr).of_taken, hrest, hreleased⟩

theorem CoversMove.of_taken {motion : CoverState} {v : Int} {b : Bool} (h : CoversMove (s.taken c) u z motion v b) :
    CoversMove s u z motion v b := by
  obtain ⟨hcover, hrequested⟩ := h
  rw [(taken_sameDrives s c).formDrives, taken_cfg] at hcover
  rw [(taken_sameDrives s c).formDrives] at hrequested
  exact ⟨hcover, hrequested⟩

theorem taken_takeCues (s : State) (c : Channel) (z : ZoneIx) (prep : CoverState) (n : SceneIx) :
    ((s.taken c).updZone z fun r => { r with cover := { r.cover with state := prep } }).takeCues z n =
      (s.updZone z fun r => { r with cover := { r.cover with state := prep } }).takeCues z n := by
  cases c <;> rfl

theorem CoversPrepared.of_taken {prep : CoverState} {n : SceneIx} (h : CoversPrepared (s.taken c) u z prep n) :
    CoversPrepared s u z prep n where
  taken := by
    have htaken := h.taken
    unfold WorkSceneTaken at htaken
    rwa [taken_now] at htaken
  notIdle := h.notIdle
  record hf := by
    have hrecord := h.record (by rw [taken_acct]; exact hf)
    rwa [taken_now, taken_zones] at hrecord
  waits hw := by
    have hwaits := h.waits hw
    rwa [taken_cfg, taken_zones] at hwaits
  moves hw hr := (h.moves hw (taken_drivesReady.2 hr)).imp_right CoversMove.of_taken
  refused hw hr := h.refused hw (mt taken_drivesReady.1 hr)
  degraded := h.degraded
  empty h0 := h.empty (by rw [taken_cfg]; exact h0)
  delayed hd := h.delayed (by rw [taken_takeCues]; exact hd)

end Taken

/-! ### The commands -/

section Commands

variable {s : State} {c : Channel} {t : Telegram} {z : ZoneIx} {force : Byte}

theorem exec_closeCovers (h : NextIs s c t 4 [BitVec.ofNat 8 z, 2, force]) (hf : force.toNat ≤ 1) (ho : c = .service ∨ force = 0)
    (hs : (s.zones[z]).cover.state = .openIdle) (hh : (s.zones[z]).held = false) (hd : (s.zones[z]).cover.drives ≠ []) :
    exec .closeCovers s = .next
      (((s.taken c).moveCovers z (force.toNat == 1) .prepClose .deploying).replied c t 4 .done []) := by
  refine congrArg Host.Outcome.next ((serve_move h hf (.inl rfl) ho rfl _).trans ?_)
  rw [taken_zones, if_neg (not_or.2 ⟨not_not_intro hs, by rw [hh]; exact Bool.false_ne_true⟩), if_neg]
  · exact reply_now _ rfl h.payload
  · unfold State.drives
    rw [taken_zones]
    exact mt List.isEmpty_iff.1 hd

theorem exec_openCovers (h : NextIs s c t 4 [BitVec.ofNat 8 z, 3, force]) (hf : force.toNat ≤ 1) (ho : c = .service ∨ force = 0)
    (hs : (s.zones[z]).cover.state = .covered) (hh : (s.zones[z]).held = false) :
    exec .openCovers s = .next
      (((s.taken c).moveCovers z (force.toNat == 1) .prepOpen .retracting).replied c t 4 .done []) := by
  refine congrArg Host.Outcome.next ((serve_move h hf (.inr rfl) ho rfl _).trans ?_)
  rw [taken_zones, if_neg (not_or.2 ⟨not_not_intro hs, by rw [hh]; exact Bool.false_ne_true⟩)]
  exact reply_now _ rfl h.payload

theorem exec_clearFault (h : NextIs s c t 4 [BitVec.ofNat 8 z, 4, force]) (hf : force.toNat ≤ 1)
    (hs : (s.zones[z]).cover.state = .fault) :
    exec .clearFault s = .next (((s.taken c).enterDetect z .cleared).replied c t 4 .done []) := by
  refine congrArg Host.Outcome.next ((serve_zoneCommand h rfl _).trans ?_)
  rw [zoneChecked_plain h hf (by decide) (by decide), taken_zones, if_pos hs]
  generalize (s.taken c).enterDetect z .cleared = u
  exact reply_now u.done rfl h.payload

theorem exec_clearFault_refused (h : NextIs s c t 4 [BitVec.ofNat 8 z, 4, force]) (hf : force.toNat ≤ 1)
    (hs : (s.zones[z]).cover.state ≠ .fault) :
    exec .clearFault s = .next ((s.taken c).replied c t 4 .wrongState []) := by
  refine congrArg Host.Outcome.next ((serve_zoneCommand h rfl _).trans ?_)
  rw [zoneChecked_plain h hf (by decide) (by decide), taken_zones, if_neg hs]
  exact reply_now _ rfl h.payload

end Commands

/-- Settles O51: the checks, the moves at once and by the preparation, and the way out of FAULT. -/
theorem coverCommandsAct : Obligations.CoverCommandsAct := by
  intro s c t z force hforce cover direct ready refused accepted
  have hdirect : direct ↔ MovesDirectly (s.taken c) z (force.toNat == 1) :=
    (or_congr_left force_iff.symm).trans taken_movesDirectly.symm
  have haccepted (cmd : Instr) (prep : CoverState) (hp : prep.isPrep = true) (hmay : MayMove s z)
      (hexec : exec cmd s = .next
        (((s.taken c).moveCovers z (force.toNat == 1) prep prep.motionAfterPrep).replied c t 4 .done [])) :
      accepted cmd prep prep.motionAfterPrep (motionValue prep.motionAfterPrep) := by
    have hm := motionAfterPrep_isMotion prep
    have hmay' : MayMove (s.taken c) z := taken_mayMove.2 hmay
    have hprepared {n : SceneIx} (hd : ¬ direct) (hn : (s.cfg.zones[z]).cover.coverWorkScene = some n) :=
      (moveCovers_prepared (motion := prep.motionAfterPrep) hmay' (mt hdirect.2 hd) hp (by rw [taken_cfg]; exact hn)).of_taken
    refine ⟨_, hexec, moveCovers_work .., fun hl => ?_, fun hd hr => ?_, fun hd hr => ?_, fun hd => ?_, fun n hd hn => ?_⟩
    · exact (moveCovers_leaves hmay' hp hm (by rw [taken_zones]; exact hl)).of_taken
    · obtain ⟨hcover, hrequested⟩ := (moveCovers_moves (prep := prep) hmay' (hdirect.1 hd) hm (taken_drivesReady.2 hr)).of_taken
      exact ⟨hcover, hrequested⟩
    · exact moveCovers_refused (hdirect.1 hd) (mt taken_drivesReady.1 hr)
    · obtain ⟨n, hn⟩ := Option.ne_none_iff_exists'.1 (not_or.1 hd).2
      exact (hprepared hd hn).states
    · obtain ⟨⟨hscene, horigin, htime⟩, hidle, hrecord, hwaits, hmoves, hrefused, hdegraded, hempty, hdelayed⟩ :=
        hprepared hd hn
      exact ⟨hscene, horigin, htime, hidle, hrecord, hwaits, hmoves, hrefused, hdegraded, hempty, hdelayed⟩
  refine ⟨fun h => ⟨fun hc hf => ?_, fun ho => ⟨fun hs => ?_, fun hs hh hd => ?_, fun hs hh hd => ?_⟩⟩,
    fun h => ⟨fun hc hf => ?_, fun ho => ⟨fun hs => ?_, fun hs hh => ?_⟩⟩,
    fun h => ⟨exec_clearFault_refused h hforce, fun hs => ⟨_, exec_clearFault h hforce hs, ?_⟩⟩, formDrives_lowest s z⟩
  · subst hc
    exact congrArg Host.Outcome.next (serve_move_trunk h hf (.inl rfl) rfl _)
  · refine congrArg Host.Outcome.next ((serve_move h hforce (.inl rfl) ho rfl _).trans ?_)
    rw [taken_zones, if_pos hs]
    exact reply_now _ rfl h.payload
  · refine congrArg Host.Outcome.next ((serve_move h hforce (.inl rfl) ho rfl _).trans ?_)
    rw [taken_zones, if_neg (not_or.2 ⟨not_not_intro hs, by rw [hh]; exact Bool.false_ne_true⟩), if_pos]
    · exact reply_now _ rfl h.payload
    · unfold State.drives
      rw [taken_zones]
      exact List.isEmpty_iff.2 hd
  · exact haccepted .closeCovers .prepClose rfl ⟨.inl hs, hh⟩ (exec_closeCovers h hforce ho hs hh hd)
  · subst hc
    exact congrArg Host.Outcome.next (serve_move_trunk h hf (.inr rfl) rfl _)
  · refine congrArg Host.Outcome.next ((serve_move h hforce (.inr rfl) ho rfl _).trans ?_)
    rw [taken_zones, if_pos hs]
    exact reply_now _ rfl h.payload
  · exact haccepted .openCovers .prepOpen rfl ⟨.inr hs, hh⟩ (exec_openCovers h hforce ho hs hh)
  · obtain ⟨next, timer, hcover, hstate, hnone, hclosed, hopen, hdetect⟩ :=
      enterDetect_cover (s := s.taken c) (z := z) (cause := .cleared) rfl
    have hwork : OneZoneWork z (s.taken c) ((s.taken c).enterDetect z .cleared) := zoneWork_enterDetect _ z _ rfl
    have hsame := taken_sameDrives s c
    generalize (s.taken c).enterDetect z .cleared = u at hcover hwork
    rw [taken_detectingCover] at hcover
    rw [hsame.formDrives] at hnone hclosed hopen hdetect
    rw [hsame.allClosed] at hclosed hopen hdetect
    rw [hsame.allOpen] at hopen hdetect
    rw [taken_cfg] at hdetect
    rw [hcover]
    exact ⟨hwork, hstate, rfl, rfl, hnone, hclosed, hopen, hdetect⟩

end Sys2Proof.Machine
end

section
/-! SUPPORT. The job arbiter: the tag, the winner and the dispatch. -/

namespace Sys2Proof.Machine

variable {s : State} {j : Job} {t : Tag} {a : ActIx}

/-! ### The tag (R135 step 1) -/

theorem tagHeld_iff : s.tagHeld t = true ↔ ∃ o ∈ s.disp.outstanding, o.tag = t := by
  simp [State.tagHeld]

theorem nextTag_none (h : ∀ t : Tag, ∃ o ∈ s.disp.outstanding, o.tag = t) : s.nextTag = none := by
  have hheld (t : Tag) : s.tagHeld t = true := tagHeld_iff.2 (h t)
  simp [State.nextTag, hheld]

theorem nextTag_free (h : NextFreeTag s t) : s.nextTag = some t := by
  obtain ⟨i, rfl, hfree, hheld⟩ := h
  have hi : (indices 16).find? (fun i => !s.tagHeld (s.disp.lastTag + 1 + i)) = some i := by
    refine List.find?_eq_some_iff_getElem.2 ⟨?_, i.val, by simp [indices], by simp [indices], fun k hk => ?_⟩
    · rw [Bool.not_eq_true', Bool.eq_false_iff, ne_eq, tagHeld_iff]
      exact fun ⟨o, ho, he⟩ => hfree o ho he
    · have := tagHeld_iff.2 (hheld ⟨k, by omega⟩ hk)
      simpa [indices] using this
  rw [State.nextTag, List.find?_map]
  exact congrArg _ hi

/-! ### The winner (R134) -/

theorem competes_iff : s.competes j = true ↔ Competes s j := by
  simp [State.competes, State.candidates, Competes]

theorem effectivePriority_eq (s : State) (j : Job) : s.effectivePriority j = priorityOf s j := by
  unfold State.effectivePriority priorityOf State.candidates
  simp only [List.all_filter, List.all_eq_true, Bool.or_eq_true, Bool.not_eq_true', ← Bool.not_eq_true, ← imp_iff_not_or]

theorem cycleAfter_mem (last j : Job) : j ∈ last.cycleAfter := by cases last <;> cases j <;> decide

theorem cycleAfter_places (last : Job) : last.cycleAfter.Pairwise fun j k => cyclicPlace last j < cyclicPlace last k := by
  cases last <;> decide

/-- The first job in cyclic order that passes a test is the one of the lowest place. -/
theorem find_cycleAfter {last : Job} {p : Job → Bool} (hj : p j = true)
    (hfirst : ∀ k, p k = true → cyclicPlace last j ≤ cyclicPlace last k) : last.cycleAfter.find? p = some j := by
  obtain ⟨older, younger, hsplit⟩ := List.append_of_mem (cycleAfter_mem last j)
  have hplaces := cycleAfter_places last
  rw [hsplit, List.pairwise_append] at hplaces
  rw [hsplit]
  refine find_first p older younger j (fun k hk => ?_) hj
  by_contra hp
  have := hplaces.2.2 k hk j (List.mem_cons_self ..)
  have := hfirst k (by simpa using hp)
  omega

theorem winner_none (h : ∀ j, ¬ Competes s j) : s.winner = none := by
  have hcompetes (j : Job) : s.competes j = false := by rw [← Bool.not_eq_true, competes_iff]; exact h j
  have hnone : s.disp.lastWinner.cycleAfter.filter s.competes = [] := List.filter_eq_nil_iff.2 (by simp [hcompetes])
  unfold State.winner
  rw [hnone]
  rfl

/-- Where competing jobs have reached their max-wait, the first of them in cyclic order wins. -/
theorem winner_waited (hc : Competes s j) (hmax : s.atMaxWait j = true)
    (hfirst : ∀ k, Competes s k → s.atMaxWait k = true → cyclicPlace s.disp.lastWinner j ≤ cyclicPlace s.disp.lastWinner k) :
    s.winner = some j := by
  unfold State.winner
  simp only [List.find?_filter]
  rw [find_cycleAfter (j := j)]
  · exact decide_eq_true ⟨competes_iff.2 hc, hmax⟩
  · intro k hk
    obtain ⟨hck, hm⟩ := of_decide_eq_true hk
    exact hfirst k (competes_iff.1 hck) hm

/-- Where none has, the first in cyclic order of those with the lowest effective priority wins. -/
theorem winner_lowest (hc : Competes s j) (hmax : ∀ k, Competes s k → s.atMaxWait k = false)
    (hlowest : ∀ k, Competes s k → priorityOf s j ≤ priorityOf s k)
    (hfirst : ∀ k, Competes s k → priorityOf s k = priorityOf s j →
      cyclicPlace s.disp.lastWinner j ≤ cyclicPlace s.disp.lastWinner k) : s.winner = some j := by
  have hnone : s.disp.lastWinner.cycleAfter.find? (fun k => decide (s.competes k = true ∧ s.atMaxWait k = true)) = none := by
    rw [List.find?_eq_none]
    intro k _ hk
    obtain ⟨hck, hm⟩ := of_decide_eq_true hk
    rw [hmax k (competes_iff.1 hck)] at hm
    exact Bool.false_ne_true hm
  have hall (k : Job) : (s.disp.lastWinner.cycleAfter.all fun i =>
      !s.competes i || decide (s.effectivePriority k ≤ s.effectivePriority i)) = true ↔
        ∀ i, Competes s i → priorityOf s k ≤ priorityOf s i := by
    simp only [List.all_eq_true, Bool.or_eq_true, Bool.not_eq_true', ← Bool.not_eq_true, ← imp_iff_not_or, competes_iff,
      decide_eq_true_eq, effectivePriority_eq, cycleAfter_mem, forall_const]
  unfold State.winner
  simp only [List.find?_filter, List.all_filter, hnone]
  refine find_cycleAfter (decide_eq_true ⟨competes_iff.2 hc, (hall j).2 hlowest⟩) fun k hk => ?_
  obtain ⟨hck, hle⟩ := of_decide_eq_true hk
  exact hfirst k (competes_iff.1 hck) (Nat.le_antisymm ((hall k).1 hle j hc) (hlowest k (competes_iff.1 hck)))

theorem winner_wins (h : Wins s j) : s.winner = some j := by
  by_cases hwaited : ∃ k, Competes s k ∧ s.atMaxWait k = true
  · obtain ⟨k, hk, hmax⟩ := hwaited
    exact winner_waited h.competes (decide_eq_true (h.waited k hk (of_decide_eq_true hmax)).1)
      fun k hk hmax => (h.waited k hk (of_decide_eq_true hmax)).2
  · have hmax (k : Job) (hk : Competes s k) : s.atMaxWait k = false := by
      rw [← Bool.not_eq_true]
      exact fun hm => hwaited ⟨k, hk, hm⟩
    have hlowest := h.lowest fun k hk => Nat.lt_of_not_le (of_decide_eq_false (hmax k hk))
    exact winner_lowest h.competes hmax (fun k hk => (hlowest k hk).1) fun k hk => (hlowest k hk).2

/-! ### The candidate, its value and its dispatch (R135) -/

theorem candidates_oldest {older younger : List ActIx} (hq : s.disp.queues.get j = older ++ a :: younger)
    (ho : ∀ x ∈ older, s.dispatchable x = false) (ha : s.dispatchable a = true) : (s.candidates j).head? = some a := by
  rw [State.candidates, List.head?_filter, hq]
  exact find_first s.dispatchable older younger a ho ha

theorem perJob_ext {α : Type} {p q : PerJob α} (h : ∀ j, p.get j = q.get j) : p = q := by
  obtain ⟨_, _, _, _⟩ := p
  obtain ⟨_, _, _, _⟩ := q
  exact PerJob.mk.injEq .. ▸ ⟨h .heat, h .air, h .cover, h .light⟩

/-- The wait counts that an arbitration won by a job leaves. -/
def State.waitCountsAfter (s : State) (won : Job) : PerJob Nat :=
  { heat := s.waitCountAfter won .heat, air := s.waitCountAfter won .air, cover := s.waitCountAfter won .cover
    light := s.waitCountAfter won .light }

theorem waitCountsAfter_get (s : State) (won k : Job) : (s.waitCountsAfter won).get k = s.waitCountAfter won k := by
  cases k <;> rfl

theorem waitCountsAfter_eq {counts : PerJob Nat}
    (hwait : ∀ k, k ≠ j → Competes s k → counts.get k = min 15 (s.disp.waitCounts.get k + 1))
    (hzero : ∀ k, k = j ∨ ¬ Competes s k → counts.get k = 0) : s.waitCountsAfter j = counts := by
  refine perJob_ext fun k => ?_
  rw [waitCountsAfter_get, State.waitCountAfter]
  by_cases hk : k = j
  · rw [if_pos hk, hzero k (.inl hk)]
  · rw [if_neg hk]
    by_cases hc : Competes s k
    · rw [if_pos (competes_iff.2 hc), hwait k hk hc]
    · rw [if_neg (fun h => hc (competes_iff.1 h)), hzero k (.inr hc)]

theorem arbitrate_dispatches (ht : s.nextTag = some t) (hj : s.winner = some j) (ha : (s.candidates j).head? = some a) :
    s.arbitrate = ((s.updDisp fun d => { d with waitCounts := s.waitCountsAfter j, lastWinner := j }).dispatchWith a t
      (s.valueToSend a)).offerWatches { on := .dispatch, target := .actuator a, value := s.valueToSend a } := by
  unfold State.arbitrate
  simp only [ht, hj, ha]
  rfl

theorem arbitrate_noTag (ht : s.nextTag = none) : s.arbitrate = s := by
  unfold State.arbitrate
  simp only [ht]

theorem arbitrate_noWinner (hj : s.winner = none) : s.arbitrate = s := by
  unfold State.arbitrate
  rw [hj]
  cases s.nextTag <;> rfl

theorem dispatchWith_dispatched (hj : (s.cfg.acts[a]).kind.job = some j) (hq : (s.acts[a]).dispatch = .queued) (t : Tag) (v : Int)
    (counts : PerJob Nat) : (s.updDisp fun d => { d with waitCounts := counts, lastWinner := j }).dispatchWith a t v =
      s.dispatched j a t v counts := by
  have hunqueue : (s.updDisp fun d => { d with waitCounts := counts, lastWinner := j }).unqueue a =
      (s.updDisp fun d => { d with
        waitCounts := counts, lastWinner := j, queues := d.queues.set j ((d.queues.get j).erase a) }).updAct a
        fun r => { r with dispatch := .idle } := by
    unfold State.unqueue
    rw [State.updDisp_cfg, hj]
    exact if_pos (beq_iff_eq.2 hq)
  unfold State.dispatchWith
  dsimp only
  rw [hunqueue]
  simp [State.updAct, State.updDisp, State.dispatched, State.commandTelegram, State.own, byteField, kindCommand]

theorem valueToSend_requested {w : Int} (h : (s.acts[a]).requested = some w) : s.valueToSend a = w := by
  unfold State.valueToSend
  simp only [h]

/-- Where nothing is requested, a cover drive is sent STOP within its limits (R90, log 33). -/
theorem valueToSend_stop (h : (s.acts[a]).requested = none) (hk : (s.cfg.acts[a]).kind = .coverDrive) :
    s.valueToSend a = (s.cfg.acts[a]).limited 0 := by
  unfold State.valueToSend
  simp only [h, if_pos hk]
  rfl

/-- Where nothing is requested, the value sent lies within the actuator's limits (R129, log 33). -/
theorem valueToSend_within (h : (s.acts[a]).requested = none) (hm : (s.cfg.acts[a]).min ≤ (s.cfg.acts[a]).max) :
    (s.cfg.acts[a]).min ≤ s.valueToSend a ∧ s.valueToSend a ≤ (s.cfg.acts[a]).max := by
  unfold State.valueToSend
  simp only [h]
  split <;> exact clamp_bounds _ hm

/-- Settles O49: the tag, the winner and its candidate are found as the rules name them, and the dispatch is theirs. -/
theorem arbitrationHandsOutOneTag : Obligations.ArbitrationHandsOutOneTag := by
  intro s
  refine ⟨fun h => congrArg Host.Outcome.next (arbitrate_noTag (nextTag_none h)),
    fun h => congrArg Host.Outcome.next (arbitrate_noWinner (winner_none h)), ?_⟩
  intro j t older younger a counts hwins htag hqueue holder ha hj hq hwait hzero
  have hexec : exec .arbitration s = .next ((s.dispatched j a t (s.valueToSend a) counts).offerWatches
      { on := .dispatch, target := .actuator a, value := s.valueToSend a }) := by
    rw [← dispatchWith_dispatched hj hq, ← waitCountsAfter_eq hwait hzero]
    exact congrArg Host.Outcome.next
      (arbitrate_dispatches (nextTag_free htag) (winner_wins hwins) (candidates_oldest hqueue holder ha))
  refine ⟨s.valueToSend a, fun w hw => valueToSend_requested hw, fun h hm => valueToSend_within h hm,
    fun h hk _ => valueToSend_stop h hk, hexec, ⟨_, hexec, zoneWork_offerWatches _ _ fun _ => trivial⟩, fun hunarmed => ?_⟩
  rw [hexec, offerWatches_unarmed (by exact hunarmed)]

end Sys2Proof.Machine
end

section
/-! SUPPORT. The end of a command: its order of work against the order in which it is told, and what its report leaves. -/

namespace Sys2Proof.Machine

variable {s t : State} {z : ZoneIx} {a : ActIx}

/-! ### Notices and accounts leave the actuators, and the actuators leave them -/

theorem raise_updAct (s : State) (a : ActIx) (f : ActRt → ActRt) (k : NoticeKind) (w : Byte) (d : List Byte) :
    (s.updAct a f).raise k w d = (s.raise k w d).updAct a f := by
  unfold State.raise
  rw [State.updAct_mgmt]
  split <;> rfl

theorem raise_acts (s : State) (k : NoticeKind) (w : Byte) (d : List Byte) : (s.raise k w d).acts = s.acts := by
  rw [raise_frame]

theorem raise_cfg (s : State) (k : NoticeKind) (w : Byte) (d : List Byte) : (s.raise k w d).cfg = s.cfg := by rw [raise_frame]

theorem accOverflow_updAct (s : State) (a : ActIx) (f : ActRt → ActRt) (z : ZoneIx) (i : AccIx) (v : BitVec 32) :
    (s.updAct a f).accOverflow z i v = (s.accOverflow z i v).updAct a f := by
  unfold State.accOverflow
  rw [raise_updAct, State.updAct_cfg]
  dsimp only
  split <;> split <;> rfl

theorem offer_updAct (s : State) (a : ActIx) (f : ActRt → ActRt) (z : ZoneIx) (i : AccIx) (n : Nat) :
    (s.updAct a f).offer z i n = (s.offer z i n).updAct a f := by
  unfold State.offer
  rw [State.updAct_cfg, show (s.updAct a f).acc z i = s.acc z i from rfl]
  split
  · dsimp only
    split
    · rfl
    · exact accOverflow_updAct (s.setAcc z i _) a f z i _
  · rfl

theorem accOverflow_acts (s : State) (z : ZoneIx) (i : AccIx) (v : BitVec 32) : (s.accOverflow z i v).acts = s.acts := by
  unfold State.accOverflow
  dsimp only
  split <;> split <;> exact raise_acts s _ _ _

theorem offer_acts (s : State) (z : ZoneIx) (i : AccIx) (n : Nat) : (s.offer z i n).acts = s.acts := by
  unfold State.offer
  split
  · dsimp only
    split
    · rfl
    · exact accOverflow_acts _ z i _
  · rfl

/-! ### The outcome (R138, R140) -/

/-- The record of a timeout that is not the third in a row (R140 steps 1 and 3). -/
def ActRt.timedOut (r : ActRt) : ActRt :=
  { r with timeouts := min 3 (r.timeouts + 1), needsSend := r.needsSend || r.requested.isSome }

/-- The record of an actuator that is given up for the present (R140 step 4). -/
def ActRt.givenUp (r : ActRt) : ActRt := { r with retryTimer := .seconds 30, health := .unresponsive }

theorem afterOutcome_timedOut {r : ActRt} (h : min 3 (r.timeouts + 1) ≠ 3) (c : ActCfg) (v : Int) :
    r.afterOutcome c v .timeout = r.timedOut := by
  unfold ActRt.afterOutcome
  dsimp only
  rw [if_neg h, if_neg h]
  rfl

theorem afterOutcome_givenUp {r : ActRt} (h : min 3 (r.timeouts + 1) = 3) (c : ActCfg) (v : Int) :
    r.afterOutcome c v .timeout = r.timedOut.givenUp := by
  unfold ActRt.afterOutcome
  dsimp only
  rw [if_pos h, if_pos h]
  rfl

theorem commandTimeout_counted (s : State) (a : ActIx) (v : Int) : s.commandTimeout a v =
    let counted := (s.offer (s.cfg.acts[a]).zone accTimeouts 1).updAct a ActRt.timedOut
    if min 3 ((s.acts[a]).timeouts + 1) = 3 then
      if (s.acts[a]).health = .unresponsive then counted.updAct a ActRt.givenUp
      else (counted.updAct a ActRt.givenUp).raiseActuator .actuatorUnresponsive a v
    else counted := by
  unfold State.commandTimeout
  dsimp only
  rw [offer_updAct, updAct_updAct, State.updAct_same, offer_acts]
  simp only [beq_iff_eq]
  rfl

theorem raiseActuator_updAct (s : State) (a : ActIx) (f : ActRt → ActRt) (k : NoticeKind) (b : ActIx) (v : Int) :
    (s.updAct a f).raiseActuator k b v = (s.raiseActuator k b v).updAct a f := raise_updAct ..

/-- A notice of an actuator, by the entry as it stood before work that leaves the table of actuators. -/
theorem raiseActuator_eq (h : t.cfg.acts = s.cfg.acts) (k : NoticeKind) (a : ActIx) (v : Int) :
    t.raiseActuator k a v = t.raise k (BitVec.ofNat 8 (s.cfg.acts[a]).zone) (BitVec.ofNat 8 a :: numField v) := by
  rw [← h]
  rfl

theorem commandTimeout_noted (s : State) (o : Outstanding) : s.commandTimeout o.act o.value =
    (s.outcomeNoted o .timeout).updAct o.act fun r => r.afterOutcome (s.cfg.acts[o.act]) o.value .timeout := by
  have hacts : (s.offer (s.cfg.acts[o.act]).zone accTimeouts 1).acts = s.acts := offer_acts ..
  have hcfg : (s.offer (s.cfg.acts[o.act]).zone accTimeouts 1).cfg.acts = s.cfg.acts :=
    (zoneWork_offer (zs := fun _ => True) s _ accTimeouts 1 trivial).acts
  have hnoted : s.outcomeNoted o .timeout =
      if min 3 ((s.acts[o.act]).timeouts + 1) = 3 ∧ (s.acts[o.act]).health ≠ .unresponsive then
        (s.offer (s.cfg.acts[o.act]).zone accTimeouts 1).raiseActuator .actuatorUnresponsive o.act o.value
      else s.offer (s.cfg.acts[o.act]).zone accTimeouts 1 := by
    rw [raiseActuator_eq hcfg]
    rfl
  rw [commandTimeout_counted, hnoted]
  generalize s.offer (s.cfg.acts[o.act]).zone accTimeouts 1 = counted at hacts
  by_cases h3 : min 3 ((s.acts[o.act]).timeouts + 1) = 3
  · have hgiven (u : State) (hu : u.acts = s.acts) : (u.updAct o.act ActRt.timedOut).updAct o.act ActRt.givenUp =
        u.updAct o.act fun r => r.afterOutcome (s.cfg.acts[o.act]) o.value .timeout := by
      rw [updAct_updAct]
      exact updAct_congr _ _ _ _ (by rw [hu, afterOutcome_givenUp h3])
    by_cases h : (s.acts[o.act]).health = .unresponsive
    · simp only [h3, h, if_true, ne_eq, not_true_eq_false, and_false, if_false]
      exact hgiven _ hacts
    · simp only [h3, h, if_true, ne_eq, not_false_eq_true, and_true, if_false]
      rw [raiseActuator_updAct, raiseActuator_updAct]
      exact hgiven _ ((raise_acts ..).trans hacts)
  · simp only [h3, if_false, false_and]
    exact updAct_congr _ _ _ _ (by rw [hacts, afterOutcome_timedOut h3])

/-- The notices and accounts of an outcome do not depend on what it does to the record. -/
theorem applyOutcome_noted (s : State) (o : Outstanding) (outcome : CommandOutcome) :
    s.applyOutcome o.act o.value outcome =
      (s.outcomeNoted o outcome).updAct o.act fun r => r.afterOutcome (s.cfg.acts[o.act]) o.value outcome := by
  cases outcome with
  | applied =>
    unfold State.applyOutcome State.ackApplied State.outcomeNoted
    by_cases h : (s.acts[o.act]).health = .ok
    · simp only [h, bne_self_eq_false, Bool.false_eq_true, if_false, if_true]
      rfl
    · simp only [bne_iff_ne, ne_eq, h, not_false_eq_true, if_true, if_false]
      exact raiseActuator_updAct ..
  | refusedHand =>
    unfold State.applyOutcome State.ackRefusedHand State.outcomeNoted
    by_cases h : (s.acts[o.act]).health = .hand
    · simp only [h, beq_self_eq_true, if_true]
      rfl
    · simp only [beq_iff_eq, h, if_false]
      exact raiseActuator_updAct ..
  | refusedRange =>
    unfold State.applyOutcome State.ackRefusedRange State.outcomeNoted
    by_cases h : (s.acts[o.act]).health = .unresponsive
    · simp only [h, beq_self_eq_true, if_true]
      rw [raiseActuator_updAct, raiseActuator_updAct,
        raiseActuator_eq (s := s) (t := s.raiseActuator .actuatorRange o.act o.value) (congrArg _ (raise_cfg ..))]
      rfl
    · simp only [beq_iff_eq, h, if_false]
      exact raiseActuator_updAct ..
  | timeout => exact commandTimeout_noted s o

theorem outcomeNoted_work (s : State) (o : Outstanding) (outcome : CommandOutcome) :
    OneZoneWork (s.cfg.acts[o.act]).zone s (s.outcomeNoted o outcome) := by
  unfold State.outcomeNoted
  cases outcome with
  | applied =>
    dsimp only
    split
    · exact .refl _ s
    · exact zoneWork_raise ..
  | refusedHand =>
    dsimp only
    split
    · exact .refl _ s
    · exact zoneWork_raise ..
  | refusedRange =>
    dsimp only
    split
    · exact (zoneWork_raise ..).trans (zoneWork_raise ..)
    · exact zoneWork_raise ..
  | timeout =>
    have hoffer : OneZoneWork (s.cfg.acts[o.act]).zone s (s.offer (s.cfg.acts[o.act]).zone 4 1) := zoneWork_offer s _ 4 1 rfl
    dsimp only
    split
    · exact hoffer.trans (zoneWork_raise ..)
    · exact hoffer

/-! ### The end and its report (R139) -/

theorem freeCommand_settled (s : State) (o : Outstanding) (outcome : CommandOutcome) :
    (s.applyOutcome o.act o.value outcome).freeCommand o.act o.tag = s.commandSettled o outcome := by
  rw [applyOutcome_noted]
  unfold State.freeCommand State.commandSettled State.commandEnded
  dsimp only
  rw [(outcomeNoted_work s o outcome).acts]
  refine congrArg (State.join · o.act) ?_
  exact updAct_updAct ((s.outcomeNoted o outcome).freed o.tag) o.act
    (fun r => r.afterOutcome (s.cfg.acts[o.act]) o.value outcome) ActRt.freed

theorem commandSettled_acts (s : State) (o : Outstanding) (outcome : CommandOutcome) :
    (s.commandSettled o outcome).cfg.acts = s.cfg.acts := by
  unfold State.commandSettled
  rw [join_frame]
  exact (outcomeNoted_work s o outcome).acts

/-- A command's end is what R138 to R140 name: the outcome's notices and account, the record changed and the tag freed, the place in
the queue, and the report. -/
theorem endCommand_reported (s : State) (o : Outstanding) (outcome : CommandOutcome) :
    s.endCommand o outcome = s.commandReported o outcome := by
  have hacts := commandSettled_acts s o outcome
  unfold State.endCommand State.commandReported
  dsimp only
  rw [freeCommand_settled]
  generalize s.commandSettled o outcome = settled at hacts
  have hreport : (settled.reportOutcome o.act outcome).cfg.acts = s.cfg.acts :=
    (zoneWork_reportOutcome (zs := fun _ => True) settled o.act outcome trivial).acts.trans hacts
  unfold State.reportControl
  dsimp only
  rw [hreport]
  unfold State.reportOutcome
  dsimp only
  rw [hacts]
  cases hk : (s.cfg.acts[o.act]).kind <;> simp

/-! ### The timeout's account (R140, R177) -/

/-- The parts that a report to the cover sequencer may reach. -/
def reportParts : List Part := .cover :: .scene :: .coverWork :: .acts .coverDrive :: changeParts

theorem reaches_coverChange {next : CoverState} (h : next ≠ .disabled) (s : State) (z : ZoneIx) (cause : CoverCause) (index : Nat) :
    Reaches z reportParts 4 4 s (s.coverChange z next cause index) :=
  ((reaches_coverRecorded s z next cause).trans (coverChange_of_recorded h)).mono (by decide) (by decide) (by decide)

theorem reaches_enterFault (s : State) (z : ZoneIx) (reason : FaultReason) (index : Nat) :
    Reaches z reportParts 4 4 s (s.enterFault z reason index) := by
  have hchange : Reaches z reportParts 4 4 (s.drivesStopped z) (s.enterFault z reason index) :=
    reaches_coverChange (next := .fault) nofun (s.drivesStopped z) z (.fault reason) index
  exact ((reaches_drivesStopped s z).trans hchange).mono (by decide) (by decide) (by decide)

theorem reaches_enterMotion {next : CoverState} (h : next ≠ .disabled) (s : State) (z : ZoneIx) (cause : CoverCause) :
    Reaches z reportParts 4 4 s (s.enterMotion z next cause) := by
  have hformed {t : State} (ht : Reaches z reportParts 4 4 (s.withFormed z) t) : Reaches z reportParts 4 4 s t :=
    ((reaches_withFormed s z).trans ht).mono (by decide) (by decide) (by decide)
  unfold State.enterMotion
  dsimp only
  split
  · exact hformed (reaches_enterFault _ z _ _)
  · split
    · exact hformed (reaches_enterFault _ z _ _)
    · exact hformed (reaches_coverChange h _ z _ _)

theorem reaches_coverScene (s : State) (z : ZoneIx) (outcome : SceneState) :
    Reaches z reportParts 4 4 s (s.coverScene z outcome) := by
  have hnone : Reaches z reportParts 4 4 s s := (Reaches.refl s).mono (by decide) (by decide) (by decide)
  unfold State.coverScene
  dsimp only
  split
  · cases outcome with
    | complete =>
      dsimp only
      split
      · exact (reaches_updCover s _).mono (by decide) (by decide) (by decide)
      · exact reaches_enterMotion (by cases (s.zones[z]).cover.state <;> decide) s z _
    | completeDegraded => exact reaches_enterFault s z _ _
    | _ => exact hnone
  · exact hnone

theorem reaches_coverDrive (s : State) (z : ZoneIx) (a : ActIx) (outcome : CommandOutcome) :
    Reaches z reportParts 4 4 s (s.coverDrive z a outcome) := by
  rw [coverDrive_eq]
  split
  · exact reaches_enterFault s z _ _
  · exact (Reaches.refl s).mono (by decide) (by decide) (by decide)

/-- What the scene engine is told, and what it passes on to the covers. -/
theorem reaches_reportScene {p : State × Option SceneState} (h : Reaches z [.scene] 0 0 s p.1) :
    Reaches z reportParts 4 4 s (State.reportScene z p) := by
  unfold State.reportScene
  split
  · exact (h.trans (reaches_coverScene _ z _)).mono (by decide) (by decide) (by decide)
  · exact h.mono (by decide) (by decide) (by decide)

theorem reaches_sceneOutcome (s : State) (z : ZoneIx) (a : ActIx) (outcome : CommandOutcome) :
    Reaches z [.scene] 0 0 s (s.sceneOutcome z a outcome).1 := by
  have hnone : Reaches z [.scene] 0 0 s s := (Reaches.refl s).mono (by decide) (by decide) (by decide)
  unfold State.sceneOutcome
  dsimp only
  split
  · have hmarked := reaches_updTouched (z := z) s a fun t => { t with rangeRefused := match outcome with
      | .refusedRange => true
      | .applied => false
      | .refusedHand | .timeout => t.rangeRefused }
    cases (s.zones[z]).scene.state with
    | running => exact hmarked
    | settling => exact (hmarked.trans (reaches_sceneJudge _)).mono (by decide) (by decide) (by decide)
    | _ => exact hnone
  · exact hnone

theorem reaches_sceneControl (s : State) (z : ZoneIx) (a : ActIx) : Reaches z [.scene] 0 0 s (s.sceneControl z a).1 := by
  unfold State.sceneControl
  dsimp only
  split
  · exact reaches_sceneJudge s
  · exact (Reaches.refl s).mono (by decide) (by decide) (by decide)

/-- A report leaves the account of timeouts as it is. -/
theorem commandReported_timeouts (s : State) (o : Outstanding) (outcome : CommandOutcome) :
    (((s.commandReported o outcome).acct.accs[(s.cfg.acts[o.act]).zone])[accTimeouts]) =
      (((s.commandSettled o outcome).acct.accs[(s.cfg.acts[o.act]).zone])[accTimeouts]) := by
  have hstands {parts : List Part} {n r : Nat} {t u : State} (h : Reaches (s.cfg.acts[o.act]).zone parts n r t u)
      (hp : .acc accTimeouts ∉ parts) := h.stands (.acc accTimeouts) hp
  unfold State.commandReported
  dsimp only
  split
  · have htold := reaches_reportScene (reaches_sceneOutcome (s.commandSettled o outcome) (s.cfg.acts[o.act]).zone o.act outcome)
    split
    · exact hstands (htold.trans (reaches_reportScene (reaches_sceneControl _ _ o.act))) (by decide)
    · exact hstands htold (by decide)
  · exact hstands (reaches_coverDrive _ _ o.act outcome) (by decide)
  all_goals rfl

theorem commandSettled_accs (s : State) (o : Outstanding) :
    (s.commandSettled o .timeout).acct.accs = (s.offer (s.cfg.acts[o.act]).zone accTimeouts 1).acct.accs := by
  unfold State.commandSettled
  rw [join_frame]
  show (s.outcomeNoted o .timeout).acct.accs = _
  unfold State.outcomeNoted
  dsimp only
  split
  · rw [raise_frame]
    rfl
  · rfl

/-- A timeout is accounted once (R140 step 2). -/
theorem commandReported_accounted (s : State) (o : Outstanding) :
    Accounted s (s.commandReported o .timeout) (s.cfg.acts[o.act]).zone accTimeouts 1 := by
  intro he hr
  rw [commandReported_timeouts, commandSettled_accs]
  exact offer_accounted s _ accTimeouts 1 he hr

/-! ### Acknowledgements (R137, R152) -/

/-- A line that has heard a valid telegram is active (R152). -/
def State.hallHeard (s : State) : State := { s with lines := { s.lines with hallActive := true } }

theorem receive_ack {heard : List RxByte} {tg : Telegram} (hne : heard ≠ []) (hj : judgeUnit true heard = some tg)
    (hd : tg.dest = s.own) (hk : tg.kind = 3) :
    exec (.receivedUnit .hall heard) s = .next (s.hallHeard.acknowledge tg) := by
  have hempty : heard.isEmpty = false := by rw [List.isEmpty_eq_false_iff]; exact hne
  refine congrArg Host.Outcome.next ?_
  unfold State.receive State.hand State.handOwn
  rw [hempty, hj]
  simp only [Bool.false_eq_true, if_false]
  rw [if_pos (by exact hd), if_neg (by rw [hk]; decide), if_pos (by rw [hk]; decide)]
  rfl

theorem ackOutcome_none {status : Byte} (h : 2 < status.toNat) : ackOutcome status = none := by
  unfold ackOutcome
  rw [if_neg, if_neg, if_neg] <;> (rintro rfl; exact absurd h (by decide))

theorem isAckedBy_iff {o : Outstanding} {tg : Telegram} {p : ChannelPayload} : o.isAckedBy tg p = true ↔
    tg.tag = BitVec.ofNat 4 o.tag ∧ o.phase ≠ .sending ∧ tg.src = o.node ∧ p.channel = o.channel ∧ p.value = o.value := by
  unfold Outstanding.isAckedBy
  cases o.phase <;> simp [and_assoc]

theorem channelPayload_some {l : List Byte} {p : ChannelPayload} (h : channelPayload l = some p) :
    ∃ hi lo : Byte, l = [p.channel, p.code, hi, lo] ∧ p.value = (hi ++ lo).toInt := by
  unfold channelPayload at h
  split at h
  · cases h
    exact ⟨_, _, rfl, rfl⟩
  · cases h

/-- An acknowledgement that matches no entry is discarded (R137). -/
theorem acknowledge_unmatched {tg : Telegram} (h : ∀ o ∈ s.disp.outstanding, tg.tag ≠ BitVec.ofNat 4 o.tag ∨ o.phase = .sending ∨
    tg.src ≠ o.node ∨ ∀ status hi lo : Byte, tg.payload = [o.channel, status, hi, lo] → (hi ++ lo).toInt = o.value →
      2 < status.toNat) : s.acknowledge tg = s := by
  unfold State.acknowledge
  split
  · rfl
  · rename_i p hp
    split
    · rename_i outcome o houtcome hfind
      obtain ⟨htag, hphase, hsrc, hchannel, hvalue⟩ :=
        isAckedBy_iff.1 (List.find?_some (p := fun o : Outstanding => o.isAckedBy tg p) hfind)
      obtain ⟨hi, lo, hpayload, hnumber⟩ := channelPayload_some hp
      have hstatus := (((h o (List.mem_of_find?_eq_some hfind)).resolve_left (not_not_intro htag)).resolve_left hphase).resolve_left
        (not_not_intro hsrc)
      rw [ackOutcome_none (hstatus p.code hi lo (by rw [← hchannel]; exact hpayload) (hnumber.symm.trans hvalue))] at houtcome
      cases houtcome
    · rfl

theorem tag_ofNat_inj {t t' : Tag} (h : BitVec.ofNat 4 t.val = BitVec.ofNat 4 t'.val) : t = t' := by
  have := congrArg BitVec.toNat h
  rw [BitVec.toNat_ofNat, BitVec.toNat_ofNat, Nat.mod_eq_of_lt t.isLt, Nat.mod_eq_of_lt t'.isLt] at this
  exact Fin.ext this

/-- An acknowledgement ends the command it matches (R137 to R139). -/
theorem acknowledge_ends {tg : Telegram} {older younger : List Outstanding} {o : Outstanding} {timer : Timer}
    {status hi lo : Byte} {outcome : CommandOutcome} (hs : s.disp.outstanding = older ++ o :: younger)
    (holder : ∀ x ∈ older, x.tag ≠ o.tag) (hphase : o.phase = .awaitingAck timer) (htag : tg.tag = BitVec.ofNat 4 o.tag)
    (hsrc : tg.src = o.node) (hpayload : tg.payload = [o.channel, status, hi, lo]) (hvalue : (hi ++ lo).toInt = o.value)
    (hstatus : ackOutcome status = some outcome) : s.acknowledge tg = s.endCommand o outcome := by
  have hfind : s.disp.outstanding.find? (fun x => x.isAckedBy tg { channel := o.channel, code := status, value := o.value }) =
      some o := by
    rw [hs]
    refine find_first _ older younger o (fun x hx => ?_) (isAckedBy_iff.2 ⟨htag, by rw [hphase]; nofun, hsrc, rfl, rfl⟩)
    rw [← Bool.not_eq_true, isAckedBy_iff]
    exact fun h => holder x hx (tag_ofNat_inj (h.1.symm.trans htag))
  unfold State.acknowledge
  rw [hpayload, channelPayload, hvalue]
  simp only [hstatus, hfind]

/-! ### Transmissions (R136, R156) -/

theorem outstandingOf_first {older younger : List Outstanding} {o : Outstanding} (hs : s.disp.outstanding = older ++ o :: younger)
    (holder : ∀ x ∈ older, x.tag ≠ o.tag) : s.outstandingOf o.tag = some o := by
  rw [State.outstandingOf, hs]
  exact find_first _ older younger o (fun x hx => beq_false_of_ne (holder x hx)) (beq_self_eq_true o.tag)

/-- The hall transmitter is free. -/
def State.hallFreed (s : State) : State := { s with lines := { s.lines with hallTx := .free } }

/-- A command's telegram that is sent or dropped is reported to the dispatcher (R136, R156). -/
theorem attemptEnd_sent {tag : Tag} {tg : Telegram} {n : Nat} {readBack : List RxByte}
    (htx : s.lines.hallTx = .sending (.command tag) tg n) (h : compareReadBack tg.bytes readBack = .sent) :
    s.attemptEnd .hall readBack = s.hallFreed.commandTransmitted tag true := by
  unfold State.attemptEnd
  simp only [Lines.tx, htx, h]
  rfl

theorem attemptEnd_dropped {tag : Tag} {tg : Telegram} {n : Nat} {readBack : List RxByte} (hn : 3 ≤ n)
    (htx : s.lines.hallTx = .sending (.command tag) tg n) (h : compareReadBack tg.bytes readBack = .disturbed) :
    s.attemptEnd .hall readBack = s.hallFreed.commandTransmitted tag false := by
  unfold State.attemptEnd
  simp only [Lines.tx, htx, h, if_neg (Nat.not_lt.2 hn)]
  rfl

theorem commandTransmitted_dropped {tag : Tag} {o : Outstanding} (h : s.outstandingOf tag = some o) :
    s.commandTransmitted tag false = s.endCommand o .timeout := by
  unfold State.commandTransmitted
  simp only [h, Bool.false_eq_true, if_false]

theorem commandTransmitted_sent {tag : Tag} {o : Outstanding} (h : s.outstandingOf tag = some o) :
    s.commandTransmitted tag true = s.updDisp fun d => { d with outstanding := d.outstanding.map fun x =>
      if x.tag = tag then { x with phase := .awaitingAck (.running s.cfg.part.ackTimeout) } else x } := by
  unfold State.commandTransmitted
  simp only [h, if_true]

theorem ackTimeout_ends {tag : Tag} {o : Outstanding} (h : s.outstandingOf tag = some o) (hdue : o.phase = .awaitingAck (.running 0)) :
    exec (.ackTimeout tag) s = .next (s.endCommand o .timeout) := by
  have ho : o.due = true := by
    unfold Outstanding.due
    rw [hdue]
    rfl
  refine congrArg Host.Outcome.next ?_
  simp only [h, ho, if_true]

/-- Settles O48: each way a command ends is `endCommand`, which is the end that R138 to R140 name, and the report leaves the account
of the timeout. -/
theorem commandsEnd : Obligations.CommandsEnd := by
  refine ⟨fun s heard tg hne hj hd hk h => ?_, ?_⟩
  · rw [receive_ack hne hj hd hk, acknowledge_unmatched (s := s.hallHeard) h]
    rfl
  intro s older younger o hs holder zone accounted
  refine ⟨?_, ?_, ?_, ?_⟩
  · intro tg n htx
    have hout : s.hallFreed.outstandingOf o.tag = some o := outstandingOf_first hs holder
    refine congrArg Host.Outcome.next ?_
    rw [attemptEnd_sent htx (compareReadBack_clean _), commandTransmitted_sent hout]
    rfl
  · intro tg n k b htx hn hk hb
    have hout : s.hallFreed.outstandingOf o.tag = some o := outstandingOf_first hs holder
    refine ⟨s.hallFreed.endCommand o .timeout, congrArg Host.Outcome.next ?_, endCommand_reported .., ?_,
      zoneWork_endCommand s.hallFreed o .timeout rfl⟩
    · rw [List.map_take]
      rw [attemptEnd_dropped hn htx (compareReadBack_disturbed _ k b hk hb), commandTransmitted_dropped hout]
    · rw [endCommand_reported]
      exact commandReported_accounted s.hallFreed o
  · intro hdue
    refine ⟨s.endCommand o .timeout, ackTimeout_ends (outstandingOf_first hs holder) hdue, endCommand_reported .., ?_,
      zoneWork_endCommand s o .timeout rfl⟩
    rw [endCommand_reported]
    exact commandReported_accounted s o
  · intro timer heard tg status hi lo outcome hphase hne hj hd hk htag hsrc hpayload hvalue hstatus
    have houtcome : ackOutcome status = some outcome := by
      rcases hstatus with ⟨rfl, rfl⟩ | ⟨rfl, rfl⟩ | ⟨rfl, rfl⟩ <;> rfl
    refine ⟨s.hallHeard.endCommand o outcome, ?_, endCommand_reported .., zoneWork_endCommand s.hallHeard o outcome rfl⟩
    rw [receive_ack hne hj hd hk,
      acknowledge_ends (s := s.hallHeard) hs holder hphase htag hsrc hpayload hvalue houtcome]

end Sys2Proof.Machine
end

section
/-! SUPPORT. The watches: their requests, their comparison with an event, and the entry into hold. -/

namespace Sys2Proof.Machine

variable {s : State} {c : Channel} {t : Telegram}

/-! ### Requests (R184) -/

/-- The row of a watch request is its action's (R184). -/
theorem watch_row {action : Byte} {rest : List Byte} (h : NextIs s c t 12 (action :: rest)) :
    (Request.of c t).row = if action.toNat = 1 then .watchWrite else if action.toNat = 2 then .watchArm
      else if action.toNat = 3 then .watchDisarm else .watchRead := by
  obtain ⟨k, hk, hshape⟩ := shape_of_passes h
  obtain rfl : ReqKind.watch = k := Option.some.inj hk
  have haction : (Request.of c t).param 0 = action.toNat := by rw [request_param h.payload]; rfl
  unfold Request.row
  rw [kind_of_next h]
  show (if (shapeOk .watch (Request.of c t).params && (Request.of c t).param 0 == 1) = true then _ else _) = _
  rw [request_params h.payload, hshape, haction]
  simp only [Bool.true_and, beq_iff_eq]

/-- A watch request that names a watch has its effect on that watch. -/
theorem watchChecked_named {w : WatchIx} {action : Byte} {rest : List Byte} (h : t.payload = 12 :: action :: BitVec.ofNat 8 w :: rest)
    (effect : WatchIx → State → Answer) (s : State) : watchChecked effect (.of c t) s = effect w s := by
  have hw : asIndex 4 ((Request.of c t).param 1) = some w := by
    rw [request_param h]
    exact asIndex_byte w (by decide)
  unfold watchChecked
  rw [hw]

theorem watchChecked_outside {index action : Byte} {rest : List Byte} (hi : 4 ≤ index.toNat)
    (h : t.payload = 12 :: action :: index :: rest) (effect : WatchIx → State → Answer) (s : State) :
    watchChecked effect (.of c t) s = s.refuse .badIndex := by
  have hw : asIndex 4 ((Request.of c t).param 1) = none := by
    rw [request_param h]
    exact asIndex_none hi
  unfold watchChecked
  rw [hw]

theorem exec_watchArm {w : WatchIx} (h : NextIs s c t 12 [2, BitVec.ofNat 8 w]) : exec .watchArm s = .next
    (((s.taken c).setWatch w { s.cfg.watches[w] with armed := true }).replied c t 12 .done []) := by
  refine congrArg Host.Outcome.next ?_
  rw [serve_own (watchArmOwn true) .watchArm h (watch_row h), watchArmOwn, watchChecked_named h.payload, reply_now _ rfl h.payload,
    taken_cfg]
  rfl

theorem exec_watchDisarm {w : WatchIx} (h : NextIs s c t 12 [3, BitVec.ofNat 8 w]) : exec .watchDisarm s = .next
    (((s.taken c).setWatch w { s.cfg.watches[w] with armed := false }).replied c t 12 .done []) := by
  refine congrArg Host.Outcome.next ?_
  rw [serve_own (watchArmOwn false) .watchDisarm h (watch_row h), watchArmOwn, watchChecked_named h.payload, reply_now _ rfl h.payload,
    taken_cfg]
  rfl

theorem exec_watchArm_outside {w : Byte} (hw : 4 ≤ w.toNat) (h : NextIs s c t 12 [2, w]) :
    exec .watchArm s = .next ((s.taken c).replied c t 12 .badIndex []) := by
  refine congrArg Host.Outcome.next ?_
  rw [serve_own (watchArmOwn true) .watchArm h (watch_row h), watchArmOwn, watchChecked_outside hw h.payload, reply_now _ rfl h.payload]
  rfl

/-- On suits its target unless it asks a point for dispatches or an actuator for arrivals (R184). -/
theorem onSuits_iff (x : Watch) : onSuits x.on x.target = true ↔
    ¬ ((∃ a, x.target = .actuator a) ∧ x.on = .arrival ∨ (∃ p, x.target = .point p) ∧ x.on = .dispatch) := by
  cases x.target <;> cases x.on <;> simp [onSuits]

theorem exec_watchWrite {w : WatchIx} {x : Watch} (h : NextIs s c t 12 (1 :: BitVec.ofNat 8 w :: x.bytes))
    (hx : ∀ k, x.condition = some k → k.Fits) : exec .watchWrite s = .next (
      if onSuits x.on x.target then ((s.taken c).setWatch w x).replied c t 12 .done []
      else (s.taken c).replied c t 12 .badValue []) := by
  have hread : readAll readWatch ((Request.of c t).params.drop 2) = some x.raw := by
    rw [request_params h.payload]
    exact (reads_watch x hx).all
  refine congrArg Host.Outcome.next ?_
  rw [serve_own watchWriteOwn .watchWrite h (watch_row h), watchWriteOwn, watchChecked_named h.payload, hread, Option.bind_some, watch_raw]
  cases onSuits x.on x.target with
  | true => exact reply_now ((s.taken c).setWatch w x).done rfl h.payload
  | false => exact reply_now ((s.taken c).refuse .badValue) rfl h.payload

/-- The bytes of a watch (R166, R184). -/
theorem watch_bytes (x : Watch) : x.bytes = [flagByte x.armed] ++ x.target.wire ++ [x.on.wire] ++
    presence WatchCondition.field x.condition ++ [x.action.wire] := by
  have htarget : x.target.field = x.target.wire := by cases x.target <;> rfl
  simp only [Watch.bytes, yesNo_byte, named_watchOn, named_watchAction, optField_presence, htarget]

theorem watch_bytes_length (x : Watch) : x.bytes.length ≤ 25 := by
  rw [watch_bytes]
  cases x.target <;> rcases x.condition with _ | _ | _ <;>
    simp [WatchTarget.wire, presence, WatchCondition.field, variant, byteField, numField]

theorem exec_watchRead {w : WatchIx} {seg : Byte} (h : NextIs s c t 12 [0, BitVec.ofNat 8 w, seg]) : exec .watchRead s = .next (
    if seg = 0 then (s.taken c).replied c t 12 .done ([0, 1] ++ (s.cfg.watches[w]).bytes)
    else (s.taken c).replied c t 12 .badValue []) := by
  have hlength := watch_bytes_length s.cfg.watches[w]
  have hseg : (Request.of c t).param 2 = seg.toNat := by rw [request_param h.payload]; rfl
  have hcount : segmentCount (s.cfg.watches[w]).bytes = 1 := by
    unfold segmentCount
    omega
  have hbytes : segmentOf (s.cfg.watches[w]).bytes 0 = (s.cfg.watches[w]).bytes := List.take_of_length_le hlength
  refine congrArg Host.Outcome.next ?_
  rw [serve_own watchReadOwn .watchRead h (watch_row h), watchReadOwn, watchChecked_named h.payload, hseg, segment_answer _ h.payload,
    taken_cfg, hcount]
  by_cases h0 : seg = 0
  · subst h0
    rw [if_pos (by decide), if_pos rfl, show (0 : Byte).toNat = 0 from rfl, hbytes]
    rfl
  · rw [if_neg h0, if_neg]
    exact fun hlt => h0 (BitVec.eq_of_toNat_eq (Nat.lt_one_iff.1 hlt))

/-! ### Events (R185) -/

theorem matchesEvent_iff (w : Watch) (e : WatchEvent) : w.matchesEvent e = true ↔
    w.armed = true ∧ w.target = e.target ∧ (w.on = e.on ∨ w.on = .either) ∧
      (∀ x, w.condition = some (.above x) → x < e.value) ∧ ∀ x, w.condition = some (.below x) → e.value < x := by
  have hcondition : conditionHolds e.value w.condition = true ↔
      (∀ x, w.condition = some (.above x) → x < e.value) ∧ ∀ x, w.condition = some (.below x) → e.value < x := by
    rcases w.condition with _ | _ | _ <;> simp [conditionHolds]
  simp only [Watch.matchesEvent, Bool.and_eq_true, Bool.or_eq_true, beq_iff_eq, hcondition, and_assoc]

/-- What a watch that matches an event does (R185). -/
theorem offerWatch_matched {e : WatchEvent} {w : WatchIx} (h : (s.cfg.watches[w]).matchesEvent e = true) : s.offerWatch e w =
    ((s.setWatch w { s.cfg.watches[w] with armed := false }).watchAct w (s.cfg.watches[w]).action
      (s.targetZone (s.cfg.watches[w]).target)).raise .watchMatch (s.targetZone (s.cfg.watches[w]).target).byte
        ([BitVec.ofNat 8 w, e.on.wire] ++ (s.cfg.watches[w]).target.wire ++ numField e.value ++ [(s.cfg.watches[w]).action.wire]) := by
  have htarget (x : WatchTarget) : x.field = x.wire := by cases x <;> rfl
  unfold State.offerWatch
  rw [if_pos h, named_watchOn, named_watchAction, htarget]
  rfl

/-! ### The entry into hold (R95, R122, R186) -/

/-- The zone's record at the entry into hold, its timers still running. -/
def State.heldNow (s : State) (z : ZoneIx) (w : WatchIx) : State :=
  s.updZone z fun r => { r with held := true, holdCause := some w }

/-- A zone's cover and scene timers pause (R95, R122). -/
def ZoneRt.paused (r : ZoneRt) : ZoneRt :=
  { r with
    cover := { r.cover with
      prepTimer := r.cover.prepTimer.pause, motionTimer := r.cover.motionTimer.pause, settleTimer := r.cover.settleTimer.pause }
    scene := { r.scene with stepTimer := r.scene.stepTimer.pause } }

theorem holdZone_again {z : ZoneIx} (h : (s.zones[z]).held = true) (w : WatchIx) :
    s.holdZone z w = s.updZone z fun r => { r with holdCause := some w } := if_pos h

theorem holdZone_enters {z : ZoneIx} (h : (s.zones[z]).held = false) (w : WatchIx) :
    s.holdZone z w = ((s.heldNow z w).drivesStopped z).updZone z ZoneRt.paused := by
  unfold State.holdZone
  rw [if_neg (by rw [h]; exact Bool.false_ne_true)]
  exact updZone_updZone ((s.heldNow z w).drivesStopped z) z
    (fun r => { r with cover := { r.cover with
      prepTimer := r.cover.prepTimer.pause, motionTimer := r.cover.motionTimer.pause, settleTimer := r.cover.settleTimer.pause } })
    fun r => { r with scene := { r.scene with stepTimer := r.scene.stepTimer.pause } }

theorem heldNow_cover (s : State) (z : ZoneIx) (w : WatchIx) : ((s.heldNow z w).zones[z]).cover = (s.zones[z]).cover := by
  rw [State.heldNow, State.updZone_same]

/-- Drives that are stopped change actuators and queues alone. -/
theorem drivesStopped_frame (s : State) (z : ZoneIx) : s.drivesStopped z =
    { s with acts := (s.drivesStopped z).acts, disp := (s.drivesStopped z).disp } := by
  unfold State.drivesStopped
  split
  · exact requestDrives_frame s z _
  · rfl

theorem heldNow_paused (s : State) (z : ZoneIx) (w : WatchIx) : (s.heldNow z w).updZone z ZoneRt.paused =
    s.updZone z fun r => { r.paused with held := true, holdCause := some w } := updZone_updZone ..

/-- The entry into hold: the zone's record, and nothing of the notices and the accounts. -/
theorem holdZone_frame {z : ZoneIx} (h : (s.zones[z]).held = false) (w : WatchIx) : s.holdZone z w =
    { s with
      zones := s.zones.set z { (s.zones[z]).paused with held := true, holdCause := some w }
      acts := ((s.heldNow z w).drivesStopped z).acts, disp := ((s.heldNow z w).drivesStopped z).disp } := by
  have hpaused := heldNow_paused s z w
  rw [holdZone_enters h, drivesStopped_frame]
  exact congrArg (fun u : State => { u with
    acts := ((s.heldNow z w).drivesStopped z).acts, disp := ((s.heldNow z w).drivesStopped z).disp }) hpaused

theorem holdZone_stops {z : ZoneIx} (h : (s.zones[z]).held = false) (w : WatchIx)
    (hm : (s.zones[z]).cover.state.isMotion = true) : DrivesRequested s (s.holdZone z w) z 0 := by
  have hstopped : (s.heldNow z w).drivesStopped z = (s.heldNow z w).requestDrives z driveStop :=
    if_pos (by rw [heldNow_cover]; exact hm)
  intro a ha
  rw [holdZone_enters h, hstopped]
  exact requestDrives_requested (s.heldNow z w) z 0 a (by rw [heldNow_cover]; exact ha)

theorem holdZone_rests {z : ZoneIx} (h : (s.zones[z]).held = false) (w : WatchIx)
    (hm : (s.zones[z]).cover.state.isMotion = false) : s.holdZone z w =
      { s with zones := s.zones.set z { (s.zones[z]).paused with held := true, holdCause := some w } } := by
  rw [holdZone_frame h, drivesStopped_rest (by rw [heldNow_cover]; exact hm)]
  rfl

/-- Settles O10: the requests by their rows, the comparison and its effects, and the entry into hold. -/
theorem watchRequestsAct : Obligations.WatchRequestsAct := by
  intro s c t
  refine ⟨fun w h => exec_watchArm h, fun w h => exec_watchDisarm h, fun w x h hx => ?_, fun w seg h => exec_watchRead h,
    fun x => ?_, fun w hw h => exec_watchArm_outside hw h, fun e => rfl, ?_, ?_⟩
  · have hfits (k : WatchCondition) (hk : x.condition = some k) : k.Fits := by
      cases k with
      | above v => exact hx v (.inl hk)
      | below v => exact hx v (.inr hk)
    rw [exec_watchWrite h hfits]
    by_cases hs : onSuits x.on x.target = true
    · rw [if_pos hs, if_neg ((onSuits_iff x).1 hs)]
    · rw [if_neg hs, if_pos (not_not.1 fun hn => hs ((onSuits_iff x).2 hn))]
  · rw [watch_bytes]
    rcases x.condition with _ | _ | _ <;> rfl
  · intro e w watch matched zone reached disarmed acted
    have hmatched : watch.matchesEvent e = true ↔ matched := matchesEvent_iff watch e
    refine ⟨fun h => if_neg fun hm => h (hmatched.1 hm), fun h => ?_⟩
    obtain ⟨_, htarget, _⟩ := id h
    have hacted : disarmed.watchAct w watch.action zone = acted := rfl
    rw [offerWatch_matched (hmatched.2 h)]
    show (disarmed.watchAct w watch.action zone).raise .watchMatch zone.byte
      ([BitVec.ofNat 8 w, e.on.wire] ++ watch.target.wire ++ numField e.value ++ [watch.action.wire]) = _
    rw [hacted, htarget]
    cases e.target <;> rfl
  · intro z w r u pause entered moving
    have hpause : pause = Timer.pause := by
      funext x
      cases x <;> rfl
    have hentered : entered = { r.paused with held := true, holdCause := some w } := by
      simp only [entered, hpause]
      rfl
    refine ⟨fun h => holdZone_again h w, fun h => ?_⟩
    have hframe : u = _ := holdZone_frame h w
    refine ⟨?_, ?_, ?_, zoneWork_holdZone s z w rfl, fun hm => holdZone_stops h w ((isMotion_iff _).2 hm), fun hm => ?_⟩
    · rw [hframe, hentered]
    · rw [hframe]
    · rw [hframe]
    · rw [hentered]
      exact holdZone_rests h w (Bool.eq_false_iff.2 fun h => hm ((isMotion_iff _).1 h))

end Sys2Proof.Machine
end

section
/-! SUPPORT. The scene engine at work (R115 to R120): how a cue begins its fades, claims its channels and starts, how a fade takes a
step, and how completion is judged and reported. -/

namespace Sys2Proof.Machine

variable {s t u : State} {z : ZoneIx}

/-! ### Records and lists -/

theorem updScene_congr {f g : SceneRt → SceneRt} (h : f (s.zones[z]).scene = g (s.zones[z]).scene) :
    s.updScene z f = s.updScene z g := by
  unfold State.updScene State.updZone
  dsimp only
  rw [h]

theorem updScene_self {f : SceneRt → SceneRt} (h : f (s.zones[z]).scene = (s.zones[z]).scene) : s.updScene z f = s :=
  (updScene_congr (g := fun _ => (s.zones[z]).scene) h).trans (updZone_self s z)

/-- The first index of which a test holds is the lowest. -/
theorem find_indices_le {n : Nat} {p : Fin n → Bool} {a b : Fin n} (h : (indices n).find? p = some a) (hb : p b = true) : a ≤ b := by
  obtain ⟨-, before, after, hsplit, hbefore⟩ := List.find?_eq_some_iff_append.1 h
  have hsorted : (before ++ a :: after).Pairwise (· < ·) := hsplit ▸ List.pairwise_lt_finRange n
  have hmem : b ∈ before ++ a :: after := hsplit ▸ mem_indices b
  rcases List.mem_append.1 hmem with hm | hm
  · have := hbefore b hm
    rw [hb] at this
    cases this
  · rcases List.mem_cons.1 hm with rfl | hm
    · exact Nat.le_refl _
    · exact Nat.le_of_lt ((List.pairwise_cons.1 (List.pairwise_append.1 hsorted).2.1).1 b hm)

/-- A walk that comes once to `x` brings what its step there brings, if the other steps keep what is needed before it and what it
brings. -/
theorem foldl_once {α β : Type} [DecidableEq α] {P Q : β → Prop} {f : β → α → β} {x : α}
    (hP : ∀ b y, y ≠ x → P b → P (f b y)) (hx : ∀ b, P b → Q (f b x)) (hQ : ∀ b y, y ≠ x → Q b → Q (f b y)) {l : List α}
    (h : l.count x = 1) : ∀ {b : β}, P b → Q (l.foldl f b) := by
  induction l with
  | nil => exact absurd h (by simp)
  | cons y l ih =>
    intro b hb
    by_cases hy : y = x
    · subst hy
      have hrest : y ∉ l := by
        rw [List.count_cons_self] at h
        exact List.count_eq_zero.1 (by omega)
      exact List.foldlRecOn (motive := Q) l f (hx b hb) fun c hc w hw => hQ c w (fun e => hrest (e ▸ hw)) hc
    · rw [List.count_cons_of_ne hy] at h
      exact ih h (hP b y hy hb)

/-! ### What fades and their steps leave (R116, R117) -/

/-- `t` is `s` after work of a zone's scene engine on its channels: it asks for levels, and of the engine's record changes what is
noted of each channel, and the step timer. -/
structure FadeWork (z : ZoneIx) (s t : State) : Prop where
  work : OneZoneWork z s t
  cfg : t.cfg = s.cfg
  mgmt : t.mgmt = s.mgmt
  acct : t.acct = s.acct
  zone : t.zones[z] = { s.zones[z] with scene := { (s.zones[z]).scene with
    touched := (t.zones[z]).scene.touched, stepTimer := (t.zones[z]).scene.stepTimer } }
  channels : (t.zones[z]).scene.touched.map Touched.act = (s.zones[z]).scene.touched.map Touched.act

theorem FadeWork.refl (z : ZoneIx) (s : State) : FadeWork z s s := ⟨.refl _ s, rfl, rfl, rfl, rfl, rfl⟩

theorem FadeWork.trans (h : FadeWork z s t) (h' : FadeWork z t u) : FadeWork z s u where
  work := h.work.trans h'.work
  cfg := h'.cfg.trans h.cfg
  mgmt := h'.mgmt.trans h.mgmt
  acct := h'.acct.trans h.acct
  zone := by
    rw [h'.zone, h.zone]
  channels := h'.channels.trans h.channels

theorem FadeWork.foldl {α : Type} (f : State → α → State) (h : ∀ s a, FadeWork z s (f s a)) (l : List α) :
    ∀ s, FadeWork z s (l.foldl f s) := by
  induction l with
  | nil => exact fun s => .refl z s
  | cons a l ih => exact fun s => (h s a).trans (ih (f s a))

theorem FadeWork.cues (h : FadeWork z s t) : (t.zones[z]).scene.cues = (s.zones[z]).scene.cues := by rw [h.zone]

/-- A touched channel stays touched. -/
theorem FadeWork.touches (h : FadeWork z s t) {a : ActIx} (ha : ∃ x ∈ (s.zones[z]).scene.touched, x.act = a) :
    ∃ x ∈ (t.zones[z]).scene.touched, x.act = a := by
  rw [← List.mem_map] at ha ⊢
  rw [h.channels]
  exact ha

theorem fadeWork_jobRequest (s : State) (a : ActIx) (v : Int) : FadeWork z s (s.jobRequest .dimmer z a v) := by
  refine ⟨zoneWork_jobRequest s .dimmer z a v rfl, ?_, ?_, ?_, ?_, ?_⟩ <;> rw [jobRequest_frame]

theorem fadeWork_updScene (s : State) (f : SceneRt → SceneRt)
    (hf : ∀ e, f e = { e with touched := (f e).touched, stepTimer := (f e).stepTimer })
    (hc : ∀ e, (f e).touched.map Touched.act = e.touched.map Touched.act) : FadeWork z s (s.updScene z f) where
  work := zoneWork_updScene s z f rfl
  cfg := rfl
  mgmt := rfl
  acct := rfl
  zone := by
    rw [State.updScene_eq, State.updZone_same]
    exact congrArg (fun e => { s.zones[z] with scene := e }) (hf _)
  channels := by rw [updScene_scene]; exact hc _

theorem updTouched_channels (e : SceneRt) (a : ActIx) {f : Touched → Touched} (hf : ∀ t, (f t).act = t.act) :
    (e.updTouched a f).touched.map Touched.act = e.touched.map Touched.act := by
  unfold SceneRt.updTouched
  rw [List.map_map]
  refine List.map_congr_left fun t _ => ?_
  rw [Function.comp_apply]
  split
  · exact hf t
  · rfl

theorem fadeWork_updTouched (s : State) (a : ActIx) {f : Touched → Touched} (hf : ∀ t, (f t).act = t.act) :
    FadeWork z s (s.updScene z fun e => e.updTouched a f) :=
  fadeWork_updScene s _ (fun _ => rfl) fun e => updTouched_channels e a hf

/-! ### The beginning of a fade (R116) -/

/-- The level from which a fade starts: the requested value, or else the confirmed one. -/
def ActRt.startLevel (r : ActRt) : Option Int := r.requested.or r.confirmed

theorem requested_or (r : ActRt) : (match r.requested with
    | some v => some v
    | none => r.confirmed) = r.startLevel := by
  unfold ActRt.startLevel
  cases r.requested <;> rfl

/-- A fade has begun on a channel, with none of its steps taken. -/
def State.fadeBegun (s : State) (z : ZoneIx) (c : Cue) (a : ActIx) (ls : Int) : State := s.updScene z fun e =>
  { e.updTouched a fun t => { t with fade := some { ls := ls, lt := c.level, n := (2 * c.fade + 4) / 5, k := 0 } } with
    stepTimer := if e.stepTimer = .stopped then .running 250 else e.stepTimer }

theorem beginFade_fades {c : Cue} {a : ActIx} {ls : Int} (h : (s.acts[a]).startLevel = some ls) (hf : c.fade ≠ 0) :
    s.beginFade z c a = s.fadeBegun z c a ls := by
  unfold ActRt.startLevel at h
  unfold State.beginFade
  dsimp only
  cases hr : (s.acts[a]).requested with
  | some v =>
    rw [hr] at h
    cases h
    exact if_neg hf
  | none =>
    rw [hr, Option.none_or] at h
    rw [h]
    exact if_neg hf

theorem beginFade_requests {c : Cue} {a : ActIx} (h : (s.acts[a]).startLevel = none ∨ c.fade = 0) :
    s.beginFade z c a = s.jobRequest .dimmer z a c.level := by
  unfold ActRt.startLevel at h
  unfold State.beginFade
  dsimp only
  split
  · rfl
  · rename_i ls hs
    refine if_pos (h.resolve_left fun hn => ?_)
    cases hr : (s.acts[a]).requested <;> simp_all

theorem beginFade_cases (s : State) (z : ZoneIx) (c : Cue) (a : ActIx) :
    s.beginFade z c a = s.jobRequest .dimmer z a c.level ∨ ∃ ls, s.beginFade z c a = s.fadeBegun z c a ls := by
  by_cases hf : c.fade = 0
  · exact .inl (beginFade_requests (.inr hf))
  · cases hs : (s.acts[a]).startLevel with
    | none => exact .inl (beginFade_requests (.inl hs))
    | some ls => exact .inr ⟨ls, beginFade_fades hs hf⟩

theorem fadeWork_beginFade (s : State) (c : Cue) (a : ActIx) : FadeWork z s (s.beginFade z c a) := by
  rcases beginFade_cases s z c a with h | ⟨ls, h⟩ <;> rw [h]
  · exact fadeWork_jobRequest s a _
  · exact fadeWork_updScene s _ (fun _ => rfl) fun e => updTouched_channels e a fun _ => rfl

/-- A fade's beginning leaves every channel its owner. -/
theorem beginFade_owner {c : Cue} {a : ActIx} {x : Touched} (hx : x ∈ ((s.beginFade z c a).zones[z]).scene.touched) :
    ∃ t ∈ (s.zones[z]).scene.touched, t.act = x.act ∧ t.owner = x.owner := by
  rcases beginFade_cases s z c a with h | ⟨ls, h⟩ <;> rw [h] at hx
  · rw [jobRequest_frame] at hx
    exact ⟨x, hx, rfl, rfl⟩
  · rw [State.fadeBegun, updScene_scene] at hx
    obtain ⟨t, ht, rfl⟩ := List.mem_map.1 hx
    exact ⟨t, ht, by split <;> rfl, by split <;> rfl⟩

/-! ### Claims (R115) -/

/-- A channel has gone to a cue, its fade ended. -/
def State.handedOver (s : State) (z : ZoneIx) (i : Nat) (a : ActIx) : State :=
  s.updScene z fun e => e.updTouched a fun t => { t with owner := some i, fade := none }

theorem claim_untouched {i : Nat} {c : Cue} {a : ActIx} (h : (s.zones[z]).scene.touched.find? (fun t => t.act == a) = none) :
    s.claim z i c a = s := by
  unfold State.claim
  rw [h]

theorem claim_left {i j : Nat} {c : Cue} {a : ActIx} {t : Touched}
    (h : (s.zones[z]).scene.touched.find? (fun t => t.act == a) = some t) (ho : t.owner = some j) (hij : i < j) :
    s.claim z i c a = s := by
  unfold State.claim
  rw [h]
  dsimp only
  rw [ho]
  exact if_pos (decide_eq_true hij)

theorem claim_taken {i : Nat} {c : Cue} {a : ActIx} {t : Touched}
    (h : (s.zones[z]).scene.touched.find? (fun t => t.act == a) = some t) (ho : ∀ j, t.owner = some j → j ≤ i) :
    s.claim z i c a = (s.handedOver z i a).beginFade z c a := by
  unfold State.claim
  rw [h]
  dsimp only
  cases howner : t.owner with
  | none => exact if_neg Bool.false_ne_true
  | some j => exact if_neg (by have := ho j howner; simp; omega)

theorem claim_cases (s : State) (z : ZoneIx) (i : Nat) (c : Cue) (a : ActIx) :
    s.claim z i c a = s ∨ s.claim z i c a = (s.handedOver z i a).beginFade z c a := by
  cases h : (s.zones[z]).scene.touched.find? (fun t => t.act == a) with
  | none => exact .inl (claim_untouched h)
  | some t =>
    by_cases ho : ∃ j, t.owner = some j ∧ i < j
    · obtain ⟨j, howner, hij⟩ := ho
      exact .inl (claim_left h howner hij)
    · exact .inr (claim_taken h fun j hj => Nat.le_of_not_lt fun hij => ho ⟨j, hj, hij⟩)

theorem fadeWork_claim (s : State) (i : Nat) (c : Cue) (a : ActIx) : FadeWork z s (s.claim z i c a) := by
  rcases claim_cases s z i c a with h | h <;> rw [h]
  · exact .refl z s
  · have hover : FadeWork z s (s.handedOver z i a) := fadeWork_updTouched s a fun _ => rfl
    exact hover.trans (fadeWork_beginFade _ c a)

theorem handedOver_owner {i : Nat} {a : ActIx} {x : Touched} (hx : x ∈ ((s.handedOver z i a).zones[z]).scene.touched) :
    (x.act = a ∧ x.owner = some i) ∨ (x.act ≠ a ∧ x ∈ (s.zones[z]).scene.touched) := by
  rw [State.handedOver, updScene_scene] at hx
  obtain ⟨t, ht, rfl⟩ := List.mem_map.1 hx
  by_cases h : t.act = a
  · rw [if_pos h]
    exact .inl ⟨h, rfl⟩
  · rw [if_neg h]
    exact .inr ⟨h, ht⟩

/-- A claim leaves every channel its owner, or makes the claiming cue its owner. -/
theorem claim_owner {i : Nat} {c : Cue} {a : ActIx} {x : Touched} (hx : x ∈ ((s.claim z i c a).zones[z]).scene.touched) :
    x.owner = some i ∨ ∃ t ∈ (s.zones[z]).scene.touched, t.act = x.act ∧ t.owner = x.owner := by
  rcases claim_cases s z i c a with h | h <;> rw [h] at hx
  · exact .inr ⟨x, hx, rfl, rfl⟩
  · obtain ⟨t, ht, hact, howner⟩ := beginFade_owner hx
    rcases handedOver_owner ht with ⟨_, ho⟩ | ⟨_, ht⟩
    · exact .inl (howner ▸ ho)
    · exact .inr ⟨t, ht, hact, howner⟩

/-- No cue of higher index owns the channel. -/
def Claimable (z : ZoneIx) (i : Nat) (a : ActIx) (s : State) : Prop :=
  ∀ t ∈ (s.zones[z]).scene.touched, t.act = a → ∀ j, t.owner = some j → j ≤ i

/-- The channel is the cue's. -/
def OwnedBy (z : ZoneIx) (i : Nat) (a : ActIx) (s : State) : Prop := ∀ t ∈ (s.zones[z]).scene.touched, t.act = a → t.owner = some i

theorem Claimable.claim {i : Nat} {a b : ActIx} {c : Cue} (h : Claimable z i a s) : Claimable z i a (s.claim z i c b) := by
  intro x hx ha j hj
  rcases claim_owner hx with ho | ⟨t, ht, hact, howner⟩
  · rw [ho] at hj
    cases hj
    exact Nat.le_refl _
  · exact h t ht (hact.trans ha) j (howner.trans hj)

theorem OwnedBy.claim {i : Nat} {a b : ActIx} {c : Cue} (h : OwnedBy z i a s) : OwnedBy z i a (s.claim z i c b) := by
  intro x hx ha
  rcases claim_owner hx with ho | ⟨t, ht, hact, howner⟩
  · exact ho
  · exact howner ▸ h t ht (hact.trans ha)

/-- What no cue of higher index owns, a cue owns after its claim. -/
theorem Claimable.owned {i : Nat} {a : ActIx} {c : Cue} (h : Claimable z i a s) : OwnedBy z i a (s.claim z i c a) := by
  cases hf : (s.zones[z]).scene.touched.find? (fun t => t.act == a) with
  | none =>
    intro x hx ha
    rw [claim_untouched hf] at hx
    exact absurd (beq_iff_eq.2 ha) (List.find?_eq_none.1 hf x hx)
  | some t =>
    intro x hx ha
    have hact : (t.act == a) = true := List.find?_some (p := fun t : Touched => t.act == a) hf
    rw [claim_taken hf (h t (List.mem_of_find?_eq_some hf) (beq_iff_eq.1 hact))] at hx
    obtain ⟨y, hy, hact, howner⟩ := beginFade_owner hx
    rcases handedOver_owner hy with ⟨_, ho⟩ | ⟨hne, _⟩
    · exact howner ▸ ho
    · exact absurd (hact.trans ha) hne

theorem claims_owned {i : Nat} {a : ActIx} {c : Cue} {l : List ActIx} (ha : a ∈ l) : ∀ {s : State}, Claimable z i a s →
    OwnedBy z i a (l.foldl (fun u b => u.claim z i c b) s) := by
  induction l with
  | nil => cases ha
  | cons b l ih =>
    intro s h
    by_cases hb : a = b
    · subst hb
      exact List.foldlRecOn (motive := OwnedBy z i a) l _ h.owned fun u hu b _ => hu.claim
    · exact ih ((List.mem_cons.1 ha).resolve_left hb) h.claim

/-! ### The start of a cue (R115) -/

/-- A cue has been marked started. -/
def State.cueMarked (s : State) (z : ZoneIx) (i : Nat) : State :=
  s.updScene z fun e => { e with cues := e.cues.modify i fun r => { r with status := .started } }

/-- A started cue has claimed its channels. -/
def State.cueClaimed (s : State) (z : ZoneIx) (i : Nat) (c : Cue) (run : CueRun) : State :=
  run.channels.foldl (fun u a => u.claim z i c a) (s.cueMarked z i)

theorem startCue_starts {i : CueIx} {n : SceneIx} {run : CueRun} (hrun : (s.zones[z]).scene.cues[i.val]? = some run)
    (hn : (s.zones[z]).scene.scene = some n) :
    s.startCue z i.val = (s.cueClaimed z i.val ((s.cfg.cues[n])[i]) run).restStepTimer z := by
  unfold State.startCue
  rw [hrun, cueOf_of_scene hn]
  rfl

theorem startCue_absent {i : Nat} (h : (s.zones[z]).scene.cues[i]? = none ∨ (s.zones[z]).scene.scene = none) :
    s.startCue z i = s := by
  unfold State.startCue
  split
  · rename_i run c hrun hc
    obtain ⟨m, hm⟩ := cueOf_some hc
    rcases h with h | h
    · rw [h] at hrun; cases hrun
    · rw [h] at hm; cases hm
  · rfl

theorem restStepTimer_eq (s : State) (z : ZoneIx) : s.restStepTimer z =
    if (s.zones[z]).scene.touched.any (fun t => t.fade.isSome) then s
    else s.updZone z fun r => { r with scene := { r.scene with stepTimer := .stopped } } := by
  unfold State.restStepTimer
  by_cases h : (s.zones[z]).scene.fading = true
  · rw [if_pos (show (s.zones[z]).scene.touched.any _ = true from h)]
    exact updScene_self (if_pos h)
  · rw [if_neg (show ¬ (s.zones[z]).scene.touched.any _ = true from h)]
    exact updScene_congr (g := fun e => { e with stepTimer := .stopped }) (if_neg h)

theorem fadeWork_restStepTimer (s : State) : FadeWork z s (s.restStepTimer z) :=
  fadeWork_updScene s _ (fun e => by cases e.fading <;> rfl) fun e => by cases e.fading <;> rfl

theorem fadeWork_cueStarted (s : State) (i : Nat) (c : Cue) (run : CueRun) :
    FadeWork z (s.cueMarked z i) ((s.cueClaimed z i c run).restStepTimer z) :=
  (FadeWork.foldl _ (fun u a => fadeWork_claim u i c a) run.channels _).trans (fadeWork_restStepTimer _)

theorem cueMarked_zone (s : State) (z : ZoneIx) (i : Nat) : (s.cueMarked z i).zones[z] = { s.zones[z] with scene :=
    { (s.zones[z]).scene with cues := (s.zones[z]).scene.cues.modify i fun r => { r with status := .started } } } := by
  rw [State.cueMarked, State.updScene_eq, State.updZone_same]

/-- A started cue owns those of its channels that no cue of higher index owned. -/
theorem cueStarted_owned {i : Nat} {c : Cue} {run : CueRun} {a : ActIx} (ha : a ∈ run.channels) (h : Claimable z i a s) :
    OwnedBy z i a ((s.cueClaimed z i c run).restStepTimer z) := by
  have hmarked : Claimable z i a (s.cueMarked z i) := by
    unfold Claimable
    rw [cueMarked_zone]
    exact h
  have howned : OwnedBy z i a (s.cueClaimed z i c run) := claims_owned ha hmarked
  rw [restStepTimer_eq]
  split
  · exact howned
  · unfold OwnedBy
    rw [State.updZone_same]
    exact howned

end Sys2Proof.Machine
end

section
/-! SUPPORT. The steps of the fades, the judgement of completion and its report (R117 to R120), and the obligation about the scene
engine's timers. -/

namespace Sys2Proof.Machine

variable {s t u : State} {z : ZoneIx}

/-! ### A step (R117) -/

/-- A channel after the next step of its fade. -/
def Touched.stepped (t : Touched) (f : Fade) : Touched :=
  { t with fade := if f.k + 1 < f.n then some { f with k := f.k + 1 } else none }

theorem fadeWork_stepChannel (s : State) (a : ActIx) (f : Fade) : FadeWork z s (s.stepChannel z a f) :=
  (fadeWork_jobRequest s a _).trans (fadeWork_updTouched _ a (f := fun t => t.stepped f) fun _ => rfl)

theorem fadeWork_stepOwned (s : State) (i : Nat) (a : ActIx) : FadeWork z s (s.stepOwned z i a) := by
  unfold State.stepOwned
  split
  · split
    · exact fadeWork_stepChannel s a _
    · exact .refl z s
  · exact .refl z s

/-- The channels of a cue, in expansion order. -/
theorem fadeWork_steps (s : State) (i : Nat) (l : List ActIx) : FadeWork z s (l.foldl (fun u a => u.stepOwned z i a) s) :=
  FadeWork.foldl _ (fun u a => fadeWork_stepOwned u i a) l s

theorem fadeWork_stepFades (s : State) (z : ZoneIx) : FadeWork z s (s.stepFades z) := by
  unfold State.stepFades
  dsimp only
  refine (FadeWork.foldl _ (fun u i => ?_) _ s).trans (fadeWork_updScene _ _ (fun _ => rfl) fun _ => rfl)
  split
  · exact fadeWork_steps u i _
  · exact .refl z u

theorem stepFades_timer (s : State) (z : ZoneIx) : ((s.stepFades z).zones[z]).scene.stepTimer =
    if ((s.stepFades z).zones[z]).scene.touched.any (fun x => x.fade.isSome) then .running 250 else .stopped := by
  unfold State.stepFades
  dsimp only
  rw [updScene_scene]
  rfl

/-! ### One channel through the steps -/

/-- What the engine notes of the channel `a` is `t`, and what the dispatcher has of it meets `R`. -/
structure ChannelIs (z : ZoneIx) (cfg : ConfigData) (a : ActIx) (t : Touched) (R : ActRt → Prop) (s : State) : Prop where
  cfg : s.cfg = cfg
  entry : (s.zones[z]).scene.touched.find? (fun x => x.act == a) = some t
  record : R s.acts[a]

/-- A change of another channel's entry is not seen at this one. -/
theorem find_updTouched_other {a b : ActIx} (h : a ≠ b) (e : SceneRt) {f : Touched → Touched} (hf : ∀ t, (f t).act = t.act) :
    (e.updTouched b f).touched.find? (fun x => x.act == a) = e.touched.find? fun x => x.act == a := by
  unfold SceneRt.updTouched
  induction e.touched with
  | nil => rfl
  | cons x l ih =>
    rw [List.map_cons, List.find?_cons, List.find?_cons, ih]
    by_cases hx : x.act = b
    · have ha : (x.act == a) = false := beq_false_of_ne fun e => h (e.symm.trans hx)
      rw [if_pos hx, hf, ha]
    · rw [if_neg hx]

theorem find_updTouched_same {a : ActIx} {e : SceneRt} {t : Touched} {f : Touched → Touched} (hf : ∀ t, (f t).act = t.act)
    (h : e.touched.find? (fun x => x.act == a) = some t) :
    (e.updTouched a f).touched.find? (fun x => x.act == a) = some (f t) := by
  have hact : (t.act == a) = true := List.find?_some (p := fun x : Touched => x.act == a) h
  have hsame : ((fun x : Touched => x.act == a) ∘ fun x => if x.act = a then f x else x) = fun x => x.act == a := by
    funext x
    rw [Function.comp_apply]
    split
    · rw [hf]
    · rfl
  unfold SceneRt.updTouched
  rw [List.find?_map, hsame, h, Option.map_some, if_pos (beq_iff_eq.1 hact)]

variable {cfg : ConfigData} {a b : ActIx} {x : Touched} {f : Fade} {R : ActRt → Prop}

theorem ChannelIs.updScene {g : SceneRt → SceneRt} (hg : ∀ e, (g e).touched = e.touched) (h : ChannelIs z cfg a x R s) :
    ChannelIs z cfg a x R (s.updScene z g) := ⟨h.cfg, by rw [updScene_scene, hg]; exact h.entry, h.record⟩

theorem ChannelIs.stepChannel_other (h : ChannelIs z cfg a x R s) (hb : a ≠ b) : ChannelIs z cfg a x R (s.stepChannel z b f) where
  cfg := (fadeWork_stepChannel (z := z) s b f).cfg.trans h.cfg
  entry := by
    unfold State.stepChannel
    dsimp only
    rw [updScene_scene]
    refine (find_updTouched_other (f := fun t => t.stepped f) hb _ fun _ => rfl).trans ?_
    rw [jobRequest_frame]
    exact h.entry
  record := by
    unfold State.stepChannel
    dsimp only
    rw [State.updScene_eq, State.updZone_acts, jobRequest_other hb]
    exact h.record

/-- The step of another channel, or of another cue's, leaves a channel as it is. -/
theorem ChannelIs.stepOwned_other (h : ChannelIs z cfg a x R s) {i : Nat} (hi : b ≠ a ∨ x.owner ≠ some i) :
    ChannelIs z cfg a x R (s.stepOwned z i b) := by
  unfold State.stepOwned
  split
  next act j g refused hentry =>
    split
    · rename_i hij
      refine h.stepChannel_other ?_
      rintro rfl
      rw [h.entry] at hentry
      cases hentry
      exact (hi.resolve_left fun hne => hne rfl) (by rw [hij])
    · exact h
  next => exact h

/-- The step of a channel that its cue owns. -/
theorem ChannelIs.stepOwned_own (h : ChannelIs z cfg a x R s) {i : Nat} (ho : x.owner = some i) (hf : x.fade = some f) :
    s.stepOwned z i a = s.stepChannel z a f := by
  obtain ⟨act, owner, fade, refused⟩ := x
  cases ho
  cases hf
  unfold State.stepOwned
  rw [h.entry]
  exact if_pos rfl

/-- The level of a step has been requested of an actuator that is a dimmer of the zone (R117, R129). -/
def Stepped (z : ZoneIx) (c : ActCfg) (f : Fade) (r : ActRt) : Prop :=
  c.inUse = true → c.kind = .dimmer → c.zone = z → r.requested = some (c.limited (f.level (f.k + 1)))

/-- A channel's own step: its level requested, and its fade one step further or ended. -/
theorem ChannelIs.stepChannel_own (h : ChannelIs z cfg a x R s) :
    ChannelIs z cfg a (x.stepped f) (Stepped z cfg.acts[a] f) (s.stepChannel z a f) where
  cfg := (fadeWork_stepChannel (z := z) s a f).cfg.trans h.cfg
  entry := by
    unfold State.stepChannel
    dsimp only
    rw [updScene_scene]
    refine find_updTouched_same (f := fun t => t.stepped f) (fun _ => rfl) ?_
    rw [jobRequest_frame]
    exact h.entry
  record := by
    intro hu hk hz
    unfold State.stepChannel
    dsimp only
    rw [State.updScene_eq, State.updZone_acts]
    obtain rfl := h.cfg
    exact jobRequest_requested hu hk hz _

/-- The steps of the cue that owns a channel and lists it once. -/
theorem ChannelIs.steps_own (h : ChannelIs z cfg a x R s) {i : Nat} (ho : x.owner = some i) (hf : x.fade = some f)
    {l : List ActIx} (hl : l.count a = 1) :
    ChannelIs z cfg a (x.stepped f) (Stepped z cfg.acts[a] f) (l.foldl (fun u b => u.stepOwned z i b) s) :=
  foldl_once (P := ChannelIs z cfg a x R) (fun _ _ hb hu => hu.stepOwned_other (.inl hb))
    (fun _ hu => hu.stepOwned_own ho hf ▸ hu.stepChannel_own) (fun _ _ hb hu => hu.stepOwned_other (.inl hb)) hl h

theorem ChannelIs.steps_other (h : ChannelIs z cfg a x R s) {i : Nat} (hi : x.owner ≠ some i) (l : List ActIx) :
    ChannelIs z cfg a x R (l.foldl (fun u b => u.stepOwned z i b) s) :=
  List.foldlRecOn (motive := ChannelIs z cfg a x R) l _ h fun _ hu _ _ => hu.stepOwned_other (.inr hi)

/-- An expiry of the step timer takes one step of each fade whose channel its cue lists once (R117). -/
theorem stepFades_channel {j : CueIx} {run : CueRun} (he : (s.zones[z]).scene.touched.find? (fun x => x.act == a) = some x)
    (ho : x.owner = some j.val) (hf : x.fade = some f) (hrun : (s.zones[z]).scene.cues[j.val]? = some run)
    (hc : run.channels.count a = 1) : ChannelIs z s.cfg a (x.stepped f) (Stepped z s.cfg.acts[a] f) (s.stepFades z) := by
  have hcount : (List.range 16).count j.val = 1 := List.count_eq_one_of_mem List.nodup_range (List.mem_range.2 j.isLt)
  have hne {i : Nat} (hi : i ≠ j.val) : some j.val ≠ some i := fun e => hi (Option.some.inj e).symm
  unfold State.stepFades
  dsimp only
  refine ChannelIs.updScene ?_ (foldl_once (P := ChannelIs z s.cfg a x fun _ => True) (fun u i hi hu => ?_) (fun u hu => ?_)
    (fun u i hi hu => ?_) hcount ⟨rfl, he, trivial⟩)
  · exact fun _ => rfl
  · split
    · exact hu.steps_other (ho ▸ hne hi) _
    · exact hu
  · rw [hrun]
    exact hu.steps_own ho hf hc
  · split
    · exact hu.steps_other (show x.owner ≠ _ from ho ▸ hne hi) _
    · exact hu

/-! ### The judgement (R118, R119) -/

/-- A finding has been noted. -/
def State.judged (s : State) (z : ZoneIx) (state : SceneState) (degraded : Option ActIx) : State :=
  s.updScene z fun e => { e with state := state, degraded := degraded }

theorem lowestDegraded_some {a : ActIx} (h : s.lowestDegraded z = some a) : Finding s z .completeDegraded (some a) := by
  have hsome := List.find?_some h
  rw [List.any_eq_true] at hsome
  obtain ⟨t, ht, htest⟩ := hsome
  rw [Bool.and_eq_true, beq_iff_eq, channelDegraded_iff] at htest
  obtain ⟨hact, hdegraded⟩ := htest
  refine ⟨fun x hx hd => ⟨rfl, a, rfl, find_indices_le h ?_⟩, fun b hb => ?_, fun hall => ?_, fun hall _ => ?_⟩
  · rw [List.any_eq_true]
    exact ⟨x, hx, by rw [channelDegraded_iff.2 hd, beq_self_eq_true]; rfl⟩
  · cases hb
    exact ⟨t, ht, hact, hdegraded⟩
  · exact absurd hdegraded (hall t ht).1
  · exact absurd hdegraded (hall t ht)

theorem lowestDegraded_none (h : s.lowestDegraded z = none) :
    ∀ t ∈ (s.zones[z]).scene.touched, ¬ ChannelDegraded s t := by
  intro t ht hd
  refine List.find?_eq_none.1 h t.act (mem_indices t.act) (List.any_eq_true.2 ⟨t, ht, ?_⟩)
  rw [channelDegraded_iff.2 hd, beq_self_eq_true]
  rfl

theorem sceneJudge_finding (s : State) (z : ZoneIx) : ∃ state degraded, Finding s z state degraded ∧
    s.sceneJudge z = (s.judged z state degraded, if state = .settling then none else some state) := by
  unfold State.sceneJudge
  cases hlow : s.lowestDegraded z with
  | some a => exact ⟨_, _, lowestDegraded_some hlow, rfl⟩
  | none =>
    have hnone := lowestDegraded_none hlow
    by_cases hall : (s.zones[z]).scene.touched.all s.channelSettled = true
    · have hsettled (t : Touched) (ht : t ∈ (s.zones[z]).scene.touched) : ChannelSettled s t :=
        channelSettled_iff.1 (List.all_eq_true.1 hall t ht)
      exact ⟨.complete, none, ⟨fun t ht hd => absurd hd (hnone t ht), nofun, fun _ => rfl,
        fun _ ⟨t, ht, hn⟩ => absurd (hsettled t ht) hn⟩, if_pos hall⟩
    · refine ⟨.settling, none, ⟨fun t ht hd => absurd hd (hnone t ht), nofun, fun h => ?_, fun _ _ => rfl⟩, if_neg hall⟩
      exact absurd (List.all_eq_true.2 fun t ht => channelSettled_iff.2 (h t ht).2) hall

/-- A finding depends on the channels and the actuators. -/
theorem Finding.of_same {state : SceneState} {degraded : Option ActIx} (h : Finding s z state degraded)
    (ht : (t.zones[z]).scene.touched = (s.zones[z]).scene.touched) (ha : t.acts = s.acts) (hc : t.cfg = s.cfg) :
    Finding t z state degraded := by
  have hd : ChannelDegraded t = ChannelDegraded s := by unfold ChannelDegraded; rw [ha]
  have hs : ChannelSettled t = ChannelSettled s := by unfold ChannelSettled; rw [ha, hc]
  constructor <;> rw [ht, hd]
  · exact h.fails
  · exact h.lowest
  · rw [hs]; exact h.completes
  · rw [hs]; exact h.waits

theorem judgeIfDone_done (hr : (s.zones[z]).scene.state = .running) (hw : ¬ AtWork (s.zones[z]).scene) :
    s.judgeIfDone z = s.sceneJudge z := by
  rw [← atWork_iff, Bool.not_eq_true, Bool.or_eq_false_iff] at hw
  exact if_pos ⟨hr, by rw [hw.1]; rfl, by rw [hw.2]; rfl⟩

theorem judgeIfDone_not (h : (s.zones[z]).scene.state ≠ .running ∨ AtWork (s.zones[z]).scene) : s.judgeIfDone z = (s, none) := by
  refine if_neg fun ⟨hr, hc, hf⟩ => (h.resolve_left (not_not_intro hr) |> atWork_iff.2 |> Bool.or_eq_true_iff.1).elim ?_ ?_
  · intro hp; rw [hp] at hc; cases hc
  · intro hp; rw [hp] at hf; cases hf

/-- A judgement, if there is one, notes its finding in the engine's record. -/
theorem judgeIfDone_cases (s : State) (z : ZoneIx) :
    (s.judgeIfDone z).1 = s ∨ ∃ state degraded, (s.judgeIfDone z).1 = s.judged z state degraded := by
  by_cases h : (s.zones[z]).scene.state ≠ .running ∨ AtWork (s.zones[z]).scene
  · exact .inl (by rw [judgeIfDone_not h])
  · rw [not_or, not_not] at h
    obtain ⟨state, degraded, -, hj⟩ := sceneJudge_finding s z
    exact .inr ⟨state, degraded, by rw [judgeIfDone_done h.1 h.2, hj]⟩

/-! ### Reports to the engine (R120) -/

/-- The mark of a channel after the report of an outcome. -/
def State.rangeMarked (s : State) (z : ZoneIx) (a : ActIx) (outcome : CommandOutcome) : State := s.updZone z fun r =>
  { r with scene := { r.scene with touched := r.scene.touched.map fun t =>
    if t.act = a ∧ outcome = .refusedRange then { t with rangeRefused := true }
    else if t.act = a ∧ outcome = .applied then { t with rangeRefused := false } else t } }

theorem touches_iff {e : SceneRt} : (e.touched.any fun t => t.act == a) = true ↔ ∃ t ∈ e.touched, t.act = a := by
  simp only [List.any_eq_true, beq_iff_eq]

theorem sceneOutcome_touched (h : ∃ t ∈ (s.zones[z]).scene.touched, t.act = a) (outcome : CommandOutcome) :
    s.sceneOutcome z a outcome = match (s.zones[z]).scene.state with
      | .running => (s.rangeMarked z a outcome, none)
      | .settling => (s.rangeMarked z a outcome).sceneJudge z
      | .idle | .complete | .completeDegraded => (s, none) := by
  have hmarked : s.updScene z (fun e => e.updTouched a fun t =>
      { t with rangeRefused := match outcome with
        | .refusedRange => true
        | .applied => false
        | .refusedHand | .timeout => t.rangeRefused }) = s.rangeMarked z a outcome := by
    unfold State.updScene State.rangeMarked SceneRt.updTouched
    cases outcome <;> simp
  unfold State.sceneOutcome
  rw [if_pos (touches_iff.2 h)]
  exact hmarked ▸ rfl

theorem sceneOutcome_unused {outcome : CommandOutcome} (h : (¬ ∃ t ∈ (s.zones[z]).scene.touched, t.act = a) ∨
    (s.zones[z]).scene.state = .idle ∨ (s.zones[z]).scene.state = .complete ∨ (s.zones[z]).scene.state = .completeDegraded) :
    s.sceneOutcome z a outcome = (s, none) := by
  by_cases ht : ∃ t ∈ (s.zones[z]).scene.touched, t.act = a
  · rw [sceneOutcome_touched ht]
    rcases h.resolve_left (not_not_intro ht) with hs | hs | hs <;> rw [hs]
  · exact if_neg fun hany => ht (touches_iff.1 hany)

theorem sceneControl_settling (h : ∃ t ∈ (s.zones[z]).scene.touched, t.act = a) (hs : (s.zones[z]).scene.state = .settling) :
    s.sceneControl z a = s.sceneJudge z := if_pos ⟨hs, touches_iff.2 h⟩

theorem sceneControl_unused (h : (¬ ∃ t ∈ (s.zones[z]).scene.touched, t.act = a) ∨ (s.zones[z]).scene.state ≠ .settling) :
    s.sceneControl z a = (s, none) :=
  if_neg fun ⟨hs, ht⟩ => (h.resolve_left (not_not_intro (touches_iff.1 ht))) hs

/-! ### Reports of the engine (R89, R119) -/

/-- What the covers make of a scene's outcome leaves the engine's record, but for its cover work, and the dimmers. -/
structure LeavesScene (z : ZoneIx) (s t : State) : Prop where
  scene : ∃ work, (t.zones[z]).scene = { (s.zones[z]).scene with coverWork := work }
  dimmers : ∀ a : ActIx, (s.cfg.acts[a]).kind = .dimmer → t.acts[a] = s.acts[a]

theorem LeavesScene.refl (z : ZoneIx) (s : State) : LeavesScene z s s := ⟨⟨_, rfl⟩, fun _ _ => rfl⟩

theorem EntersWay.leavesScene (h : EntersWay s u z) (hl : (s.zones[z]).cover.state ≠ .covered) : LeavesScene z s u := by
  obtain ⟨hreaches, hscene⟩ := h.reaches hl
  exact ⟨hscene, hreaches.stands (.acts .dimmer) (by decide)⟩

theorem coverScene_leaves (s : State) (z : ZoneIx) (outcome : SceneState) : LeavesScene z s (s.coverScene z outcome) := by
  by_cases h : ((s.zones[z]).cover.state = .prepClose ∨ (s.zones[z]).cover.state = .prepOpen) ∧
      (s.zones[z]).scene.origin = some .coverWork
  · obtain ⟨hprep, horigin⟩ := h
    have hmotion : (s.zones[z]).cover.state.isMotion = false := by rcases hprep with h | h <;> rw [h] <;> rfl
    have hcovered : (s.zones[z]).cover.state ≠ .covered := by rcases hprep with h | h <;> rw [h] <;> decide
    rw [coverScene_reported hprep horigin]
    cases outcome with
    | complete =>
      dsimp only
      split
      · have hcover := reaches_updCover (z := z) s fun c => { c with lightingReady := true }
        exact ⟨⟨_, hcover.stands .scene (by decide)⟩, fun _ _ => rfl⟩
      · exact (enterMotion_enters hmotion (motionAfterPrep_isMotion _)).leavesScene hcovered
    | completeDegraded => exact (enterFault_enters hmotion _ _).leavesScene hcovered
    | _ => exact .refl z s
  · rw [coverScene_unused (.inl h)]
    exact .refl z s

theorem reportScene_leaves (p : State × Option SceneState) : LeavesScene z p.1 (State.reportScene z p) := by
  obtain ⟨v, outcome⟩ := p
  cases outcome with
  | none => exact .refl z v
  | some outcome => exact coverScene_leaves v z outcome

/-- An engine's cues and channels and the zone's dimmers when its work has been judged and reported. -/
structure Concluded (z : ZoneIx) (v u : State) : Prop where
  cues : (u.zones[z]).scene.cues = (v.zones[z]).scene.cues
  touched : (u.zones[z]).scene.touched = (v.zones[z]).scene.touched
  dimmers : ∀ a : ActIx, (v.cfg.acts[a]).kind = .dimmer → u.acts[a] = v.acts[a]

/-- The work of an engine is judged and reported. -/
def State.concluded (v : State) (z : ZoneIx) : State := State.reportScene z (v.judgeIfDone z)

theorem concluded_of (v : State) (z : ZoneIx) : Concluded z v (v.concluded z) := by
  have hleaves := reportScene_leaves (z := z) (v.judgeIfDone z)
  obtain ⟨⟨work, hscene⟩, hdimmers⟩ := hleaves
  rcases judgeIfDone_cases v z with h | ⟨state, degraded, h⟩
  · rw [h] at hscene hdimmers
    exact ⟨by rw [State.concluded, hscene], by rw [State.concluded, hscene], hdimmers⟩
  · rw [h, State.judged] at hdimmers
    rw [h, State.judged, updScene_scene] at hscene
    exact ⟨by rw [State.concluded, hscene], by rw [State.concluded, hscene], hdimmers⟩

theorem zoneWork_concluded (v : State) (z : ZoneIx) : OneZoneWork z v (v.concluded z) :=
  ZoneWork.trans (zs := fun w => w = z) (zoneWork_judgeIfDone v z rfl) (zoneWork_reportScene z _ rfl)

/-! ### The expiries (R115, R117) -/

theorem exec_cueDelayExpiry {i : CueIx} (hh : (s.zones[z]).held = false) (hd : (s.zones[z]).scene.dueCue = some i.val) :
    exec (.cueDelayExpiry z i) s = .next ((s.startCue z i.val).concluded z) :=
  congrArg Host.Outcome.next (if_pos (by rw [hh, hd]; simp))

theorem exec_fadeStep (h : (s.zones[z]).scene.stepTimer = .running 0) :
    exec (.fadeStep z) s = .next ((s.stepFades z).concluded z) := congrArg Host.Outcome.next (if_pos ((due_iff _).2 h))

/-- A due cue stands in the engine's list. -/
theorem dueCue_run {e : SceneRt} {i : Nat} (h : e.dueCue = some i) : ∃ run, e.cues[i]? = some run := by
  obtain ⟨hi, -⟩ := List.findIdx?_eq_some_iff_getElem.1 h
  exact ⟨_, List.getElem?_eq_getElem hi⟩

/-- What the start of a cue leaves: its channels' entries and the step timer apart, it has marked the cue as started. -/
theorem startCue_zone {i : CueIx} {n : SceneIx} {run : CueRun} (hrun : (s.zones[z]).scene.cues[i.val]? = some run)
    (hn : (s.zones[z]).scene.scene = some n) :
    FadeWork z (s.cueMarked z i.val) (s.startCue z i.val) ∧ (s.startCue z i.val).zones[z] = { s.zones[z] with scene :=
      { (s.zones[z]).scene with
        cues := (s.zones[z]).scene.cues.modify i.val fun c => { c with status := .started }
        touched := ((s.startCue z i.val).zones[z]).scene.touched
        stepTimer := ((s.startCue z i.val).zones[z]).scene.stepTimer } } := by
  have hwork := fadeWork_cueStarted (z := z) s i.val ((s.cfg.cues[n])[i]) run
  rw [startCue_starts hrun hn]
  have hzone := hwork.zone
  rw [cueMarked_zone] at hzone
  exact ⟨hwork, hzone⟩

/-- Settles O45: the fades, claims and starts, the judgement and the reports by their cases, and the two expiries as the work of the
engine, judged and reported. -/
theorem sceneTimersAct : Obligations.SceneTimersAct := by
  refine ⟨?_, ?_⟩ <;> intro s z scene
  · refine ⟨fun c a => ?_, fun i c a => ⟨claim_untouched, fun t ht => ⟨fun j => claim_left ht, claim_taken ht⟩⟩,
      fun i => ⟨fun run n hrun hn => (startCue_starts hrun hn).trans (restStepTimer_eq _ z), startCue_absent⟩,
      sceneJudge_finding s z, judgeIfDone_done, judgeIfDone_not, fun a outcome => ?_, rfl, fun _ => rfl⟩
    · intro start
      have hstart : start = (s.acts[a]).startLevel := requested_or _
      rw [hstart]
      exact ⟨fun ls => beginFade_fades, beginFade_requests⟩
    · refine ⟨fun ht hs => ?_, fun ht hs => ⟨?_, sceneControl_settling ht hs⟩, sceneOutcome_unused, sceneControl_unused⟩
      · rw [sceneOutcome_touched ht, show (s.zones[z]).scene.state = .running from hs]
        rfl
      · rw [sceneOutcome_touched ht, show (s.zones[z]).scene.state = .settling from hs]
        rfl
  · refine ⟨fun i n hh hn hd => ?_, fun hdue => ?_⟩
    · obtain ⟨run, hrun⟩ := dueCue_run hd
      obtain ⟨hwork, hzone⟩ := startCue_zone hrun hn
      have hstart : OneZoneWork z s (s.startCue z i.val) := zoneWork_startCue s z i.val rfl
      have hend := concluded_of (s.startCue z i.val) z
      refine ⟨_, exec_cueDelayExpiry hh hd, hstart.trans (zoneWork_concluded _ z),
        ⟨_, rfl, rfl, hstart, hwork.mgmt, hwork.acct, hzone⟩, ?_, fun run' hrun' a ha t ht hact howners => ?_⟩
      · rw [hend.cues, hzone]
      · obtain rfl : run = run' := Option.some.inj (hrun.symm.trans hrun')
        have howned : OwnedBy z i.val a (s.startCue z i.val) := by
          rw [startCue_starts hrun hn]
          exact cueStarted_owned ha howners
        obtain ⟨x, hx, hxa⟩ := hwork.touches (a := a) (by rw [cueMarked_zone]; exact ⟨t, ht, hact⟩)
        exact ⟨x, by rw [hend.touched]; exact hx, hxa, howned x hx hxa⟩
    · have hwork := fadeWork_stepFades s z
      have hend := concluded_of (s.stepFades z) z
      have hzone := hwork.zone
      rw [stepFades_timer] at hzone
      refine ⟨_, exec_fadeStep hdue, hwork.work.trans (zoneWork_concluded _ z),
        ⟨_, rfl, hwork.work, hwork.mgmt, hwork.acct, hzone⟩, fun a t j f run ht ho hf hrun hc => ?_⟩
      have hstepped := stepFades_channel ht ho hf hrun hc
      refine ⟨⟨t.stepped f, by rw [hend.touched]; exact hstepped.entry, ho, rfl⟩, fun hu hk hz => ?_⟩
      have hlevel := hstepped.record hu hk hz
      rw [Fade.level, Nat.cast_add, Nat.cast_one] at hlevel
      rw [hend.dimmers a (by rw [hwork.cfg]; exact hk)]
      exact hlevel

end Sys2Proof.Machine
end

section
/-! SUPPORT. A take (R111 to R114): the cues that apply, their channels, the record of the take, the cues that start with it, and the
obligation about SCENE_REQUEST. -/

namespace Sys2Proof.Machine

variable {s t u : State} {z : ZoneIx} {n : SceneIx} {o : TakeOrigin}

/-! ### Guards and channels (R113, R114) -/

/-- The cues that apply are those of the walk over the guards. -/
theorem appliedCues_walk (s : State) (z : ZoneIx) (cues : List Cue) : ∀ k, Walk s z k cues (appliedCues (s.guardHolds z) k cues) := by
  induction cues with
  | nil => exact fun k => by cases k <;> exact .done _
  | cons c cues ih =>
    intro k
    cases k with
    | succ k => exact .passed (ih k)
    | zero =>
      unfold appliedCues
      split
      · exact .applied (guardHolds_iff.1 ‹_›) (ih 0)
      · exact .withheld (fun hg => absurd (guardHolds_iff.2 hg) ‹_›) (ih c.skip)

theorem isDimmerOf_eq (s : State) (z : ZoneIx) (a : ActIx) : s.isDimmerOf z a =
    decide ((s.cfg.acts[a]).inUse = true ∧ (s.cfg.acts[a]).kind = .dimmer ∧ (s.cfg.acts[a]).zone = z) := by
  rw [Bool.eq_iff_iff, decide_eq_true_iff]
  simp [State.isDimmerOf, and_assoc]

theorem cueRun_eq (s : State) (z : ZoneIx) (applied : Bool) (c : Cue) : s.cueRun z applied c = cueTaken s z applied c := by
  have hfilter : s.isDimmerOf z = fun a =>
      decide ((s.cfg.acts[a]).inUse = true ∧ (s.cfg.acts[a]).kind = .dimmer ∧ (s.cfg.acts[a]).zone = z) :=
    funext (isDimmerOf_eq s z)
  unfold State.cueRun cueTaken State.expand
  rw [hfilter]
  cases applied with
  | false => rfl
  | true => simp only [if_true, List.isEmpty_iff]

theorem takeCues_eq (s : State) (z : ZoneIx) (n : SceneIx) : s.takeCues z n = List.zipWith (cueTaken s z)
    (appliedCues (s.guardHolds z) 0 (s.sceneCues n)) (s.sceneCues n) := by
  unfold State.takeCues
  rw [show s.cueRun z = cueTaken s z from funext fun applied => funext (cueRun_eq s z applied)]

/-- A scene has at most 16 cues (R107). -/
theorem takeCues_length (s : State) (z : ZoneIx) (n : SceneIx) : (s.takeCues z n).length ≤ 16 := by
  have hcues : (s.sceneCues n).length ≤ 16 := by
    unfold State.sceneCues
    rw [List.length_take, Vector.length_toList]
    exact Nat.min_le_right ..
  unfold State.takeCues
  rw [List.length_zipWith]
  omega

/-- The first appearances are the list without its later repetitions. -/
theorem firstAppearances_eq (l : List ActIx) : firstAppearances l = l.eraseDups := by
  have hloop (l : List ActIx) : ∀ acc : List ActIx, List.eraseDupsBy.loop (fun a b => a == b) l acc =
      l.foldl (fun acc a => if a ∈ acc then acc else acc ++ [a]) acc.reverse := by
    induction l with
    | nil => exact fun acc => rfl
    | cons a l ih =>
      intro acc
      have hany : acc.any (fun b => a == b) = decide (a ∈ acc.reverse) := by
        rw [Bool.eq_iff_iff]
        simp
      rw [List.eraseDupsBy.loop, List.foldl_cons, hany]
      by_cases ha : a ∈ acc.reverse
      · rw [decide_eq_true ha, if_pos ha, ih]
      · rw [decide_eq_false ha, if_neg ha, ← List.reverse_cons]
        exact ih (a :: acc)
  exact (hloop l []).symm

/-! ### The take (R112) -/

theorem takeRecord_begun (s : State) (z : ZoneIx) (n : SceneIx) (o : TakeOrigin) : s.takeRecord z n o = s.takeBegun z n o := by
  have hnoted : s.takeNoted z n o = s.updZone z fun r => { r with scene := { r.scene with
      state := .running, scene := some n, origin := some o, takeTime := some s.now, cues := s.takeCues z n
      touched := ((s.takeCues z n).flatMap CueRun.channels).eraseDups.map fun a =>
        { act := a, owner := none, fade := none, rangeRefused := false }
      stepTimer := .stopped } } := by
    rw [← firstAppearances_eq]
    rfl
  rw [takeRecord_eq, hnoted]
  unfold State.takeBegun State.appendRing
  rfl

/-- The take with the cues that start in it, before it is judged. -/
def State.takeStarted (s : State) (z : ZoneIx) (n : SceneIx) (o : TakeOrigin) : State :=
  if (s.zones[z]).held then s.takeRecord z n o else (s.takeRecord z n o).startDueCues z

theorem takeScene_eq (s : State) (z : ZoneIx) (n : SceneIx) (o : TakeOrigin) :
    s.takeScene z n o = (s.takeStarted z n o).judgeIfDone z := by
  unfold State.takeScene State.takeStarted
  dsimp only
  rw [takeRecord_held]

theorem takeStarted_begun (s : State) (z : ZoneIx) (n : SceneIx) (o : TakeOrigin) : s.takeStarted z n o =
    if (s.zones[z]).held then s.takeBegun z n o else (s.takeBegun z n o).cuesStarted z := by
  unfold State.takeStarted
  rw [startDueCues_eq, takeRecord_begun]

theorem takeRecord_scene (s : State) (z : ZoneIx) (n : SceneIx) (o : TakeOrigin) : ((s.takeRecord z n o).zones[z]).scene =
    { (s.zones[z]).scene with
      scene := some n, origin := some o, takeTime := some s.now, cues := s.takeCues z n
      touched := (firstAppearances ((s.takeCues z n).flatMap CueRun.channels)).map fun a =>
        { act := a, owner := none, fade := none, rangeRefused := false }
      stepTimer := .stopped, state := .running } := (takeRecord_sceneRt s z n o).trans (takeNoted_sceneRt s z n o)

/-! ### The cues that start with it (R112, R115) -/

/-- The cues have the channels they had, and the engine touches the channels it touched. -/
structure SameChannels (z : ZoneIx) (s t : State) : Prop where
  cues : (t.zones[z]).scene.cues.map CueRun.channels = (s.zones[z]).scene.cues.map CueRun.channels
  touched : (t.zones[z]).scene.touched.map Touched.act = (s.zones[z]).scene.touched.map Touched.act

theorem SameChannels.refl (z : ZoneIx) (s : State) : SameChannels z s s := ⟨rfl, rfl⟩

theorem SameChannels.trans (h : SameChannels z s t) (h' : SameChannels z t u) : SameChannels z s u :=
  ⟨h'.cues.trans h.cues, h'.touched.trans h.touched⟩

/-- Marking a cue as started leaves its channels. -/
theorem modify_channels (l : List CueRun) (i : Nat) :
    (l.modify i fun c => { c with status := .started }).map CueRun.channels = l.map CueRun.channels := by
  refine List.ext_getElem? fun j => ?_
  rw [List.getElem?_map, List.getElem?_map, List.getElem?_modify]
  cases l[j]? with
  | none => rfl
  | some c =>
    by_cases h : i = j
    · simp [h]
    · simp [h]

theorem startCue_channels (s : State) (z : ZoneIx) {i : Nat} (hi : i < 16) : SameChannels z s (s.startCue z i) := by
  cases hrun : (s.zones[z]).scene.cues[i]? with
  | none => rw [startCue_absent (.inl hrun)]; exact .refl z s
  | some run =>
    cases hn : (s.zones[z]).scene.scene with
    | none => rw [startCue_absent (.inr hn)]; exact .refl z s
    | some n =>
      obtain ⟨hwork, hzone⟩ := startCue_zone (i := ⟨i, hi⟩) hrun hn
      have hchannels := hwork.channels
      rw [cueMarked_zone] at hchannels
      exact ⟨by rw [hzone]; exact modify_channels _ i, hchannels⟩

theorem startDueCues_channels (s : State) (z : ZoneIx) : SameChannels z s (s.startDueCues z) := by
  unfold State.startDueCues
  refine List.foldlRecOn (motive := SameChannels z s) _ _ (.refl z s) fun u hu i hi => ?_
  split
  · exact hu.trans (startCue_channels u z (List.mem_range.1 hi))
  · exact hu

/-- The engine has a scene, and the cue at a place is not due. -/
structure NotDueAt (z : ZoneIx) (j : Nat) (s : State) : Prop where
  scene : (s.zones[z]).scene.scene ≠ none
  status : ∀ run, (s.zones[z]).scene.cues[j]? = some run → run.isDue = false

theorem startCue_scene (s : State) (z : ZoneIx) (i : Nat) : ((s.startCue z i).zones[z]).scene.scene = (s.zones[z]).scene.scene :=
  ((reaches_startCue (z := z) s i).stands .take (by decide)).1

/-- A due cue that starts is due no more. -/
theorem startCue_notDue (hs : (s.zones[z]).scene.scene ≠ none) {j : Nat} (hj : j < 16) : NotDueAt z j (s.startCue z j) := by
  refine ⟨by rw [startCue_scene]; exact hs, fun run hrun => ?_⟩
  obtain ⟨n, hn⟩ := Option.ne_none_iff_exists'.1 hs
  cases hold : (s.zones[z]).scene.cues[j]? with
  | none =>
    rw [startCue_absent (.inl hold), hold] at hrun
    cases hrun
  | some old =>
    rw [(startCue_zone (i := ⟨j, hj⟩) hold hn).2] at hrun
    dsimp only at hrun
    rw [List.getElem?_modify_eq, hold] at hrun
    cases hrun
    rfl

/-- When the due cues have started, none is due (R112 step 6). -/
theorem startDueCues_notDue (hs : (s.zones[z]).scene.scene ≠ none) {j : Nat} (hj : j < 16) : NotDueAt z j (s.startDueCues z) := by
  unfold State.startDueCues
  refine foldl_once (x := j) (P := fun u => (u.zones[z]).scene.scene ≠ none) (fun u i _ hu => ?_) (fun u hu => ?_)
    (fun u i hi hu => ?_) (List.count_eq_one_of_mem List.nodup_range (List.mem_range.2 hj)) hs
  · split
    · rw [startCue_scene]; exact hu
    · exact hu
  · split
    · exact startCue_notDue hu hj
    · rename_i hdue
      refine ⟨hu, fun run hrun => ?_⟩
      rw [hrun, Option.any_some] at hdue
      exact Bool.not_eq_true _ ▸ hdue
  · split
    · exact ⟨by rw [startCue_scene]; exact hu.scene, by rw [startCue_cue u z hi.symm]; exact hu.status⟩
    · exact hu

/-! ### The engine after the take (R112, R119, R122) -/

theorem takeStarted_channels (s : State) (z : ZoneIx) (n : SceneIx) (o : TakeOrigin) :
    SameChannels z (s.takeRecord z n o) (s.takeStarted z n o) := by
  unfold State.takeStarted
  split
  · exact .refl z _
  · exact startDueCues_channels _ z

theorem takeStarted_running (s : State) (z : ZoneIx) (n : SceneIx) (o : TakeOrigin) :
    ((s.takeStarted z n o).zones[z]).scene.state = .running := by
  have hstarted := started_running s z n o
  unfold State.takeStarted
  cases (s.zones[z]).held with
  | true => rw [if_pos rfl, takeRecord_scene]
  | false =>
    rw [if_neg Bool.false_ne_true]
    generalize (s.takeRecord z n o).startDueCues z = v at hstarted
    exact hstarted

/-- What the engine holds once a take has been made. -/
structure TakeMade (s : State) (z : ZoneIx) (n : SceneIx) (u : State) : Prop where
  channels : (u.zones[z]).scene.cues.map CueRun.channels = (s.takeCues z n).map CueRun.channels
  touched : (u.zones[z]).scene.touched.map Touched.act = ((s.takeCues z n).flatMap CueRun.channels).eraseDups
  started : (s.zones[z]).held = false → ∀ run ∈ (u.zones[z]).scene.cues, run.status ≠ .pending 0
  pends : (s.zones[z]).held = true → (u.zones[z]).scene.cues = s.takeCues z n
  atWork : AtWork (u.zones[z]).scene → (u.zones[z]).scene.state = .running
  found : ¬ AtWork (u.zones[z]).scene → Finding u z (u.zones[z]).scene.state (u.zones[z]).scene.degraded

/-- A judgement leaves the engine at work in RUNNING, and otherwise with its finding (R119). -/
theorem judgeIfDone_outcome (hr : (s.zones[z]).scene.state = .running) {v : State} (hv : v = (s.judgeIfDone z).1) :
    ((v.zones[z]).scene.cues = (s.zones[z]).scene.cues ∧ (v.zones[z]).scene.touched = (s.zones[z]).scene.touched) ∧
    (AtWork (v.zones[z]).scene → (v.zones[z]).scene.state = .running) ∧
    (¬ AtWork (v.zones[z]).scene → Finding v z (v.zones[z]).scene.state (v.zones[z]).scene.degraded) := by
  by_cases hw : AtWork (s.zones[z]).scene
  · rw [judgeIfDone_not (.inr hw)] at hv
    subst hv
    exact ⟨⟨rfl, rfl⟩, fun _ => hr, fun h => absurd hw h⟩
  · obtain ⟨state, degraded, hfound, hj⟩ := sceneJudge_finding s z
    rw [judgeIfDone_done hr hw, hj] at hv
    subst hv
    have hscene : ((s.judged z state degraded).zones[z]).scene = { (s.zones[z]).scene with state := state, degraded := degraded } :=
      updScene_scene s z _
    dsimp only
    rw [hscene]
    exact ⟨⟨rfl, rfl⟩, fun h => absurd h hw, fun _ => hfound.of_same (by rw [hscene]) rfl rfl⟩

theorem takeScene_made (s : State) (z : ZoneIx) (n : SceneIx) (o : TakeOrigin) : TakeMade s z n (s.takeScene z n o).1 := by
  have hrecord := takeRecord_scene s z n o
  obtain ⟨hchannels, htouched⟩ := takeStarted_channels s z n o
  rw [hrecord] at hchannels htouched
  obtain ⟨⟨hcues, hentries⟩, hwork, hfound⟩ :=
    judgeIfDone_outcome (takeStarted_running s z n o) (congrArg Prod.fst (takeScene_eq s z n o))
  refine ⟨by rw [hcues]; exact hchannels, ?_, fun hh run hrun => ?_, fun hh => ?_, hwork, hfound⟩
  · rw [hentries, htouched, List.map_map, ← firstAppearances_eq]
    exact List.map_id _
  · rw [hcues] at hrun
    obtain ⟨j, hj⟩ := List.mem_iff_getElem?.1 hrun
    have hlength := congrArg List.length hchannels
    rw [List.length_map, List.length_map] at hlength
    have hlt : j < 16 := by
      have := (List.getElem?_eq_some_iff.1 hj).1
      have := takeCues_length s z n
      dsimp only at hlength
      omega
    have hdue : NotDueAt z j (s.takeStarted z n o) := by
      unfold State.takeStarted
      rw [if_neg (by rw [hh]; exact Bool.false_ne_true)]
      exact startDueCues_notDue (by rw [hrecord]; exact Option.some_ne_none n) hlt
    intro hp
    have := hdue.status run hj
    rw [CueRun.isDue, hp] at this
    cases this
  · rw [hcues, State.takeStarted, if_pos hh, hrecord]

/-- A scene without cues is complete at its take. -/
theorem TakeMade.empty (h : TakeMade s z n u) (h0 : (s.cfg.headers[n]).cueCount = 0) : (u.zones[z]).scene.state = .complete := by
  have hchannels := h.channels
  have htouched := h.touched
  rw [takeCues_empty h0] at hchannels htouched
  have hcues : (u.zones[z]).scene.cues = [] := List.map_eq_nil_iff.1 hchannels
  have hnone : (u.zones[z]).scene.touched = [] := List.map_eq_nil_iff.1 htouched
  have hrest : ¬ AtWork (u.zones[z]).scene := by
    unfold AtWork
    rw [hcues, hnone]
    simp
  refine (h.found hrest).completes ?_
  rw [hnone]
  exact nofun

/-- The take's record is the ring's youngest (R112 step 4, R183). -/
theorem takeScene_ring (hf : s.acct.frozen = false) (n : SceneIx) (o : TakeOrigin) : (s.takeScene z n o).1.acct.ring.getLast? =
    some { time := s.now, zone := z, entry := .scene (s.zones[z]).scene.scene n o } := by
  have hrecent := recent_appendRing (s := s.takeNoted z n o) hf z (.scene (s.zones[z]).scene.scene n o)
  have hafter : Reaches z [.acc accSceneChanges, .run, .scene, .acts .dimmer] 1 0
      ((s.takeNoted z n o).appendRing z (.scene (s.zones[z]).scene.scene n o)) (s.takeScene z n o).1 :=
    (reaches_offer _ accSceneChanges 1).trans (takeScene_cues s z n o)
  obtain ⟨older, younger, hring, hlength⟩ := hafter.ring _ 0 hrecent (by decide)
  obtain rfl : younger = [] := List.eq_nil_of_length_eq_zero (Nat.le_zero.1 hlength)
  rw [hring]
  exact List.getLast?_concat ..

/-- A take for a request reports to no one: its origin is not the covers' (R89). -/
theorem reportScene_request (s : State) (z : ZoneIx) (n : SceneIx) :
    State.reportScene z (s.takeScene z n .request) = (s.takeScene z n .request).1 := by
  obtain ⟨-, horigin, -⟩ := takeScene_taken s z n .request n rfl
  generalize s.takeScene z n .request = p at horigin
  unfold State.reportScene
  split
  · refine coverScene_unused (.inl fun h => ?_)
    rw [horigin] at h
    cases h.2
  · rfl

/-! ### SCENE_REQUEST (R111) -/

section Requested

variable {c : Channel} {tg : Telegram}

theorem sceneRequest_row (h : NextIs s c tg 5 [BitVec.ofNat 8 z, BitVec.ofNat 8 n]) : (Request.of c tg).row = .sceneRequest := by
  unfold Request.row
  rw [kind_of_next h]
  rfl

/-- The checks of R111 on the zone, and the take. -/
theorem exec_sceneRequest (h : NextIs s c tg 5 [BitVec.ofNat 8 z, BitVec.ofNat 8 n]) : exec .sceneRequest s = .next (
    if s.enabled z = false then (s.taken c).replied c tg 5 .wrongState []
    else if (s.zones[z]).scene.coverWork then (s.taken c).replied c tg 5 .interlocked []
    else (State.reportScene z ((s.taken c).takeScene z n .request)).replied c tg 5 .done []) := by
  have hz : (Request.of c tg).param 0 = (BitVec.ofNat 8 z.val : Byte).toNat := request_param h.payload 0
  have hn : (Request.of c tg).param 1 = (BitVec.ofNat 8 n.val : Byte).toNat := request_param h.payload 1
  refine congrArg Host.Outcome.next ((serve_own sceneRequestOwn .sceneRequest h (sceneRequest_row h)).trans ?_)
  unfold sceneRequestOwn
  rw [hz, hn, asIndex_byte z (by decide), asIndex_byte n (by decide)]
  dsimp only
  rw [taken_enabled, taken_zones]
  cases s.enabled z with
  | false => exact reply_now _ rfl h.payload
  | true =>
    cases (s.zones[z]).scene.coverWork with
    | true => exact reply_now _ rfl h.payload
    | false =>
      generalize State.reportScene z ((s.taken c).takeScene z n .request) = u
      exact reply_now _ rfl h.payload

/-- The cues of a take do not depend on the request that has been taken. -/
theorem taken_sceneCues (s : State) (c : Channel) (z : ZoneIx) (n : SceneIx) : (s.taken c).takeCues z n = s.takeCues z n := by
  cases c <;> rfl

theorem TakeMade.of_taken (h : TakeMade (s.taken c) z n u) : TakeMade s z n u := by
  obtain ⟨hchannels, htouched, hstarted, hpends, hwork, hfound⟩ := h
  rw [taken_sceneCues] at hchannels htouched hpends
  rw [taken_zones] at hstarted hpends
  exact ⟨hchannels, htouched, hstarted, hpends, hwork, hfound⟩

/-- Settles O53: the walk over the guards, the take by its steps, and the request's checks before it. -/
theorem sceneRequestsTakeTheScene : Obligations.SceneRequestsTakeTheScene := by
  refine ⟨fun s z => ⟨fun _ => guardHolds_iff, fun cues => appliedCues_walk s z cues 0, fun n origin => ?_, takeCues_eq s z⟩,
    fun s c t z n h => ⟨fun he => ?_, fun he hw => ?_, fun he hw => ?_⟩⟩
  · rw [takeScene_eq, takeStarted_begun]
  · rw [exec_sceneRequest h, if_pos he]
  · rw [exec_sceneRequest h, if_neg (by rw [he]; decide), if_pos hw]
  · have hmade : TakeMade s z n ((s.taken c).takeScene z n .request).1 := (takeScene_made (s.taken c) z n .request).of_taken
    obtain ⟨hscene, horigin, htime, haccount⟩ := takeScene_taken (s.taken c) z n .request n rfl
    have hring := takeScene_ring (s := s.taken c) (z := z) (n := n) (o := .request)
    rw [taken_acct, taken_now, taken_zones] at hring
    rw [taken_now] at htime
    unfold Accounted at haccount
    rw [taken_cfg, taken_acct] at haccount
    refine ⟨_, by rw [exec_sceneRequest h, if_neg (by rw [he]; decide), if_neg (by rw [hw]; decide)], ?_⟩
    have hwork : OneZoneWork z (s.taken c) ((s.taken c).takeScene z n .request).1 := zoneWork_takeScene _ z n _ rfl
    rw [reportScene_request]
    generalize ((s.taken c).takeScene z n .request).1 = u at *
    exact ⟨hwork, rfl, haccount, hscene, horigin, htime, hmade.channels, hmade.touched, hmade.started,
      hmade.pends, hmade.atWork, hmade.found, hmade.empty, hring⟩

end Requested

end Sys2Proof.Machine
end

section
/-! SUPPORT. The queues through the work of the zone blocks: actuators join their own job's queue, and none leaves (R130). -/

namespace Sys2Proof.Machine

section Joining

variable {z : ZoneIx} {s t u : State}

/-- A queue holds an actuator at most once, and only one that is QUEUED, ENABLED, in use and of its own job (R130, R131). -/
structure QueueLaw (s : State) : Prop where
  queued : ∀ (j : Job) (a : ActIx), a ∈ s.disp.queues.get j → (s.acts[a]).dispatch = .queued ∧
    (s.acts[a]).control = .enabled ∧ (s.cfg.acts[a]).inUse = true ∧ (s.cfg.acts[a]).kind.job = some j
  queues : ∀ j : Job, (s.disp.queues.get j).Nodup

/-- Work that moves actuators into queues alone: the queues keep their law, controls stand, and an actuator that is not ENABLED
keeps its dispatch state. -/
structure OnlyJoins (s t : State) : Prop where
  law : QueueLaw s → QueueLaw t
  control : ∀ a : ActIx, (t.acts[a]).control = (s.acts[a]).control
  dispatch : ∀ a : ActIx, (s.acts[a]).control ≠ .enabled → (t.acts[a]).dispatch = (s.acts[a]).dispatch

/-! ### The relation -/

/-- The law speaks of the queues, the configured actuators, and what an actuator's record says of its dispatch and control. -/
theorem QueueLaw.of_same (h : QueueLaw s) (hq : t.disp.queues = s.disp.queues) (hc : t.cfg.acts = s.cfg.acts)
    (ha : ∀ a : ActIx, (t.acts[a]).dispatch = (s.acts[a]).dispatch ∧ (t.acts[a]).control = (s.acts[a]).control) :
    QueueLaw t where
  queued j a hj := by
    rw [hq] at hj
    rw [(ha a).1, (ha a).2, hc]
    exact h.queued j a hj
  queues j := hq ▸ h.queues j

theorem OnlyJoins.of_same (hq : t.disp.queues = s.disp.queues) (hc : t.cfg.acts = s.cfg.acts)
    (ha : ∀ a : ActIx, (t.acts[a]).dispatch = (s.acts[a]).dispatch ∧ (t.acts[a]).control = (s.acts[a]).control) :
    OnlyJoins s t :=
  ⟨fun h => h.of_same hq hc ha, fun a => (ha a).2, fun a _ => (ha a).1⟩

theorem OnlyJoins.of_acts (hq : t.disp = s.disp) (hc : t.cfg.acts = s.cfg.acts) (ha : t.acts = s.acts) : OnlyJoins s t :=
  .of_same (by rw [hq]) hc fun a => by rw [ha]; exact ⟨rfl, rfl⟩

theorem OnlyJoins.refl (s : State) : OnlyJoins s s := .of_acts rfl rfl rfl

theorem OnlyJoins.trans (h : OnlyJoins s t) (h' : OnlyJoins t u) : OnlyJoins s u where
  law := h'.law ∘ h.law
  control a := (h'.control a).trans (h.control a)
  dispatch a ha := (h'.dispatch a (by rwa [h.control a])).trans (h.dispatch a ha)

theorem OnlyJoins.ite {c : Prop} [Decidable c] (h : c → OnlyJoins s t) (h' : ¬ c → OnlyJoins s u) :
    OnlyJoins s (if c then t else u) := by
  split
  · exact h ‹_›
  · exact h' ‹_›

theorem OnlyJoins.foldl {α : Type} {f : State → α → State} (h : ∀ s a, OnlyJoins s (f s a)) (l : List α) :
    ∀ s, OnlyJoins s (l.foldl f s) := by
  induction l with
  | nil => exact .refl
  | cons a l ih => exact fun s => (h s a).trans (ih _)

/-! ### Shared operations -/

theorem joins_updZone (s : State) (z : ZoneIx) (f : ZoneRt → ZoneRt) : OnlyJoins s (s.updZone z f) := .of_acts rfl rfl rfl

theorem joins_updPurge (s : State) (z : ZoneIx) (f : PurgeRt → PurgeRt) : OnlyJoins s (s.updPurge z f) := joins_updZone ..

theorem joins_updArb (s : State) (z : ZoneIx) (f : ArbRt → ArbRt) : OnlyJoins s (s.updArb z f) := joins_updZone ..

theorem joins_updCover (s : State) (z : ZoneIx) (f : CoverRt → CoverRt) : OnlyJoins s (s.updCover z f) := joins_updZone ..

theorem joins_updScene (s : State) (z : ZoneIx) (f : SceneRt → SceneRt) : OnlyJoins s (s.updScene z f) := joins_updZone ..

theorem joins_updAcct (s : State) (f : Accounting → Accounting) : OnlyJoins s (s.updAcct f) := .of_acts rfl rfl rfl

theorem joins_updMgmt (s : State) (f : Management → Management) : OnlyJoins s (s.updMgmt f) := .of_acts rfl rfl rfl

theorem joins_raise (s : State) (k : NoticeKind) (b : Byte) (d : List Byte) : OnlyJoins s (s.raise k b d) :=
  .ite (fun _ => joins_updMgmt ..) fun _ => joins_updMgmt ..

theorem joins_appendRing (s : State) (z : ZoneIx) (e : RingEntry) : OnlyJoins s (s.appendRing z e) :=
  .ite (fun _ => .refl s) fun _ => joins_updAcct ..

theorem joins_captureThreshold (s : State) : OnlyJoins s s.captureThreshold :=
  .ite (fun _ => (joins_updAcct s _).trans (joins_raise ..)) fun _ => .refl s

theorem joins_storeCapture (s : State) (r : CaptureRecord) : OnlyJoins s (s.storeCapture r) := by
  unfold State.storeCapture
  split
  · exact (joins_updAcct s _).trans (joins_captureThreshold _)
  · split
    · exact joins_updAcct ..
    · exact joins_updMgmt ..

theorem joins_capture (s : State) (z : ZoneIx) (r : CaptureReason) : OnlyJoins s (s.capture z r) :=
  (joins_storeCapture s _).trans (.ite (fun _ => joins_updAcct ..) fun _ => .refl _)

theorem joins_accOverflow (s : State) (z : ZoneIx) (a : AccIx) (v : BitVec 32) : OnlyJoins s (s.accOverflow z a v) := by
  have hstop (t : State) : OnlyJoins t (t.updPart fun p => { p with run := false }) := .of_acts rfl rfl rfl
  have hrun (t : State) (b : Bool) : OnlyJoins t (if b then t.updPart fun p => { p with run := false } else t) :=
    .ite (fun _ => hstop t) fun _ => .refl t
  unfold State.accOverflow
  exact (joins_raise s ..).trans ((hrun ..).trans (.ite (fun _ => joins_updZone ..) fun _ => .refl _))

theorem joins_offer (s : State) (z : ZoneIx) (a : AccIx) (n : Nat) : OnlyJoins s (s.offer z a n) :=
  .ite (fun _ => .ite (fun _ => joins_updAcct ..) fun _ => (joins_updAcct s _).trans (joins_accOverflow ..)) fun _ => .refl s

/-! ### Requests (R129, R130) -/

/-- A listed set of idle, ENABLED actuators in use that join the tails of their own queues. -/
theorem QueueLaw.of_joined {a : ActIx} (hs : QueueLaw s) (hm : MayQueue s a) (h : Joined [a] s t) : QueueLaw t := by
  have hnew (j : Job) : a ∉ s.disp.queues.get j := fun hj => by
    have := (hs.queued j a hj).1
    rw [hm.idle] at this
    cases this
  refine ⟨fun j b hb => ?_, fun j => ?_⟩
  · rw [h.queues, List.mem_append] at hb
    rw [h.acts, h.cfg]
    obtain hb | hb := hb
    · have hne : b ≠ a := fun e => hnew j (e ▸ hb)
      rw [if_neg (by simpa using hne)]
      exact hs.queued j b hb
    · obtain ⟨hba, hjob⟩ := List.mem_filter.1 hb
      obtain rfl := List.mem_singleton.1 hba
      rw [if_pos hba]
      exact ⟨rfl, hm.control, hm.inUse, of_decide_eq_true hjob⟩
  · rw [h.queues]
    refine (hs.queues j).append ((List.nodup_singleton a).filter _) fun b hb hf => ?_
    exact hnew j (List.mem_singleton.1 (List.mem_filter.1 hf).1 ▸ hb)

theorem joins_join (s : State) (a : ActIx) : OnlyJoins s (s.join a) := by
  by_cases he : s.eligible a = true
  · have hm := eligible_iff.1 he
    have h := joined_join he
    refine ⟨fun hs => hs.of_joined hm h, fun b => ?_, fun b hb => ?_⟩
    · rw [h.acts]
      split <;> rfl
    · rw [h.acts, if_neg]
      intro hba
      exact hb (List.mem_singleton.1 hba ▸ hm.control)
  · rw [join_waits he]
    exact .refl s

theorem joins_updAct (s : State) (a : ActIx) (f : ActRt → ActRt)
    (h : (f s.acts[a]).dispatch = (s.acts[a]).dispatch ∧ (f s.acts[a]).control = (s.acts[a]).control) :
    OnlyJoins s (s.updAct a f) :=
  .of_same rfl rfl fun b => by
    by_cases hb : b = a
    · subst hb; rw [State.updAct_same]; exact h
    · rw [State.updAct_other s hb]; exact ⟨rfl, rfl⟩

theorem request_dispatch (r : ActRt) (c : ActCfg) (v : Int) : (r.request c v).dispatch = r.dispatch := by
  unfold ActRt.request
  dsimp only
  split
  · rfl
  all_goals split <;> rfl

theorem joins_jobRequest (s : State) (k : ActKind) (z : ZoneIx) (a : ActIx) (v : Int) : OnlyJoins s (s.jobRequest k z a v) := by
  refine .ite (fun _ => (joins_updAct s a _ ⟨request_dispatch .., ?_⟩).trans (joins_join ..)) fun _ => .refl s
  exact (sameButQueued_request ..).control

theorem joins_requestAll (s : State) (k : ActKind) (z : ZoneIx) (v : ActCfg → Int) : OnlyJoins s (s.requestAll k z v) :=
  .foldl (fun s a => joins_jobRequest s k z a _) _ s

theorem joins_requestFans (s : State) (z : ZoneIx) (v : Int) : OnlyJoins s (s.requestFans z v) := joins_requestAll ..

theorem joins_requestDrives (s : State) (z : ZoneIx) (v : Int) : OnlyJoins s (s.requestDrives z v) :=
  .foldl (fun s a => joins_jobRequest s _ z a v) _ s

theorem joins_dispatcherClearHold (s : State) (z : ZoneIx) : OnlyJoins s (s.dispatcherClearHold z) := .foldl joins_join _ s

/-! ### The purge timer and the arbiter -/

theorem joins_purgeEnterWait (s : State) (z : ZoneIx) : OnlyJoins s (s.purgeEnterWait z) := joins_updPurge ..

theorem joins_purgeGranted (s : State) (z : ZoneIx) : OnlyJoins s (s.purgeGranted z) := by
  unfold State.purgeGranted
  exact (joins_updPurge s z _).trans (joins_requestFans ..)

theorem joins_purgeLeaveRun (s : State) (z : ZoneIx) : OnlyJoins s (s.purgeLeaveRun z) := by
  unfold State.purgeLeaveRun
  exact (joins_requestFans s z 0).trans ((joins_offer ..).trans (joins_updPurge ..))

theorem joins_purgeWithdrawn (s : State) (z : ZoneIx) : OnlyJoins s (s.purgeWithdrawn z) := by
  unfold State.purgeWithdrawn
  dsimp only
  exact .ite (fun _ => (joins_purgeLeaveRun s z).trans (.ite (fun _ => joins_purgeEnterWait ..) fun _ => joins_updPurge ..))
    fun _ => .refl s

theorem joins_tellPurge (s : State) (z : ZoneIx) (l g : Mode) : OnlyJoins s (s.tellPurge z l g) := by
  unfold State.tellPurge
  exact .ite (fun _ => joins_purgeGranted s z) fun _ => .ite (fun _ => joins_purgeWithdrawn s z) fun _ => .refl s

theorem joins_changeMode (s : State) (z : ZoneIx) (m : Mode) (c : ModeCause) : OnlyJoins s (s.changeMode z m c) := by
  unfold State.changeMode
  exact (joins_updArb s z _).trans ((joins_appendRing ..).trans (joins_tellPurge ..))

theorem joins_airRequest (s : State) (z : ZoneIx) (m : Mode) (n : Bool) (d : Int) (a : ActIx) :
    OnlyJoins s (s.airRequest z m n d a) := by
  unfold State.airRequest
  dsimp only
  split
  case h_1 | h_2 | h_3 => exact joins_jobRequest ..
  all_goals exact .refl s

theorem joins_airOutputs (s : State) (z : ZoneIx) : OnlyJoins s (s.airOutputs z) :=
  .foldl (fun s a => joins_airRequest s z _ _ _ a) _ s

theorem joins_arbitrateMode (s : State) (z : ZoneIx) (r : Bool) : OnlyJoins s (s.arbitrateMode z r) := by
  unfold State.arbitrateMode
  dsimp only
  exact .ite (fun _ => (joins_updArb s z _).trans (joins_updArb ..)) fun _ =>
    .ite (fun _ => (joins_updArb s z _).trans (joins_updArb ..)) fun _ =>
    .ite (fun _ => (joins_updArb s z _).trans (joins_updArb ..)) fun _ => (joins_updArb s z _).trans (joins_changeMode ..)

theorem joins_takeDecision (s : State) (z : ZoneIx) (r : Bool) : OnlyJoins s (s.takeDecision z r) := by
  unfold State.takeDecision
  dsimp only
  exact .ite (fun _ => (joins_arbitrateMode s z r).trans (joins_airOutputs ..)) fun _ => joins_arbitrateMode ..

theorem joins_arbiterDisable (s : State) (z : ZoneIx) : OnlyJoins s (s.arbiterDisable z) := by
  unfold State.arbiterDisable
  exact (joins_takeDecision s z false).trans (joins_updArb ..)

theorem joins_purgeRunEnd (s : State) (z : ZoneIx) : OnlyJoins s (s.purgeRunEnd z) := by
  unfold State.purgeRunEnd
  exact (joins_purgeLeaveRun s z).trans ((joins_purgeEnterWait _ z).trans (joins_takeDecision ..))

theorem joins_purgeInactive (s : State) (z : ZoneIx) : OnlyJoins s (s.purgeInactive z) := by
  have hleft (f : PurgeRt → PurgeRt) : OnlyJoins s ((s.purgeLeaveRun z).updPurge z f) :=
    (joins_purgeLeaveRun s z).trans (joins_updPurge ..)
  unfold State.purgeInactive
  dsimp only
  exact .ite (fun _ => .ite (fun _ => (hleft _).trans (joins_takeDecision ..)) fun _ => hleft _) fun _ => joins_updPurge ..

/-! ### Scenes -/

theorem joins_beginFade (s : State) (z : ZoneIx) (c : Cue) (a : ActIx) : OnlyJoins s (s.beginFade z c a) := by
  unfold State.beginFade
  dsimp only
  split
  · exact joins_jobRequest ..
  · split
    · exact joins_jobRequest ..
    · exact joins_updScene ..

theorem joins_claim (s : State) (z : ZoneIx) (i : Nat) (c : Cue) (a : ActIx) : OnlyJoins s (s.claim z i c a) := by
  have hbegin (f : SceneRt → SceneRt) : OnlyJoins s ((s.updScene z f).beginFade z c a) :=
    (joins_updScene ..).trans (joins_beginFade ..)
  unfold State.claim
  split
  · exact .refl s
  · exact .ite (fun _ => .refl s) fun _ => hbegin _

theorem joins_startCue (s : State) (z : ZoneIx) (i : Nat) : OnlyJoins s (s.startCue z i) := by
  unfold State.startCue State.restStepTimer
  split
  · exact (joins_updScene s z _).trans ((OnlyJoins.foldl (fun s a => joins_claim s z i _ a) _ _).trans (joins_updScene ..))
  · exact .refl s

theorem joins_startDueCues (s : State) (z : ZoneIx) : OnlyJoins s (s.startDueCues z) := by
  refine .foldl (fun s i => ?_) _ s
  split
  · exact joins_startCue s z i
  · exact .refl s

theorem joins_stepChannel (s : State) (z : ZoneIx) (a : ActIx) (f : Fade) : OnlyJoins s (s.stepChannel z a f) := by
  unfold State.stepChannel
  exact (joins_jobRequest s _ z a _).trans (joins_updScene ..)

theorem joins_stepOwned (s : State) (z : ZoneIx) (i : Nat) (a : ActIx) : OnlyJoins s (s.stepOwned z i a) := by
  unfold State.stepOwned
  split
  · exact .ite (fun _ => joins_stepChannel ..) fun _ => .refl s
  · exact .refl s

theorem joins_stepFades (s : State) (z : ZoneIx) : OnlyJoins s (s.stepFades z) := by
  unfold State.stepFades
  refine (OnlyJoins.foldl (fun s i => ?_) _ s).trans (joins_updScene ..)
  split
  · exact .foldl (fun s a => joins_stepOwned s z i a) _ s
  · exact .refl s

theorem joins_sceneJudge (s : State) (z : ZoneIx) : OnlyJoins s (s.sceneJudge z).1 := by
  unfold State.sceneJudge
  split
  · dsimp only
    exact joins_updScene s z _
  · split <;> dsimp only <;> exact joins_updScene s z _

theorem joins_judgeIfDone (s : State) (z : ZoneIx) : OnlyJoins s (s.judgeIfDone z).1 := by
  unfold State.judgeIfDone
  dsimp only
  split
  · exact joins_sceneJudge s z
  · exact .refl s

theorem joins_takeRecord (s : State) (z : ZoneIx) (n : SceneIx) (o : TakeOrigin) : OnlyJoins s (s.takeRecord z n o) := by
  unfold State.takeRecord
  exact (joins_updScene s z _).trans ((joins_appendRing ..).trans (joins_offer ..))

theorem joins_takeScene (s : State) (z : ZoneIx) (n : SceneIx) (o : TakeOrigin) : OnlyJoins s (s.takeScene z n o).1 := by
  unfold State.takeScene
  dsimp only
  have h := joins_takeRecord s z n o
  split
  · exact h.trans (joins_judgeIfDone ..)
  · exact h.trans ((joins_startDueCues ..).trans (joins_judgeIfDone ..))

theorem joins_sceneOutcome (s : State) (z : ZoneIx) (a : ActIx) (o : CommandOutcome) :
    OnlyJoins s (s.sceneOutcome z a o).1 := by
  unfold State.sceneOutcome
  dsimp only
  split
  · split
    · dsimp only
      exact joins_updScene s z _
    · exact (joins_updScene s z _).trans (joins_sceneJudge ..)
    all_goals exact .refl s
  · exact .refl s

theorem joins_sceneControl (s : State) (z : ZoneIx) (a : ActIx) : OnlyJoins s (s.sceneControl z a).1 := by
  unfold State.sceneControl
  dsimp only
  split
  · exact joins_sceneJudge s z
  · exact .refl s

theorem joins_sceneClearHold (s : State) (z : ZoneIx) : OnlyJoins s (s.sceneClearHold z).1 := by
  unfold State.sceneClearHold
  exact (joins_updScene s z _).trans ((joins_startDueCues ..).trans (joins_judgeIfDone ..))

/-! ### Covers -/

theorem joins_coverDriveStep (s : State) (z : ZoneIx) (n : CoverState) : OnlyJoins s (s.coverDriveStep z n) := by
  unfold State.coverDriveStep
  split
  case h_1 | h_2 => exact joins_requestDrives ..
  all_goals exact .refl s

theorem joins_coverPurgeStep (s : State) (z : ZoneIx) (l n : CoverState) : OnlyJoins s (s.coverPurgeStep z l n) := by
  unfold State.coverPurgeStep
  exact .ite (fun _ => joins_purgeEnterWait s z) fun _ => .ite (fun _ => joins_purgeInactive s z) fun _ => .refl s

theorem joins_coverSceneStep (s : State) (z : ZoneIx) (n : CoverState) : OnlyJoins s (s.coverSceneStep z n) := by
  unfold State.coverSceneStep
  split
  · exact joins_takeScene ..
  · exact .refl s

theorem joins_coverNoticeStep (s : State) (z : ZoneIx) (l n : CoverState) (c : CoverCause) (i : Nat) :
    OnlyJoins s (s.coverNoticeStep z l n c i) := by
  unfold State.coverNoticeStep
  split
  case h_1 | h_2 | h_3 => exact joins_raise ..
  all_goals exact .refl s

theorem joins_coverChange (s : State) (z : ZoneIx) (n : CoverState) (c : CoverCause) (i : Nat) :
    OnlyJoins s (s.coverChange z n c i) := by
  unfold State.coverChange
  dsimp only
  have hsteps (t : State) (l : CoverState) (e : RingEntry) : OnlyJoins t
      (((((t.appendRing z e).coverDriveStep z n).coverPurgeStep z l n).coverSceneStep z n).coverNoticeStep z l n c i) :=
    (joins_appendRing ..).trans ((joins_coverDriveStep ..).trans ((joins_coverPurgeStep ..).trans
      ((joins_coverSceneStep ..).trans (joins_coverNoticeStep ..))))
  split
  · exact (joins_updZone s z _).trans (hsteps ..)
  · exact ((joins_updZone s z _).trans (hsteps ..)).trans (joins_takeDecision ..)

theorem joins_enterFault (s : State) (z : ZoneIx) (r : FaultReason) (i : Nat) : OnlyJoins s (s.enterFault z r i) := by
  unfold State.enterFault
  exact (OnlyJoins.ite (fun _ => joins_requestDrives ..) fun _ => .refl s).trans (joins_coverChange ..)

theorem joins_enterMotion (s : State) (z : ZoneIx) (n : CoverState) (c : CoverCause) : OnlyJoins s (s.enterMotion z n c) := by
  unfold State.enterMotion
  dsimp only
  split
  · exact (joins_updCover s z _).trans (joins_enterFault ..)
  · split
    · exact (joins_updCover s z _).trans (joins_enterFault ..)
    · exact (joins_updCover s z _).trans (joins_coverChange ..)

theorem joins_judgeEnds (s : State) (z : ZoneIx) : OnlyJoins s (s.judgeEnds z) := by
  have hends (n : CoverState) (c : CoverCause) (i : Nat) :
      OnlyJoins s ((s.requestDrives z driveStop).coverChange z n c i) :=
    (joins_requestDrives ..).trans (joins_coverChange ..)
  unfold State.judgeEnds
  dsimp only
  split
  · exact .ite (fun _ => .ite (fun _ => hends ..) fun _ => hends ..) fun _ => .refl s
  · exact .ite (fun _ => hends ..) fun _ => .refl s
  all_goals exact .refl s

theorem joins_judgePosition (s : State) (z : ZoneIx) : OnlyJoins s (s.judgePosition z) := by
  unfold State.judgePosition
  exact .ite (fun _ => .ite (fun _ => joins_coverChange ..) fun _ => .ite (fun _ => joins_coverChange ..) fun _ =>
    .ite (fun _ => joins_coverChange ..) fun _ => .refl s) fun _ => .refl s

theorem joins_enterDetect (s : State) (z : ZoneIx) (c : CoverCause) : OnlyJoins s (s.enterDetect z c) := by
  unfold State.enterDetect
  exact (joins_coverChange s z _ _ _).trans (joins_judgePosition ..)

theorem joins_coverScene (s : State) (z : ZoneIx) (o : SceneState) : OnlyJoins s (s.coverScene z o) := by
  unfold State.coverScene
  dsimp only
  refine .ite (fun _ => ?_) fun _ => .refl s
  split
  · exact .ite (fun _ => joins_updCover ..) fun _ => joins_enterMotion ..
  · exact joins_enterFault ..
  all_goals exact .refl s

theorem joins_reportScene (p : State × Option SceneState) : OnlyJoins p.1 (State.reportScene z p) := by
  unfold State.reportScene
  split
  · exact joins_coverScene ..
  · exact .refl _

theorem joins_enterPrep (s : State) (z : ZoneIx) (n : CoverState) : OnlyJoins s (s.enterPrep z n) := by
  unfold State.enterPrep
  exact (joins_coverChange s z _ _ _).trans (joins_coverScene ..)

theorem joins_coverContactIn (s : State) (z : ZoneIx) (p : PointIx) (k : PointKind) (r : ContactReport) :
    OnlyJoins s (s.coverContactIn z p k r) := by
  unfold State.coverContactIn
  split <;> (try split) <;> first
    | with_reducible exact joins_judgePosition s z
    | with_reducible exact joins_enterFault ..
    | with_reducible exact joins_judgeEnds s z
    | with_reducible exact .refl s

theorem joins_coverContact (s : State) (p : PointIx) (c : PointCfg) (r : ContactReport) : OnlyJoins s (s.coverContact p c r) := by
  unfold State.coverContact
  split
  · exact .ite (fun _ => joins_coverContactIn ..) fun _ => .refl s
  · exact .refl s

theorem joins_coverDrive (s : State) (z : ZoneIx) (a : ActIx) (o : CommandOutcome) : OnlyJoins s (s.coverDrive z a o) := by
  unfold State.coverDrive
  dsimp only
  split
  case h_1 | h_2 | h_3 => exact .ite (fun _ => joins_enterFault ..) fun _ => .refl s
  all_goals exact .refl s

theorem joins_coverHold (s : State) (z : ZoneIx) : OnlyJoins s (s.coverHold z) := by
  unfold State.coverHold
  exact (OnlyJoins.ite (fun _ => joins_requestDrives ..) fun _ => .refl s).trans (joins_updCover ..)

theorem joins_coverClearHold (s : State) (z : ZoneIx) : OnlyJoins s (s.coverClearHold z) := by
  unfold State.coverClearHold
  dsimp only
  have h := joins_updCover s z fun c =>
    { c with prepTimer := c.prepTimer.continue, motionTimer := c.motionTimer.continue, settleTimer := c.settleTimer.continue }
  split
  case h_1 | h_2 => exact h.trans (joins_requestDrives ..)
  case h_3 | h_4 => exact h.trans (.ite (fun _ => joins_enterMotion ..) fun _ => .refl _)
  all_goals exact h

theorem joins_coverDisable (s : State) (z : ZoneIx) : OnlyJoins s (s.coverDisable z) := by
  unfold State.coverDisable
  exact (OnlyJoins.ite (fun _ => joins_requestDrives ..) fun _ => .refl s).trans (joins_coverChange ..)

/-! ### Reports, holds, watches and the evaluation -/

theorem joins_reportOutcome (s : State) (a : ActIx) (o : CommandOutcome) : OnlyJoins s (s.reportOutcome a o) := by
  unfold State.reportOutcome
  dsimp only
  split
  · exact (joins_sceneOutcome ..).trans (joins_reportScene _)
  · exact joins_coverDrive ..
  all_goals exact .refl s

theorem joins_reportControl (s : State) (a : ActIx) (b : Bool) : OnlyJoins s (s.reportControl a b) := by
  unfold State.reportControl
  exact .ite (fun _ => (joins_sceneControl ..).trans (joins_reportScene _)) fun _ => .refl s

theorem joins_holdZone (s : State) (z : ZoneIx) (w : WatchIx) : OnlyJoins s (s.holdZone z w) := by
  unfold State.holdZone
  exact .ite (fun _ => joins_updZone ..) fun _ => (joins_updZone s z _).trans ((joins_coverHold ..).trans (joins_updScene ..))

theorem joins_clearHold (s : State) (z : ZoneIx) : OnlyJoins s (s.clearHold z) := by
  unfold State.clearHold
  dsimp only
  split
  · exact (joins_updZone s z _).trans ((joins_dispatcherClearHold ..).trans ((joins_coverClearHold ..).trans
      ((joins_sceneClearHold ..).trans (joins_reportScene _))))
  · exact .refl s

theorem joins_watchAct (s : State) (w : WatchIx) (a : WatchAction) (y : PointZone) : OnlyJoins s (s.watchAct w a y) := by
  unfold State.watchAct
  split
  · exact .refl s
  · exact .foldl (fun s z => joins_capture s z _) _ s
  · exact .foldl (fun s z => joins_holdZone s z w) _ s

theorem joins_offerWatch (e : WatchEvent) (s : State) (w : WatchIx) : OnlyJoins s (s.offerWatch e w) := by
  have hdisarm (f : Vector Watch 4) : OnlyJoins s (s.updCfg fun c => { c with watches := f }) := .of_acts rfl rfl rfl
  unfold State.offerWatch
  exact .ite (fun _ => (hdisarm _).trans ((joins_watchAct ..).trans (joins_raise ..))) fun _ => .refl s

theorem joins_offerWatches (s : State) (e : WatchEvent) : OnlyJoins s (s.offerWatches e) := .foldl (joins_offerWatch e) _ s

theorem joins_armedCapture (s : State) (z : ZoneIx) : OnlyJoins s (s.armedCapture z) := by
  unfold State.armedCapture
  split
  · exact (joins_capture ..).trans (joins_updZone ..)
  · exact .refl s

theorem joins_offerSums (s : State) (z : ZoneIx) (n : Nat) : OnlyJoins s (s.offerSums z n) := by
  unfold State.offerSums
  dsimp only
  have h (n m : Nat) : OnlyJoins s ((s.offer z accHeatSum n).offer z accDrySum m) := (joins_offer ..).trans (joins_offer ..)
  split
  · exact (h ..).trans (joins_offer ..)
  · exact h ..

theorem joins_stage9 (s : State) (z : ZoneIx) : OnlyJoins s (s.stage9 z) := by
  unfold State.stage9
  exact joins_requestAll ..

theorem joins_evaluate (s : State) (z : ZoneIx) : OnlyJoins (s.updZone z fun _ => s.evaluated z) (s.evaluate z) := by
  have hnotice (t : State) (b : Bool) : OnlyJoins t (if b then t.raiseCondensation z else t) :=
    .ite (fun _ => joins_raise ..) fun _ => .refl t
  have hclosing (t : State) (n : Nat) : OnlyJoins t ((((t.stage9 z).takeDecision z false).offerSums z n).armedCapture z) :=
    (((joins_stage9 t z).trans (joins_takeDecision _ z false)).trans (joins_offerSums _ z n)).trans (joins_armedCapture _ z)
  unfold State.evaluate
  dsimp only
  generalize s.updZone z _ = t
  exact (hnotice t _).trans (hclosing ..)

theorem joins_outcomeNoted (s : State) (o : Outstanding) (outcome : CommandOutcome) : OnlyJoins s (s.outcomeNoted o outcome) := by
  unfold State.outcomeNoted
  cases outcome with
  | applied => exact .ite (fun _ => .refl s) fun _ => joins_raise ..
  | refusedHand => exact .ite (fun _ => .refl s) fun _ => joins_raise ..
  | refusedRange => exact .ite (fun _ => (joins_raise ..).trans (joins_raise ..)) fun _ => joins_raise ..
  | timeout => exact .ite (fun _ => (joins_offer ..).trans (joins_raise ..)) fun _ => joins_offer ..

end Joining

end Sys2Proof.Machine
end

section
/-! SUPPORT. The sizes and the law of tags, part by part, and how each kind of update carries them. -/

namespace Sys2Proof.Machine

section KeepingSizes

variable {z : ZoneIx} {s t u : State}

/-! ### The sizes, block by block -/

/-- The sizes of the management unit (R162, R163, R173). -/
structure MgmtSizes (m : Management) : Prop where
  notices : m.notices.length ≤ 8
  trunkRequests : m.trunkRequests.length ≤ 4
  serviceRequests : m.serviceRequests.length ≤ 4
  replies : m.repliesHeld ≤ 4
  errors : m.serviceErrors ≤ 65535

/-- The sizes of one forwarding queue (R155). -/
structure QueueSizes (q : ForwardQueue) : Prop where
  items : q.items.length ≤ 16
  discards : q.discards ≤ 65535

/-- The sizes of the line blocks (R151, R155, R158). -/
structure LineSizes (l : Lines) : Prop where
  ht : QueueSizes l.ht
  th : QueueSizes l.th
  hallErrors : l.hallErrors ≤ 65535
  trunkErrors : l.trunkErrors ≤ 65535
  forwardWait : l.forwardWait ≤ 4

/-- The sizes of the accounting blocks (R180, R182, R183). -/
structure AcctSizes (k : Accounting) : Prop where
  captures : k.captures.length ≤ 32
  ring : k.ring.length ≤ 16
  trunkReadOut : k.trunkReadOut.length ≤ 2
  serviceReadOut : k.serviceReadOut.length ≤ 2

/-- The sizes of the dispatcher (R134, R135); with 16 tags a table without a tag twice has at most 16 entries. -/
structure DispSizes (d : Dispatcher) : Prop where
  waitCounts : ∀ j : Job, d.waitCounts.get j ≤ 15
  tags : (d.outstanding.map Outstanding.tag).Nodup

theorem repliesHeld_eq (m : Management) : m.repliesHeld = m.replies.length + if m.commit = none then 0 else 1 := by
  unfold Management.repliesHeld
  cases m.commit <;> rfl

theorem outstanding_le {d : Dispatcher} (h : DispSizes d) : d.outstanding.length ≤ 16 := by
  have hcard := h.tags.length_le_card
  rwa [List.length_map, Fintype.card_fin] at hcard

theorem withinSizes_iff : WithinSizes s ↔ MgmtSizes s.mgmt ∧ LineSizes s.lines ∧ AcctSizes s.acct ∧ DispSizes s.disp ∧
    (∀ a : ActIx, (s.acts[a]).timeouts ≤ 3) ∧ s.millis < 1000 := by
  constructor
  · intro h
    exact ⟨⟨h.work.notices, h.trunkRequests, h.serviceRequests, (repliesHeld_eq _).trans_le h.replies, h.errors.2.2⟩,
      ⟨⟨h.forwards.1, h.discards.1⟩, ⟨h.forwards.2, h.discards.2⟩, h.errors.1, h.errors.2.1, h.forwardWait⟩,
      ⟨h.work.captures, h.work.ring, h.readOuts.1, h.readOuts.2⟩, ⟨h.waitCounts, h.tags⟩, h.timeouts, h.millis⟩
  · rintro ⟨m, l, k, d, htimeouts, hmillis⟩
    exact
      { work := ⟨m.notices, k.captures, k.ring⟩
        trunkRequests := m.trunkRequests
        serviceRequests := m.serviceRequests
        replies := (repliesHeld_eq _).symm.trans_le m.replies
        forwards := ⟨l.ht.items, l.th.items⟩
        discards := ⟨l.ht.discards, l.th.discards⟩
        errors := ⟨l.hallErrors, l.trunkErrors, m.errors⟩
        forwardWait := l.forwardWait
        waitCounts := d.waitCounts
        timeouts := htimeouts
        readOuts := ⟨k.trunkReadOut, k.serviceReadOut⟩
        tags := d.tags
        outstanding := outstanding_le d
        millis := hmillis }

/-! ### The law of tags, by flight and queue -/

/-- Tags, outstanding entries and actuators in flight belong together (R135). -/
structure FlightLaw (s : State) : Prop where
  tags : (s.disp.outstanding.map Outstanding.tag).Nodup
  actuators : (s.disp.outstanding.map Outstanding.act).Nodup
  entry : ∀ o ∈ s.disp.outstanding, (s.acts[o.act]).dispatch = .inFlight ∧ (s.acts[o.act]).inFlightTag = some o.tag ∧
    (s.acts[o.act]).inFlightValue = some o.value
  flight : ∀ a : ActIx, (s.acts[a]).dispatch = .inFlight → ∃ o ∈ s.disp.outstanding, o.act = a
  live : ∀ a : ActIx, (s.acts[a]).dispatch = .inFlight → (s.cfg.acts[a]).inUse = true ∧ (s.acts[a]).control ≠ .disabled

theorem tagLaw_iff : TagLaw s ↔ FlightLaw s ∧ QueueLaw s :=
  ⟨fun h => ⟨⟨h.tags, h.actuators, h.entry, h.flight, h.live⟩, ⟨h.queued, h.queues⟩⟩,
    fun ⟨f, q⟩ => ⟨f.tags, f.actuators, f.entry, f.flight, f.live, q.queued, q.queues⟩⟩

/-- A record as the law of flight sees it: in flight as before, with the same tag and value, and not DISABLED by the change. -/
structure SameFlight (r r' : ActRt) : Prop where
  flight : r'.dispatch = .inFlight ↔ r.dispatch = .inFlight
  tag : r.dispatch = .inFlight → r'.inFlightTag = r.inFlightTag
  value : r.dispatch = .inFlight → r'.inFlightValue = r.inFlightValue
  control : r.dispatch = .inFlight → r.control ≠ .disabled → r'.control ≠ .disabled

theorem SameFlight.refl (r : ActRt) : SameFlight r r := ⟨Iff.rfl, fun _ => rfl, fun _ => rfl, fun _ => id⟩

theorem SameButQueued.sameFlight {r r' : ActRt} (h : SameButQueued r r') : SameFlight r r' :=
  ⟨h.flight, fun _ => by rw [h.record], fun _ => by rw [h.record], fun _ hc => by rwa [h.control]⟩

/-- A change of outstanding entries that leaves each one's tag, actuator and value: the phase alone. -/
def SameCommand (f : Outstanding → Outstanding) : Prop := ∀ o, (f o).tag = o.tag ∧ (f o).act = o.act ∧ (f o).value = o.value

theorem map_tag {f : Outstanding → Outstanding} (hf : SameCommand f) (l : List Outstanding) :
    (l.map f).map Outstanding.tag = l.map Outstanding.tag := by
  rw [List.map_map]
  exact List.map_congr_left fun o _ => (hf o).1

theorem map_act {f : Outstanding → Outstanding} (hf : SameCommand f) (l : List Outstanding) :
    (l.map f).map Outstanding.act = l.map Outstanding.act := by
  rw [List.map_map]
  exact List.map_congr_left fun o _ => (hf o).2.1

/-- The law of flight carries over where entries change in their phase alone and records as the law sees them stand. -/
theorem FlightLaw.of_same {f : Outstanding → Outstanding} (h : FlightLaw s) (hf : SameCommand f)
    (ho : t.disp.outstanding = s.disp.outstanding.map f) (ha : ∀ a : ActIx, SameFlight s.acts[a] t.acts[a])
    (hc : ∀ a : ActIx, (s.acts[a]).dispatch = .inFlight → (t.cfg.acts[a]).inUse = (s.cfg.acts[a]).inUse) : FlightLaw t where
  tags := by rw [ho, map_tag hf]; exact h.tags
  actuators := by rw [ho, map_act hf]; exact h.actuators
  entry o' ho' := by
    rw [ho] at ho'
    obtain ⟨o, hmem, rfl⟩ := List.mem_map.1 ho'
    obtain ⟨htag, hact, hvalue⟩ := hf o
    obtain ⟨hflight, ht, hv⟩ := h.entry o hmem
    simp only [htag, hact, hvalue]
    exact ⟨(ha o.act).flight.2 hflight, ((ha o.act).tag hflight).trans ht, ((ha o.act).value hflight).trans hv⟩
  flight a hfl := by
    obtain ⟨o, hmem, hact⟩ := h.flight a ((ha a).flight.1 hfl)
    exact ⟨f o, ho ▸ List.mem_map_of_mem hmem, (hf o).2.1.trans hact⟩
  live a hfl := by
    have hfl' := (ha a).flight.1 hfl
    obtain ⟨hu, hd⟩ := h.live a hfl'
    exact ⟨(hc a hfl').trans hu, (ha a).control hfl' hd⟩

theorem sameCommand_id : SameCommand id := fun _ => ⟨rfl, rfl, rfl⟩

/-! ### What is kept -/

/-- Both laws carry over. -/
structure LawsKept (s t : State) : Prop where
  sizes : WithinSizes s → WithinSizes t
  tags : TagLaw s → TagLaw t

/-- Both laws carry over, and no further place of the reply queue is taken. -/
structure KeepsLaws (s t : State) : Prop extends LawsKept s t where
  held : t.mgmt.repliesHeld ≤ s.mgmt.repliesHeld

theorem LawsKept.refl (s : State) : LawsKept s s := ⟨id, id⟩

theorem LawsKept.trans (h : LawsKept s t) (h' : LawsKept t u) : LawsKept s u := ⟨h'.sizes ∘ h.sizes, h'.tags ∘ h.tags⟩

theorem KeepsLaws.kept (h : KeepsLaws s t) : LawsKept s t := h.toLawsKept

theorem KeepsLaws.refl (s : State) : KeepsLaws s s := ⟨.refl s, le_rfl⟩

theorem KeepsLaws.trans (h : KeepsLaws s t) (h' : KeepsLaws t u) : KeepsLaws s u := ⟨h.kept.trans h'.kept, h'.held.trans h.held⟩

theorem KeepsLaws.ite {c : Prop} [Decidable c] (h : c → KeepsLaws s t) (h' : ¬ c → KeepsLaws s u) :
    KeepsLaws s (if c then t else u) := by
  split
  · exact h ‹_›
  · exact h' ‹_›

theorem KeepsLaws.foldl {α : Type} {f : State → α → State} (h : ∀ s a, KeepsLaws s (f s a)) (l : List α) :
    ∀ s, KeepsLaws s (l.foldl f s) := by
  induction l with
  | nil => exact .refl
  | cons a l ih => exact fun s => (h s a).trans (ih _)

/-! ### Work of the zone blocks -/

theorem mgmtSizes_of_work (h : AnyZoneWork s t) (hs : MgmtSizes s.mgmt) (hn : t.mgmt.notices.length ≤ 8) : MgmtSizes t.mgmt := by
  rw [h.mgmt]
  exact ⟨hn, hs.trunkRequests, hs.serviceRequests, hs.replies, hs.errors⟩

/-- The work of the zone blocks and the dispatcher keeps both laws if it keeps the law of the queues. -/
theorem KeepsLaws.of_zoneWork (h : AnyZoneWork s t) (hq : QueueLaw s → QueueLaw t) : KeepsLaws s t where
  sizes hs := by
    have hbounds := h.bounds hs.work
    obtain ⟨hm, hl, hk, hd, htimeouts, hmillis⟩ := withinSizes_iff.1 hs
    refine withinSizes_iff.2 ⟨mgmtSizes_of_work h hm hbounds.notices, h.lines ▸ hl,
      ⟨hbounds.captures, hbounds.ring, h.trunkReadOut ▸ hk.trunkReadOut, h.serviceReadOut ▸ hk.serviceReadOut⟩, ?_, fun a => ?_,
      h.millis ▸ hmillis⟩
    · rw [h.disp]
      exact ⟨hd.waitCounts, hd.tags⟩
    · rw [(h.record a).record]
      exact htimeouts a
  tags hs := by
    obtain ⟨hflight, hqueue⟩ := tagLaw_iff.1 hs
    refine tagLaw_iff.2 ⟨hflight.of_same sameCommand_id ?_ (fun a => (h.record a).sameFlight) fun a _ => by rw [h.acts], hq hqueue⟩
    rw [h.disp, List.map_id]
  held := by rw [h.mgmt]; exact le_rfl

theorem KeepsLaws.of_work (h : AnyZoneWork s t) (hj : OnlyJoins s t) : KeepsLaws s t := .of_zoneWork h hj.law

/-! ### Updates of one block -/

/-- An update that reaches neither the dispatcher nor an actuator keeps the law of tags. -/
theorem tagLaw_of_acts (hd : t.disp = s.disp) (ha : t.acts = s.acts) (hc : t.cfg.acts = s.cfg.acts) (hs : TagLaw s) : TagLaw t := by
  obtain ⟨hf, hq⟩ := tagLaw_iff.1 hs
  refine tagLaw_iff.2 ⟨hf.of_same sameCommand_id ?_ (fun a => ?_) fun a _ => by rw [hc], (OnlyJoins.of_acts hd hc ha).law hq⟩
  · rw [hd, List.map_id]
  · rw [ha]; exact .refl _

/-- An update outside the dispatcher and the actuators, with what it has to keep of the other blocks' sizes. -/
theorem KeepsLaws.of_blocks (hd : t.disp = s.disp) (ha : t.acts = s.acts) (hc : t.cfg.acts = s.cfg.acts)
    (hmillis : t.millis = s.millis) (hm : MgmtSizes s.mgmt → MgmtSizes t.mgmt) (hheld : t.mgmt.repliesHeld ≤ s.mgmt.repliesHeld)
    (hl : LineSizes s.lines → LineSizes t.lines) (hk : AcctSizes s.acct → AcctSizes t.acct) : KeepsLaws s t where
  sizes hs := by
    obtain ⟨hm', hl', hk', hd', ht', hmillis'⟩ := withinSizes_iff.1 hs
    exact withinSizes_iff.2 ⟨hm hm', hl hl', hk hk', hd ▸ hd', ha ▸ ht', hmillis ▸ hmillis'⟩
  tags := tagLaw_of_acts hd ha hc
  held := hheld

/-- An update of what neither law speaks of. -/
theorem KeepsLaws.of_elsewhere (hd : t.disp = s.disp) (ha : t.acts = s.acts) (hc : t.cfg.acts = s.cfg.acts)
    (hmillis : t.millis = s.millis) (hm : t.mgmt = s.mgmt) (hl : t.lines = s.lines) (hk : t.acct = s.acct) : KeepsLaws s t :=
  .of_blocks hd ha hc hmillis (fun h => hm ▸ h) (by rw [hm]) (fun h => hl ▸ h) fun h => hk ▸ h

/-- An update of the line blocks alone. -/
theorem KeepsLaws.of_lines (ht : t = { s with lines := t.lines }) (hl : LineSizes s.lines → LineSizes t.lines) : KeepsLaws s t := by
  rw [ht]
  exact .of_blocks rfl rfl rfl rfl id le_rfl hl id

/-- An update of the management unit alone. -/
theorem KeepsLaws.of_mgmt (ht : t = { s with mgmt := t.mgmt }) (hm : MgmtSizes s.mgmt → MgmtSizes t.mgmt)
    (hheld : t.mgmt.repliesHeld ≤ s.mgmt.repliesHeld) : KeepsLaws s t := by
  rw [ht]
  exact .of_blocks rfl rfl rfl rfl hm hheld id id

/-- An update of the accounting blocks alone. -/
theorem KeepsLaws.of_acct (ht : t = { s with acct := t.acct }) (hk : AcctSizes s.acct → AcctSizes t.acct) : KeepsLaws s t := by
  rw [ht]
  exact .of_blocks rfl rfl rfl rfl id le_rfl id hk

theorem keepsLaws_updZone (s : State) (z : ZoneIx) (f : ZoneRt → ZoneRt) : KeepsLaws s (s.updZone z f) :=
  .of_elsewhere rfl rfl rfl rfl rfl rfl rfl

theorem keepsLaws_updPoint (s : State) (p : PointIx) (f : PointRt → PointRt) : KeepsLaws s (s.updPoint p f) :=
  .of_elsewhere rfl rfl rfl rfl rfl rfl rfl

/-- A change of the configuration that leaves the table of actuators. -/
theorem keepsLaws_updCfg (s : State) (f : ConfigData → ConfigData) (h : (f s.cfg).acts = s.cfg.acts) : KeepsLaws s (s.updCfg f) :=
  .of_elsewhere rfl rfl h rfl rfl rfl rfl

/-- A change of the management unit outside its queues, its counts and its commit. -/
theorem KeepsLaws.of_marks (ht : t = { s with mgmt := { s.mgmt with
    trunkStaging := t.mgmt.trunkStaging, serviceStaging := t.mgmt.serviceStaging, flags := t.mgmt.flags
    localMode := t.mgmt.localMode, idleTimer := t.mgmt.idleTimer, lastServed := t.mgmt.lastServed
    restartPending := t.mgmt.restartPending } }) : KeepsLaws s t := by
  rw [ht]
  exact .of_mgmt rfl (fun h => ⟨h.notices, h.trunkRequests, h.serviceRequests, h.replies, h.errors⟩) le_rfl

theorem keepsLaws_raise (s : State) (k : NoticeKind) (b : Byte) (d : List Byte) : KeepsLaws s (s.raise k b d) :=
  .of_work (zoneWork_raise ..) (joins_raise ..)

/-! ### Updates of one actuator -/

theorem updAct_forall {p : ActRt → ActRt → Prop} (hp : ∀ r, p r r) {a : ActIx} {f : ActRt → ActRt} (h : p s.acts[a] (f s.acts[a]))
    (b : ActIx) : p s.acts[b] ((s.updAct a f).acts[b]) := by
  by_cases hb : b = a
  · subst hb; rw [State.updAct_same]; exact h
  · rw [State.updAct_other s hb]; exact hp _

theorem withinSizes_updAct (a : ActIx) (f : ActRt → ActRt) (ht : (s.acts[a]).timeouts ≤ 3 → (f s.acts[a]).timeouts ≤ 3)
    (hs : WithinSizes s) : WithinSizes (s.updAct a f) := by
  obtain ⟨hm, hl, hk, hd, htimeouts, hmillis⟩ := withinSizes_iff.1 hs
  exact withinSizes_iff.2 ⟨hm, hl, hk, hd, fun b =>
    updAct_forall (p := fun r r' => r.timeouts ≤ 3 → r'.timeouts ≤ 3) (fun _ => id) ht b (htimeouts b), hmillis⟩

theorem flightLaw_updAct {a : ActIx} {f : ActRt → ActRt} (hf : SameFlight s.acts[a] (f s.acts[a])) (hs : FlightLaw s) :
    FlightLaw (s.updAct a f) :=
  hs.of_same (t := s.updAct a f) sameCommand_id (List.map_id _).symm (updAct_forall SameFlight.refl hf) fun _ _ => rfl

/-- An actuator that is in no queue may change its record as far as the queues are concerned. -/
theorem queueLaw_updAct {a : ActIx} (ha : ∀ j, a ∉ s.disp.queues.get j) (f : ActRt → ActRt) (hs : QueueLaw s) :
    QueueLaw (s.updAct a f) where
  queued j b hb := by
    have hne : b ≠ a := fun e => ha j (e ▸ hb)
    rw [State.updAct_other s hne]
    exact hs.queued j b hb
  queues := hs.queues

/-- A record's change that leaves its dispatch, and its control where that is ENABLED, keeps both laws. -/
theorem keepsLaws_updAct (s : State) (a : ActIx) (f : ActRt → ActRt) (ht : (f s.acts[a]).timeouts = (s.acts[a]).timeouts)
    (hd : (f s.acts[a]).dispatch = (s.acts[a]).dispatch) (hf : SameFlight s.acts[a] (f s.acts[a]))
    (hc : (s.acts[a]).control = .enabled → (f s.acts[a]).control = .enabled) : KeepsLaws s (s.updAct a f) where
  sizes := withinSizes_updAct a f fun h => by rw [ht]; exact h
  tags hs := by
    obtain ⟨hflight, hqueue⟩ := tagLaw_iff.1 hs
    refine tagLaw_iff.2 ⟨flightLaw_updAct hf hflight, ?_⟩
    refine ⟨fun j b hb => ?_, hqueue.queues⟩
    obtain ⟨hb, hbc, hrest⟩ := hqueue.queued j b hb
    exact ⟨(updAct_forall (p := fun r r' => r'.dispatch = r.dispatch) (fun _ => rfl) hd b).trans hb,
      updAct_forall (p := fun r r' => r.control = .enabled → r'.control = .enabled) (fun _ => id) hc b hbc, hrest⟩
  held := le_rfl

/-- A record's change outside its dispatch, its control and its count of timeouts. -/
theorem keepsLaws_updAct_marks (s : State) (a : ActIx) (f : ActRt → ActRt) (ht : (f s.acts[a]).timeouts = (s.acts[a]).timeouts)
    (hd : (f s.acts[a]).dispatch = (s.acts[a]).dispatch) (hc : (f s.acts[a]).control = (s.acts[a]).control)
    (hg : (f s.acts[a]).inFlightTag = (s.acts[a]).inFlightTag) (hv : (f s.acts[a]).inFlightValue = (s.acts[a]).inFlightValue) :
    KeepsLaws s (s.updAct a f) :=
  keepsLaws_updAct s a f ht hd ⟨by rw [hd], fun _ => hg, fun _ => hv, fun _ h => by rwa [hc]⟩ fun h => hc.trans h

end KeepingSizes

end Sys2Proof.Machine
end

section
/-! SUPPORT. The sizes and the law of tags through the dispatcher: queues left, commands ended, tags handed out. -/

namespace Sys2Proof.Machine

section KeepingDispatch

variable {s t u : State} {a : ActIx} {j : Job}

/-! ### Leaving a queue (R131) -/

/-- A queued actuator of a job leaves that job's queue; any other stands. -/
theorem unqueue_cases (s : State) (a : ActIx) :
    (s.unqueue a = s ∧ ((s.acts[a]).dispatch = .queued → (s.cfg.acts[a]).kind.job = none)) ∨
    ∃ j, (s.cfg.acts[a]).kind.job = some j ∧
      s.unqueue a = (s.updDisp fun d => { d with queues := d.queues.set j ((d.queues.get j).erase a) }).updAct a
        fun r => { r with dispatch := .idle } := by
  unfold State.unqueue
  split
  next h => exact .inl ⟨rfl, fun _ => h⟩
  next j h =>
    split
    next => exact .inr ⟨j, h, rfl⟩
    next hq => exact .inl ⟨rfl, fun e => absurd (beq_iff_eq.2 e) hq⟩

theorem unqueue_sublist (s : State) (a : ActIx) (k : Job) :
    ((s.unqueue a).disp.queues.get k).Sublist (s.disp.queues.get k) := by
  rcases unqueue_cases s a with ⟨h, -⟩ | ⟨j, -, h⟩
  · rw [h]
  · rw [h]
    show ((s.disp.queues.set j ((s.disp.queues.get j).erase a)).get k).Sublist _
    rw [get_set_queue]
    split
    next hk => subst hk; exact List.erase_sublist
    next => exact .refl _

/-- An actuator that has left is in no queue. -/
theorem unqueue_not_mem (hs : QueueLaw s) (a : ActIx) (k : Job) : a ∉ (s.unqueue a).disp.queues.get k := by
  intro hmem
  obtain ⟨hqueued, -, -, hjob⟩ := hs.queued k a ((unqueue_sublist s a k).subset hmem)
  rcases unqueue_cases s a with ⟨-, h⟩ | ⟨j, hj, h⟩
  · rw [h hqueued] at hjob
    cases hjob
  · obtain rfl := Option.some.inj (hj.symm.trans hjob)
    rw [h] at hmem
    change a ∈ (s.disp.queues.set j ((s.disp.queues.get j).erase a)).get j at hmem
    rw [get_set_queue, if_pos rfl, (hs.queues j).mem_erase_iff] at hmem
    exact hmem.1 rfl

theorem queueLaw_unqueue (a : ActIx) (hs : QueueLaw s) : QueueLaw (s.unqueue a) where
  queued k b hb := by
    have hne : b ≠ a := fun e => unqueue_not_mem hs a k (e ▸ hb)
    rw [unqueue_other hne, unqueue_frame]
    exact hs.queued k b ((unqueue_sublist s a k).subset hb)
  queues k := (hs.queues k).sublist (unqueue_sublist s a k)

theorem keepsLaws_unqueue (s : State) (a : ActIx) : KeepsLaws s (s.unqueue a) :=
  .of_zoneWork (zoneWork_unqueue s a trivial) (queueLaw_unqueue a)

/-- An actuator leaves its queue, and its record changes without a change of its flight. -/
theorem keepsLaws_unqueueThen (s : State) (a : ActIx) (f : ActRt → ActRt) (ht : ∀ r, (f r).timeouts = r.timeouts)
    (hf : ∀ r, SameFlight r (f r)) : KeepsLaws s ((s.unqueue a).updAct a f) where
  sizes hs := withinSizes_updAct a f (fun h => (ht _).trans_le h) ((keepsLaws_unqueue s a).sizes hs)
  tags hs := by
    have hqueue := (tagLaw_iff.1 hs).2
    obtain ⟨hflight, hqueue'⟩ := tagLaw_iff.1 ((keepsLaws_unqueue s a).tags hs)
    exact tagLaw_iff.2 ⟨flightLaw_updAct (hf _) hflight, queueLaw_updAct (unqueue_not_mem hqueue a) f hqueue'⟩
  held := (keepsLaws_unqueue s a).held

/-! ### Control (R144 to R148) -/

theorem sameFlight_of_control {r : ActRt} {f : ActRt → ActRt} (hd : (f r).dispatch = r.dispatch)
    (hg : (f r).inFlightTag = r.inFlightTag) (hv : (f r).inFlightValue = r.inFlightValue)
    (hc : r.dispatch = .inFlight → r.control ≠ .disabled → (f r).control ≠ .disabled) : SameFlight r (f r) :=
  ⟨by rw [hd], fun _ => hg, fun _ => hv, hc⟩

theorem sameFlight_disabled (r : ActRt) : SameFlight r r.disabled :=
  sameFlight_of_control (f := ActRt.disabled) rfl rfl rfl fun h _ => by
    show (if r.dispatch = .inFlight then Control.disabling else .disabled) ≠ .disabled
    rw [if_pos h]
    exact Control.noConfusion

theorem sameFlight_zoneDisabled (r : ActRt) : SameFlight r r.zoneDisabled := by
  unfold ActRt.zoneDisabled
  split
  · exact ⟨Iff.rfl, fun _ => rfl, fun _ => rfl, fun _ _ => Control.noConfusion⟩
  · exact ⟨Iff.rfl, fun _ => rfl, fun _ => rfl, fun _ h => h⟩

/-- A control that becomes ENABLED keeps both laws. -/
theorem keepsLaws_enabled (s : State) (a : ActIx) (f : ActRt → ActRt) (ht : (f s.acts[a]).timeouts = (s.acts[a]).timeouts)
    (hd : (f s.acts[a]).dispatch = (s.acts[a]).dispatch) (hg : (f s.acts[a]).inFlightTag = (s.acts[a]).inFlightTag)
    (hv : (f s.acts[a]).inFlightValue = (s.acts[a]).inFlightValue) (hc : (f s.acts[a]).control = .enabled) :
    KeepsLaws s (s.updAct a f) :=
  keepsLaws_updAct s a f ht hd (sameFlight_of_control hd hg hv fun _ _ => by rw [hc]; exact Control.noConfusion) fun _ => hc

theorem keepsLaws_join (s : State) (a : ActIx) : KeepsLaws s (s.join a) := .of_work (zoneWork_join s a trivial) (joins_join s a)

theorem keepsLaws_reportControl (s : State) (a : ActIx) (b : Bool) : KeepsLaws s (s.reportControl a b) :=
  .of_work (zoneWork_reportControl s a b trivial) (joins_reportControl s a b)

theorem keepsLaws_overrideEffect (s : State) (a : ActIx) : KeepsLaws s (s.overrideEffect a).1 := by
  have hstart (m : Timer) : KeepsLaws s ((s.unqueue a).updAct a fun r => { r with control := .overridden, overrideTimer := m }) :=
    keepsLaws_unqueueThen s a _ (fun _ => rfl) fun _ => ⟨Iff.rfl, fun _ => rfl, fun _ => rfl, fun _ _ => Control.noConfusion⟩
  have hrestart (m : Timer) : KeepsLaws s (s.updAct a fun r => { r with overrideTimer := m }) :=
    keepsLaws_updAct_marks s a _ rfl rfl rfl rfl rfl
  unfold State.overrideEffect
  dsimp only
  split
  · exact hstart _
  · exact hrestart _
  all_goals exact .refl s

theorem keepsLaws_disableActuator (s : State) (a : ActIx) : KeepsLaws s (s.disableActuator a).1 := by
  have hstop : KeepsLaws s ((s.unqueue a).updAct a ActRt.disabled) :=
    keepsLaws_unqueueThen s a _ (fun _ => rfl) sameFlight_disabled
  unfold State.disableActuator
  dsimp only
  split
  · exact hstop
  · exact hstop
  all_goals exact .refl s

theorem keepsLaws_enableActuator (s : State) (a : ActIx) : KeepsLaws s (s.enableActuator a).1 := by
  have hended : KeepsLaws s (s.updAct a ActRt.endOverride) := keepsLaws_enabled s a _ rfl rfl rfl rfl rfl
  have henabled : KeepsLaws s (s.updAct a fun r => { r with control := .enabled }) := keepsLaws_enabled s a _ rfl rfl rfl rfl rfl
  unfold State.enableActuator
  split
  · exact .refl s
  · exact hended.trans (keepsLaws_join ..)
  · exact henabled
  · exact henabled.trans (keepsLaws_join ..)

theorem keepsLaws_overrideEnds (s : State) (a : ActIx) : KeepsLaws s (s.overrideEnds a) :=
  (keepsLaws_enabled s a ActRt.endOverride rfl rfl rfl rfl rfl).trans ((keepsLaws_join ..).trans (keepsLaws_reportControl ..))

theorem keepsLaws_dispatcherDisable (s : State) (z : ZoneIx) : KeepsLaws s (s.dispatcherDisable z) := by
  refine .foldl (fun s a => ?_) _ s
  rw [zoneDisableActuator_eq]
  refine keepsLaws_unqueueThen s a _ (fun r => ?_) sameFlight_zoneDisabled
  unfold ActRt.zoneDisabled
  split <;> rfl

theorem keepsLaws_dispatcherEnable (s : State) (z : ZoneIx) : KeepsLaws s (s.dispatcherEnable z) :=
  .foldl (fun s a => keepsLaws_updAct_marks s a _ rfl rfl rfl rfl rfl) _ s

/-! ### Refresh and retry (R132, R141) -/

theorem keepsLaws_refreshExpire (s : State) (a : ActIx) : KeepsLaws s (s.refreshExpire a) :=
  (keepsLaws_updAct_marks s a _ rfl rfl rfl rfl rfl).trans
    (.ite (fun _ => (keepsLaws_updAct_marks _ a _ rfl rfl rfl rfl rfl).trans (keepsLaws_join ..)) fun _ => .refl _)

theorem keepsLaws_retryExpire (s : State) (a : ActIx) : KeepsLaws s (s.retryExpire a) :=
  (keepsLaws_updAct_marks s a _ rfl rfl rfl rfl rfl).trans (keepsLaws_join ..)

/-! ### The end of a command (R138 to R140) -/

/-- An actuator has at most one outstanding entry, and a tag at most one. -/
theorem FlightLaw.entry_unique (h : FlightLaw s) {o o' : Outstanding} (ho : o ∈ s.disp.outstanding) (ho' : o' ∈ s.disp.outstanding) :
    o.tag = o'.tag ↔ o.act = o'.act :=
  ⟨fun e => congrArg Outstanding.act (List.inj_on_of_nodup_map h.tags ho ho' e),
    fun e => congrArg Outstanding.tag (List.inj_on_of_nodup_map h.actuators ho ho' e)⟩

theorem mem_freed {o o' : Outstanding} {r : CommandOutcome} :
    o' ∈ (s.commandEnded o r).disp.outstanding ↔ o' ∈ s.disp.outstanding ∧ o'.tag ≠ o.tag := by
  show o' ∈ s.disp.outstanding.filter (fun x => x.tag != o.tag) ↔ _
  simp

theorem commandEnded_other (s : State) {o : Outstanding} (r : CommandOutcome) (h : a ≠ o.act) :
    (s.commandEnded o r).acts[a] = s.acts[a] := State.updAct_other _ h _

theorem commandEnded_same (s : State) (o : Outstanding) (r : CommandOutcome) : (s.commandEnded o r).acts[o.act] =
    ((s.acts[o.act]).afterOutcome (s.cfg.acts[o.act]) o.value r).freed := State.updAct_same ..

theorem flightLaw_commandEnded (hs : FlightLaw s) {o : Outstanding} (ho : o ∈ s.disp.outstanding) (r : CommandOutcome) :
    FlightLaw (s.commandEnded o r) := by
  have hidle : ((s.commandEnded o r).acts[o.act]).dispatch ≠ .inFlight := by
    rw [commandEnded_same]
    exact DispatchState.noConfusion
  have hne {b : ActIx} (hb : ((s.commandEnded o r).acts[b]).dispatch = .inFlight) : b ≠ o.act := fun e => hidle (e ▸ hb)
  refine ⟨hs.tags.sublist (List.filter_sublist.map _), hs.actuators.sublist (List.filter_sublist.map _), fun o' ho' => ?_,
    fun b hb => ?_, fun b hb => ?_⟩
  · obtain ⟨hmem, htag⟩ := mem_freed.1 ho'
    rw [commandEnded_other s r fun e => htag ((hs.entry_unique hmem ho).2 e)]
    exact hs.entry o' hmem
  · have hended := hne hb
    rw [commandEnded_other s r hended] at hb
    obtain ⟨o', hmem, hact⟩ := hs.flight b hb
    exact ⟨o', mem_freed.2 ⟨hmem, fun e => hended (hact.symm.trans ((hs.entry_unique hmem ho).1 e))⟩, hact⟩
  · have hother := commandEnded_other s r (hne hb)
    rw [hother] at hb ⊢
    exact hs.live b hb

theorem queueLaw_commandEnded (hs : QueueLaw s) {o : Outstanding} (ho : (s.acts[o.act]).dispatch = .inFlight) (r : CommandOutcome) :
    QueueLaw (s.commandEnded o r) where
  queued j b hb := by
    have hb' : b ∈ s.disp.queues.get j := hb
    have hne : b ≠ o.act := by
      rintro rfl
      have hq := (hs.queued j _ hb').1
      rw [ho] at hq
      cases hq
    rw [commandEnded_other s r hne]
    exact hs.queued j b hb'
  queues := hs.queues

theorem afterOutcome_timeouts (r : ActRt) (c : ActCfg) (v : Int) (o : CommandOutcome) :
    (r.afterOutcome c v o).freed.timeouts ≤ 3 := by
  cases o
  case timeout => exact min_le_left _ _
  all_goals exact Nat.zero_le _

theorem withinSizes_commandEnded (hs : WithinSizes s) (o : Outstanding) (r : CommandOutcome) :
    WithinSizes (s.commandEnded o r) := by
  obtain ⟨hm, hl, hk, hd, htimeouts, hmillis⟩ := withinSizes_iff.1 hs
  have hfreed : WithinSizes (s.freed o.tag) :=
    withinSizes_iff.2 ⟨hm, hl, hk, ⟨hd.waitCounts, hd.tags.sublist (List.filter_sublist.map _)⟩, htimeouts, hmillis⟩
  exact withinSizes_updAct o.act _ (fun _ => afterOutcome_timeouts ..) hfreed

/-- The end of an outstanding command keeps both laws. -/
theorem keepsLaws_commandEnded {o : Outstanding} (ho : o ∈ s.disp.outstanding) (r : CommandOutcome) :
    KeepsLaws s (s.commandEnded o r) where
  sizes hs := withinSizes_commandEnded hs o r
  tags hs := by
    obtain ⟨hflight, hqueue⟩ := tagLaw_iff.1 hs
    exact tagLaw_iff.2 ⟨flightLaw_commandEnded hflight ho r, queueLaw_commandEnded hqueue (hflight.entry o ho).1 r⟩
  held := le_rfl

theorem keepsLaws_endCommand {o : Outstanding} (ho : o ∈ s.disp.outstanding) (r : CommandOutcome) :
    KeepsLaws s (s.endCommand o r) := by
  have hnoted := (outcomeNoted_work s o r).any
  have ho' : o ∈ (s.outcomeNoted o r).disp.outstanding := by
    rw [hnoted.disp]
    exact ho
  have hsettled : KeepsLaws s (s.commandSettled o r) :=
    (KeepsLaws.of_work hnoted (joins_outcomeNoted s o r)).trans ((keepsLaws_commandEnded ho' r).trans (keepsLaws_join ..))
  have hreport (t : State) : KeepsLaws t (t.reportOutcome o.act r) :=
    .of_work (zoneWork_reportOutcome t o.act r trivial) (joins_reportOutcome t o.act r)
  unfold State.endCommand
  rw [freeCommand_settled]
  exact hsettled.trans ((hreport _).trans (keepsLaws_reportControl ..))

/-- The phases of outstanding entries change alone. -/
theorem keepsLaws_phases (s : State) {f : Outstanding → Outstanding} (hf : SameCommand f) :
    KeepsLaws s (s.updDisp fun d => { d with outstanding := d.outstanding.map f }) where
  sizes hs := by
    obtain ⟨hm, hl, hk, hd, htimeouts, hmillis⟩ := withinSizes_iff.1 hs
    exact withinSizes_iff.2 ⟨hm, hl, hk, ⟨hd.waitCounts, (map_tag hf _).symm ▸ hd.tags⟩, htimeouts, hmillis⟩
  tags hs := by
    obtain ⟨hflight, hqueue⟩ := tagLaw_iff.1 hs
    exact tagLaw_iff.2 ⟨hflight.of_same hf rfl (fun _ => .refl _) fun _ _ => rfl, hqueue.of_same rfl rfl fun _ => ⟨rfl, rfl⟩⟩
  held := le_rfl

theorem outstandingOf_mem {g : Tag} {o : Outstanding} (h : s.outstandingOf g = some o) : o ∈ s.disp.outstanding :=
  List.mem_of_find?_eq_some h

theorem keepsLaws_commandTransmitted (s : State) (g : Tag) (sent : Bool) : KeepsLaws s (s.commandTransmitted g sent) := by
  unfold State.commandTransmitted
  split
  · exact .refl s
  next o ho =>
    refine .ite (fun _ => keepsLaws_phases s fun x => ?_) fun _ => keepsLaws_endCommand (outstandingOf_mem ho) _
    split <;> exact ⟨rfl, rfl, rfl⟩

/-! ### A tag is handed out (R134, R135) -/

theorem nextTag_not_held {g : Tag} (h : s.nextTag = some g) : ∀ o ∈ s.disp.outstanding, o.tag ≠ g := by
  intro o ho e
  have hfree := List.find?_some h
  rw [tagHeld_iff.2 ⟨o, ho, e⟩] at hfree
  cases hfree

theorem nodup_append_tag {l : List Outstanding} (h : (l.map Outstanding.tag).Nodup) {o : Outstanding} (hf : ∀ x ∈ l, x.tag ≠ o.tag) :
    ((l ++ [o]).map Outstanding.tag).Nodup := by
  rw [List.map_append]
  refine h.append (List.nodup_singleton _) fun g hg hgo => ?_
  obtain ⟨x, hx, rfl⟩ := List.mem_map.1 hg
  exact hf x hx (List.mem_singleton.1 hgo)

/-- A new entry joins the outstanding table, and its actuator is in flight with it (R135 steps 2 and 3). -/
def State.handedOut (s : State) (o : Outstanding) : State :=
  (s.updDisp fun d => { d with lastTag := o.tag, outstanding := d.outstanding ++ [o] }).updAct o.act fun r =>
    { r with dispatch := .inFlight, inFlightValue := some o.value, inFlightTag := some o.tag, needsSend := false }

theorem dispatchWith_handedOut (s : State) (a : ActIx) (g : Tag) (v : Int) : ∃ o : Outstanding, o.tag = g ∧ o.act = a ∧
    s.dispatchWith a g v = (s.unqueue a).handedOut o :=
  ⟨{ tag := g, act := a, node := BitVec.ofNat 8 (s.cfg.acts[a]).node, channel := BitVec.ofNat 8 (s.cfg.acts[a]).channel
     value := v, phase := .sending, telegram := s.commandTelegram a g v }, rfl, rfl, rfl⟩

theorem handedOut_other (s : State) {o : Outstanding} (h : a ≠ o.act) : (s.handedOut o).acts[a] = s.acts[a] :=
  State.updAct_other _ h _

theorem handedOut_same (s : State) (o : Outstanding) : (s.handedOut o).acts[o.act] = { s.acts[o.act] with
    dispatch := .inFlight, inFlightValue := some o.value, inFlightTag := some o.tag, needsSend := false } := State.updAct_same ..

theorem withinSizes_handedOut (hs : WithinSizes s) {o : Outstanding} (hfree : ∀ x ∈ s.disp.outstanding, x.tag ≠ o.tag) :
    WithinSizes (s.handedOut o) := by
  obtain ⟨hm, hl, hk, hd, htimeouts, hmillis⟩ := withinSizes_iff.1 hs
  exact withinSizes_updAct o.act _ id
    (withinSizes_iff.2 ⟨hm, hl, hk, ⟨hd.waitCounts, nodup_append_tag hd.tags hfree⟩, htimeouts, hmillis⟩)

/-- A free tag given to an actuator that is in use, not DISABLED and not in flight. -/
theorem flightLaw_handedOut (hs : FlightLaw s) {o : Outstanding} (hfree : ∀ x ∈ s.disp.outstanding, x.tag ≠ o.tag)
    (hf : (s.acts[o.act]).dispatch ≠ .inFlight) (hu : (s.cfg.acts[o.act]).inUse = true)
    (hc : (s.acts[o.act]).control ≠ .disabled) : FlightLaw (s.handedOut o) := by
  have hother {x : Outstanding} (hx : x ∈ s.disp.outstanding) : x.act ≠ o.act := by
    intro e
    have hx := (hs.entry x hx).1
    simp only [e] at hx
    exact hf hx
  refine ⟨nodup_append_tag hs.tags hfree, ?_, fun x hx => ?_, fun b hb => ?_, fun b hb => ?_⟩
  · show ((s.disp.outstanding ++ [o]).map Outstanding.act).Nodup
    rw [List.map_append]
    refine hs.actuators.append (List.nodup_singleton _) fun b hb hbo => ?_
    obtain ⟨x, hx, rfl⟩ := List.mem_map.1 hb
    exact hother hx (List.mem_singleton.1 hbo)
  · obtain hx | hx := List.mem_append.1 (show x ∈ s.disp.outstanding ++ [o] from hx)
    · rw [handedOut_other s (hother hx)]
      exact hs.entry x hx
    · obtain rfl := List.mem_singleton.1 hx
      rw [handedOut_same]
      exact ⟨rfl, rfl, rfl⟩
  · by_cases hbo : b = o.act
    · exact ⟨o, List.mem_append_right _ (List.mem_singleton_self o), hbo.symm⟩
    · rw [handedOut_other s hbo] at hb
      obtain ⟨x, hx, hact⟩ := hs.flight b hb
      exact ⟨x, List.mem_append_left _ hx, hact⟩
  · by_cases hbo : b = o.act
    · subst hbo
      rw [handedOut_same]
      exact ⟨hu, hc⟩
    · rw [handedOut_other s hbo] at hb ⊢
      exact hs.live b hb

/-- The dispatch of a queued actuator with a free tag keeps both laws. -/
theorem lawsKept_dispatchWith {g : Tag} (hfree : ∀ o ∈ s.disp.outstanding, o.tag ≠ g) (ha : a ∈ s.disp.queues.get j) (v : Int) :
    LawsKept s (s.dispatchWith a g v) := by
  obtain ⟨o, rfl, rfl, he⟩ := dispatchWith_handedOut s a g v
  have hleft := (zoneWork_unqueue (zs := fun _ => True) s o.act trivial)
  have hfree' : ∀ x ∈ (s.unqueue o.act).disp.outstanding, x.tag ≠ o.tag := by
    rw [hleft.disp]
    exact hfree
  rw [he]
  refine ⟨fun hs => withinSizes_handedOut ((keepsLaws_unqueue s o.act).sizes hs) hfree', fun hs => ?_⟩
  have hqueue := (tagLaw_iff.1 hs).2
  obtain ⟨hflight, hqueue'⟩ := tagLaw_iff.1 ((keepsLaws_unqueue s o.act).tags hs)
  obtain ⟨hd, hc, hu, -⟩ := hqueue.queued j o.act ha
  refine tagLaw_iff.2 ⟨flightLaw_handedOut hflight hfree' ?_ ?_ ?_, ?_⟩
  · rw [Ne, (hleft.record o.act).flight, hd]
    exact DispatchState.noConfusion
  · rw [hleft.acts, hu]
  · rw [(hleft.record o.act).control, hc]
    exact Control.noConfusion
  · exact queueLaw_updAct (s := (s.unqueue o.act).updDisp fun d =>
      { d with lastTag := o.tag, outstanding := d.outstanding ++ [o] }) (unqueue_not_mem hqueue o.act) _
      (hqueue'.of_same rfl rfl fun _ => ⟨rfl, rfl⟩)

theorem waitCountAfter_le (s : State) (won k : Job) : s.waitCountAfter won k ≤ 15 := by
  unfold State.waitCountAfter
  split
  · exact Nat.zero_le _
  · split
    · exact min_le_left _ _
    · exact Nat.zero_le _

theorem lawsKept_counted (s : State) (won : Job) :
    LawsKept s (s.updDisp fun d => { d with waitCounts := s.waitCountsAfter won, lastWinner := won }) where
  sizes hs := by
    obtain ⟨hm, hl, hk, hd, htimeouts, hmillis⟩ := withinSizes_iff.1 hs
    exact withinSizes_iff.2
      ⟨hm, hl, hk, ⟨fun k => (waitCountsAfter_get s won k).trans_le (waitCountAfter_le s won k), hd.tags⟩, htimeouts, hmillis⟩
  tags hs := by
    obtain ⟨hflight, hqueue⟩ := tagLaw_iff.1 hs
    exact tagLaw_iff.2 ⟨hflight.of_same sameCommand_id (List.map_id _).symm (fun _ => .refl _) fun _ _ => rfl,
      hqueue.of_same rfl rfl fun _ => ⟨rfl, rfl⟩⟩

theorem lawsKept_offerWatches (s : State) (e : WatchEvent) : LawsKept s (s.offerWatches e) :=
  (KeepsLaws.of_work (zoneWork_offerWatches s e fun _ => trivial) (joins_offerWatches s e)).kept

/-- An arbitration keeps both laws: the tag is free, and its candidate waits in the winner's queue. -/
theorem lawsKept_arbitrate (s : State) : LawsKept s s.arbitrate := by
  cases ht : s.nextTag with
  | none => rw [arbitrate_noTag ht]; exact .refl s
  | some g =>
    cases hj : s.winner with
    | none => rw [arbitrate_noWinner hj]; exact .refl s
    | some won =>
      cases ha : (s.candidates won).head? with
      | none =>
        unfold State.arbitrate
        simp only [ht, hj, ha]
        exact .refl s
      | some a =>
        rw [arbitrate_dispatches ht hj ha]
        have hmem : a ∈ s.disp.queues.get won := List.mem_of_mem_filter (List.mem_of_head? ha)
        have hcounted := lawsKept_counted s won
        generalize hs : s.updDisp (fun d => { d with waitCounts := s.waitCountsAfter won, lastWinner := won }) = counted at hcounted
        have hfree : ∀ o ∈ counted.disp.outstanding, o.tag ≠ g := hs ▸ nextTag_not_held ht
        have hqueued : a ∈ counted.disp.queues.get won := hs ▸ hmem
        exact hcounted.trans ((lawsKept_dispatchWith hfree hqueued _).trans (lawsKept_offerWatches _ _))

/-! ### The clock and the table (R127, section 0.7) -/

theorem sameCommand_tick : SameCommand Outstanding.tick := by
  intro o
  unfold Outstanding.tick
  split <;> exact ⟨rfl, rfl, rfl⟩

theorem lawsKept_clockTick (s : State) : LawsKept s (clockTick s) where
  sizes hs := by
    obtain ⟨hm, hl, hk, hd, htimeouts, hmillis⟩ := withinSizes_iff.1 hs
    refine withinSizes_iff.2 ⟨⟨hm.notices, hm.trunkRequests, hm.serviceRequests, hm.replies, hm.errors⟩, hl, hk,
      ⟨hd.waitCounts, (map_tag sameCommand_tick _).symm ▸ hd.tags⟩, fun a => ?_, ?_⟩
    · rw [clockTick_act]
      exact htimeouts a
    · show (if s.millis = 999 then 0 else s.millis + 1) < 1000
      split <;> omega
  tags hs := by
    obtain ⟨hflight, hqueue⟩ := tagLaw_iff.1 hs
    refine tagLaw_iff.2 ⟨hflight.of_same sameCommand_tick rfl (fun a => ?_) fun _ _ => rfl,
      hqueue.of_same rfl rfl fun a => ?_⟩
    · rw [clockTick_act]
      exact ⟨Iff.rfl, fun _ => rfl, fun _ => rfl, fun _ h => h⟩
    · rw [clockTick_act]
      exact ⟨rfl, rfl⟩

theorem storeActuator_other {b : ActIx} (h : b ≠ a) {c : ActCfg} : (s.storeActuator a c).cfg.acts[b] = s.cfg.acts[b] := by
  have hne : (a : Nat) ≠ b := fun e => h (Fin.ext e.symm)
  simp [State.storeActuator, State.updCfg, State.updAct, hne]

/-- An entry that is not in use, or whose actuator is DISABLED, may be replaced: no command of it is in flight or queued (R127). -/
theorem keepsLaws_storeActuator (hlock : ((s.cfg.acts[a]).inUse && (s.acts[a]).control != .disabled) = false) (c : ActCfg) :
    KeepsLaws s (s.storeActuator a c) where
  sizes hs := by
    obtain ⟨hm, hl, hk, hd, htimeouts, hmillis⟩ := withinSizes_iff.1 hs
    exact withinSizes_updAct (s := s.updCfg fun k => { k with acts := k.acts.set a c }) a _ (fun _ => Nat.zero_le _)
      (withinSizes_iff.2 ⟨hm, hl, hk, hd, htimeouts, hmillis⟩)
  tags hs := by
    obtain ⟨hflight, hqueue⟩ := tagLaw_iff.1 hs
    have hfree : ¬ ((s.cfg.acts[a]).inUse = true ∧ (s.acts[a]).control ≠ .disabled) := fun h => by
      rw [(locked_iff s a).2 h] at hlock
      cases hlock
    have hlanded : (s.acts[a]).dispatch ≠ .inFlight := fun h => hfree (hflight.live a h)
    have hout (j : Job) : a ∉ s.disp.queues.get j := fun h => by
      obtain ⟨-, hc, hu, -⟩ := hqueue.queued j a h
      exact hfree ⟨hu, by rw [hc]; exact Control.noConfusion⟩
    have hreset : SameFlight s.acts[a] ActRt.reset :=
      ⟨iff_of_false DispatchState.noConfusion hlanded, fun h => absurd h hlanded, fun h => absurd h hlanded,
        fun h => absurd h hlanded⟩
    have hcfg {b : ActIx} (hb : b ≠ a) : (s.storeActuator a c).cfg.acts[b] = s.cfg.acts[b] := storeActuator_other hb
    refine tagLaw_iff.2 ⟨hflight.of_same sameCommand_id (List.map_id _).symm (fun b => ?_) fun b hb => ?_, ⟨fun j b hb => ?_,
      hqueue.queues⟩⟩
    · exact updAct_forall (s := s) (f := fun _ => .reset) SameFlight.refl hreset b
    · rw [hcfg fun e => hlanded (e ▸ hb)]
    · have hne : b ≠ a := fun e => hout j (e ▸ hb)
      rw [hcfg hne, State.storeActuator, State.updAct_other _ hne]
      exact hqueue.queued j b hb
  held := le_rfl

end KeepingDispatch

end Sys2Proof.Machine
end

section
/-! SUPPORT. The sizes and the law of tags through the points, the lines and the start. -/

namespace Sys2Proof.Machine

section KeepingLines

variable {z : ZoneIx} {s t u : State}

/-! ### Points (01) -/

theorem keepsLaws_offerWatches (s : State) (e : WatchEvent) : KeepsLaws s (s.offerWatches e) :=
  .of_work (zoneWork_offerWatches s e fun _ => trivial) (joins_offerWatches s e)

theorem keepsLaws_changePoint (s : State) (p : PointIx) (c : PointCfg) (f : PointRt → PointRt) :
    KeepsLaws s (s.changePoint p c f) := by
  have hcontact (t : State) (r : ContactReport) : KeepsLaws t (t.coverContact p c r) :=
    .of_work (zoneWork_coverContact t p c r fun _ _ => trivial) (joins_coverContact t p c r)
  have htold (t : State) (report : Option ContactReport) : KeepsLaws t (t.told p c report) := by
    unfold State.told
    split
    · exact .ite (fun _ => hcontact ..) fun _ => .refl t
    · exact .refl t
  rw [changePoint_eq]
  exact (keepsLaws_updPoint s p f).trans (htold ..)

theorem keepsLaws_takeItem (line : Line) (node : Nat) (s : State) (item : ReadingItem) :
    KeepsLaws s (State.takeItem line node s item) := by
  unfold State.takeItem
  split
  · exact .ite (fun _ => (keepsLaws_changePoint ..).trans (keepsLaws_offerWatches ..)) fun _ => keepsLaws_changePoint ..
  · exact .refl s

theorem keepsLaws_inspectReading (s : State) (line : Line) (t : Telegram) : KeepsLaws s (s.inspectReading line t) :=
  .ite (fun _ => .foldl (keepsLaws_takeItem line t.src.toNat) _ s) fun _ => .refl s

theorem keepsLaws_pointStale (s : State) (p : PointIx) : KeepsLaws s (s.pointStale p) :=
  (keepsLaws_changePoint ..).trans (.ite (fun _ => keepsLaws_raise ..) fun _ => .refl _)

/-! ### Forwarding (R143, R144, R154, R155) -/

theorem saturate16_le (n : Nat) : saturate16 n ≤ 65535 := min_le_left _ _

theorem QueueSizes.discard {q : ForwardQueue} (h : QueueSizes q) : QueueSizes q.discard := ⟨h.items, saturate16_le _⟩

theorem QueueSizes.offer {q : ForwardQueue} (h : QueueSizes q) (t : Telegram) : QueueSizes (q.offer t) := by
  unfold ForwardQueue.offer
  split
  next hroom =>
    refine ⟨?_, h.discards⟩
    rw [List.length_append]
    exact hroom
  next => exact h.discard

theorem length_drop_le {α : Type} (n : Nat) (l : List α) : (l.drop n).length ≤ l.length := (List.drop_sublist n l).length_le

theorem QueueSizes.leave {q : ForwardQueue} (h : QueueSizes q) (sent : Bool) : QueueSizes (q.leave sent) := by
  have hleft : QueueSizes { q with items := q.items.drop 1 } :=
    ⟨(length_drop_le ..).trans h.items, h.discards⟩
  unfold ForwardQueue.leave
  dsimp only
  split
  · exact hleft
  · exact hleft.discard

theorem QueueSizes.removeTo {q : ForwardQueue} (h : QueueSizes q) (own : Byte) (head : Bool) : QueueSizes (q.removeTo own head) := by
  refine ⟨?_, saturate16_le _⟩
  have hitems := h.items
  show ((if head then q.items.take 1 else []) ++ (if head then q.items.drop 1 else q.items).filter fun t => t.dest != own).length ≤ 16
  have hfilter := List.length_filter_le (fun t : Telegram => t.dest != own) (if head then q.items.drop 1 else q.items)
  rw [List.length_append]
  cases head <;> simp at hfilter ⊢ <;> omega

theorem keepsLaws_updQueue (s : State) (d : Direction) {f : ForwardQueue → ForwardQueue} (hf : ∀ {q}, QueueSizes q → QueueSizes (f q)) :
    KeepsLaws s (s.updQueue d f) := by
  cases d with
  | ht => exact .of_lines rfl fun h => { h with ht := hf h.ht }
  | th => exact .of_lines rfl fun h => { h with th := hf h.th }

theorem keepsLaws_setTx (s : State) (line : Line) (x : Transmitter) : KeepsLaws s (s.setTx line x) := by
  cases line <;> exact .of_lines rfl fun h => ⟨h.ht, h.th, h.hallErrors, h.trunkErrors, h.forwardWait⟩

theorem keepsLaws_offerFilter (s : State) (d : Direction) (t : Telegram) : KeepsLaws s (s.offerFilter d t) :=
  .ite (fun _ => keepsLaws_updQueue s d fun h => h.offer t) fun _ => .refl s

theorem keepsLaws_setForeignBlocked (s : State) : KeepsLaws s s.setForeignBlocked :=
  .of_marks rfl

theorem keepsLaws_forwardOverride (s : State) (a : ActIx) (t : Telegram) : KeepsLaws s (s.forwardOverride a t) := by
  have hoffer := keepsLaws_offerFilter s .th t
  unfold State.forwardOverride
  exact .ite (fun _ => hoffer.trans ((keepsLaws_overrideEffect _ a).trans (keepsLaws_reportControl ..))) fun _ => hoffer

theorem keepsLaws_judgeForeign (s : State) (t : Telegram) : KeepsLaws s (s.judgeForeign t) := by
  have hoffer := keepsLaws_offerFilter s .th t
  unfold State.judgeForeign
  split
  · exact hoffer
  · refine .ite (fun _ => .ite (fun _ => keepsLaws_setForeignBlocked s) fun _ => hoffer) fun _ => ?_
    split
    · exact hoffer
    next a _ =>
      exact .ite (fun _ => hoffer) fun _ => .ite (fun _ => keepsLaws_forwardOverride s a t) fun _ => keepsLaws_setForeignBlocked s

/-! ### Reception (R137, R151, R153, R162) -/

theorem keepsLaws_acknowledge (s : State) (t : Telegram) : KeepsLaws s (s.acknowledge t) := by
  unfold State.acknowledge
  split
  · exact .refl s
  · split
    next o _ ho => exact keepsLaws_endCommand (List.mem_of_find?_eq_some ho) _
    next => exact .refl s

theorem length_append_le {α : Type} {l : List α} {n : Nat} (h : l.length < n) (x : α) : (l ++ [x]).length ≤ n := by
  rw [List.length_append]
  exact h

theorem keepsLaws_requestArrives (s : State) (c : Channel) (t : Telegram) : KeepsLaws s (s.requestArrives c t) := by
  unfold State.requestArrives
  refine .ite (fun _ => .refl s) fun _ => .ite (fun hroom => ?_) fun _ => .of_marks rfl
  cases c with
  | trunk => exact .of_mgmt rfl (fun h => { h with trunkRequests := length_append_le hroom t }) le_rfl
  | service => exact .of_mgmt rfl (fun h => { h with serviceRequests := length_append_le hroom t }) le_rfl

theorem keepsLaws_hand (s : State) (line : Line) (t : Telegram) : KeepsLaws s (s.hand line t) := by
  have hread := keepsLaws_inspectReading s line t
  unfold State.hand State.handOwn State.handTransit
  refine .ite (fun _ => .ite (fun _ => hread) fun _ => ?_) fun _ => ?_
  · cases line with
    | hall => exact .ite (fun _ => keepsLaws_acknowledge s t) fun _ => .refl s
    | trunk => exact .ite (fun _ => keepsLaws_requestArrives ..) fun _ => .refl s
  · have hin : KeepsLaws s (if t.kind = kindReading then s.inspectReading line t else s) := .ite (fun _ => hread) fun _ => .refl s
    cases line with
    | hall => exact hin.trans (keepsLaws_offerFilter ..)
    | trunk => exact hin.trans (.ite (fun _ => keepsLaws_judgeForeign ..) fun _ => keepsLaws_offerFilter ..)

theorem keepsLaws_setLineActive (s : State) (line : Line) : KeepsLaws s (s.setLineActive line) := by
  cases line <;> exact .of_lines rfl fun h => ⟨h.ht, h.th, h.hallErrors, h.trunkErrors, h.forwardWait⟩

theorem keepsLaws_countError (s : State) (line : Line) : KeepsLaws s (s.countError line) := by
  cases line with
  | hall => exact .of_lines rfl fun h => { h with hallErrors := saturate16_le _ }
  | trunk => exact .of_lines rfl fun h => { h with trunkErrors := saturate16_le _ }

theorem keepsLaws_receive (s : State) (line : Line) (heard : List RxByte) : KeepsLaws s (s.receive line heard) := by
  unfold State.receive
  refine .ite (fun _ => .refl s) fun _ => ?_
  split
  · exact keepsLaws_countError ..
  · exact (keepsLaws_setLineActive ..).trans (keepsLaws_hand ..)

theorem keepsLaws_receiveService (s : State) (heard : List RxByte) : KeepsLaws s (s.receiveService heard) := by
  have hidle : KeepsLaws s s.restartIdle := .ite (fun _ => .of_marks rfl) fun _ => .refl s
  unfold State.receiveService
  refine .ite (fun _ => .refl s) fun _ => ?_
  split
  · exact .of_mgmt rfl (fun h => { h with errors := saturate16_le _ }) le_rfl
  · exact .ite (fun _ => hidle.trans (keepsLaws_requestArrives ..)) fun _ => .refl s

/-! ### Transmission (R155 to R158, R164) -/

theorem keepsLaws_hallChoose (s : State) : KeepsLaws s s.hallChoose := by
  unfold State.hallChoose
  split
  · exact (keepsLaws_setTx ..).trans
      (.of_lines rfl fun h => ⟨h.ht, h.th, h.hallErrors, h.trunkErrors, h.forwardWait⟩)
  · exact .refl s

theorem keepsLaws_trunkChoose (s : State) : KeepsLaws s s.trunkChoose := by
  unfold State.trunkChoose
  split
  · exact keepsLaws_setTx ..
  · exact .refl s

theorem removeReply_length (c : Channel) (l : List Reply) : (removeReply c l).length ≤ l.length := by
  induction l with
  | nil => exact le_rfl
  | cons r rest ih =>
    unfold removeReply
    split
    · exact Nat.le_succ _
    · exact Nat.succ_le_succ ih

theorem keepsLaws_removeReply (s : State) (c : Channel) :
    KeepsLaws s (s.updMgmt fun m => { m with replies := removeReply c m.replies }) := by
  have hheld : ({ s.mgmt with replies := removeReply c s.mgmt.replies } : Management).repliesHeld ≤ s.mgmt.repliesHeld :=
    Nat.add_le_add_right (removeReply_length c s.mgmt.replies) _
  exact .of_mgmt rfl (fun h => { h with replies := hheld.trans h.replies }) hheld

theorem keepsLaws_telegramFate (s : State) (line : Line) (source : TxSource) (sent : Bool) :
    KeepsLaws s (s.telegramFate line source sent) := by
  have hlost (t : State) : KeepsLaws t (if sent then t else t.setTxLost) :=
    .ite (fun _ => .refl t) fun _ => .of_marks rfl
  unfold State.telegramFate
  cases source with
  | command tag => exact keepsLaws_commandTransmitted ..
  | forward => exact keepsLaws_updQueue s _ fun h => h.leave sent
  | reply => exact (keepsLaws_removeReply s .trunk).trans (hlost _)
  | notice =>
    exact (KeepsLaws.of_mgmt (t := s.updMgmt fun m => { m with notices := m.notices.drop 1 }) rfl
      (fun h => { h with notices := (length_drop_le ..).trans h.notices }) le_rfl).trans (hlost _)
  | announce =>
    exact (KeepsLaws.of_lines (t := s.updLines fun l => { l with announcePending := false }) rfl
      fun h => ⟨h.ht, h.th, h.hallErrors, h.trunkErrors, h.forwardWait⟩).trans (hlost _)

theorem forwardWaitAfter_le (source : TxSource) (empty : Bool) (count : Nat) : forwardWaitAfter source empty count ≤ 4 := by
  unfold forwardWaitAfter
  split
  · exact Nat.zero_le _
  · exact min_le_left _ _

theorem keepsLaws_endTransmission (s : State) (line : Line) (source : TxSource) (sent : Bool) :
    KeepsLaws s (s.endTransmission line source sent) := by
  have hfate := (keepsLaws_setTx s line .free).trans (keepsLaws_telegramFate _ line source sent)
  unfold State.endTransmission
  cases line with
  | hall => exact hfate
  | trunk => exact hfate.trans (.of_lines rfl fun h => { h with forwardWait := forwardWaitAfter_le .. })

theorem keepsLaws_attemptEnd (s : State) (line : Line) (readBack : List RxByte) : KeepsLaws s (s.attemptEnd line readBack) := by
  unfold State.attemptEnd
  split
  · split
    · exact .refl s
    · exact keepsLaws_endTransmission ..
    · exact .ite (fun _ => keepsLaws_setTx ..) fun _ => keepsLaws_endTransmission ..
  all_goals exact .refl s

theorem keepsLaws_retryAttempt (s : State) (line : Line) (quiet : Nat) : KeepsLaws s (s.retryAttempt line quiet) := by
  unfold State.retryAttempt
  split
  · exact .ite (fun _ => keepsLaws_setTx ..) fun _ => .refl s
  all_goals exact .refl s

/-! ### The start (R189, R190) -/

theorem withinSizes_loaded (s : State) (image : Image) (trunkActive : Bool) : WithinSizes (s.loaded image trunkActive) := by
  have hnone {n : Nat} : 0 ≤ n := Nat.zero_le n
  refine withinSizes_iff.2 ⟨⟨hnone, hnone, hnone, hnone, hnone⟩, ⟨⟨hnone, hnone⟩, ⟨hnone, hnone⟩, hnone, hnone, hnone⟩,
    ⟨hnone, hnone, hnone, hnone⟩, ⟨fun j => ?_, List.nodup_nil⟩, fun a => ?_, show 0 < 1000 by decide⟩
  · cases j <;> exact hnone
  · simp [State.loaded, ActRt.reset]

theorem tagLaw_loaded (s : State) (image : Image) (trunkActive : Bool) : TagLaw (s.loaded image trunkActive) := by
  have hidle (a : ActIx) : ((s.loaded image trunkActive).acts[a]).dispatch = .idle := by simp [State.loaded, ActRt.reset]
  have hflight (a : ActIx) : ((s.loaded image trunkActive).acts[a]).dispatch ≠ .inFlight := by rw [hidle]; exact DispatchState.noConfusion
  have hempty (j : Job) : (s.loaded image trunkActive).disp.queues.get j = [] := by cases j <;> rfl
  refine tagLaw_iff.2 ⟨⟨List.nodup_nil, List.nodup_nil, nofun, fun a h => absurd h (hflight a), fun a h => absurd h (hflight a)⟩,
    ⟨fun j a ha => ?_, fun j => ?_⟩⟩
  · rw [hempty] at ha
    cases ha
  · rw [hempty]
    exact List.nodup_nil

theorem keepsLaws_startZone (s : State) (z : ZoneIx) : KeepsLaws s (s.startZone z) :=
  .ite (fun _ => (keepsLaws_updZone s z _).trans (.of_work (zoneWork_judgePosition _ z trivial) (joins_judgePosition _ z)))
    fun _ => .refl s

/-- Whatever stood before it, a start brings both laws about. -/
theorem lawsKept_boot (s : State) (image : Image) (trunkActive : Bool) : LawsKept s (s.boot image trunkActive) := by
  have hstart := KeepsLaws.foldl keepsLaws_startZone (indices 4) (s.loaded image trunkActive)
  exact ⟨fun _ => hstart.sizes (withinSizes_loaded ..), fun _ => hstart.tags (tagLaw_loaded ..)⟩

/-! ### The end of a commit (R188) -/

theorem raise_committed (s : State) (k : NoticeKind) (b : Byte) (d : List Byte) :
    (s.raise k b d).updMgmt (fun m => { m with commit := none }) = (s.updMgmt fun m => { m with commit := none }).raise k b d := by
  unfold State.raise
  rw [State.updMgmt_mgmt]
  split <;> rfl

/-- The reply takes the place that the commit held. -/
theorem keepsLaws_completeCommit {k : Commit} (hk : s.mgmt.commit = some k) : KeepsLaws s (s.completeCommit k) := by
  have hanswered (image : Image) (r : Reply) :
      KeepsLaws s ((({ s with image := image } : State).queueReply r).updMgmt fun m => { m with commit := none }) := by
    have hheld : ({ s.mgmt with replies := s.mgmt.replies ++ [r], commit := none } : Management).repliesHeld =
        s.mgmt.repliesHeld := by
      simp [Management.repliesHeld, hk]
    exact .of_blocks rfl rfl rfl rfl (fun h => ⟨h.notices, h.trunkRequests, h.serviceRequests, hheld.trans_le h.replies, h.errors⟩)
      hheld.le id id
  unfold State.completeCommit
  dsimp only
  rw [raise_committed]
  exact (hanswered ..).trans (keepsLaws_raise ..)

end KeepingLines

end Sys2Proof.Machine
end

section
/-! SUPPORT. The sizes and the law of tags through the requests and every command, and the two obligations about every step. -/

namespace Sys2Proof.Machine

section KeepingRequests

variable {z : ZoneIx} {s t u : State}

/-! ### Taking and answering (R163, R164) -/

/-- A request is taken only while the reply queue has room for its reply (R163). -/
theorem next_room {m : Management} {p : Channel × Telegram} (h : m.next = some p) : m.repliesHeld < 4 := by
  have htakeable {c : Channel} {t : Telegram} (h : m.takeable c = some t) : m.repliesHeld < 4 := by
    unfold Management.takeable at h
    dsimp only at h
    by_contra hfull
    rw [decide_eq_true (Nat.not_lt.1 hfull), Bool.or_true, Bool.true_or, if_pos rfl] at h
    cases h
  unfold Management.next at h
  dsimp only at h
  split at h
  next t ht => exact htakeable ht
  next =>
    obtain ⟨t, ht, -⟩ := Option.map_eq_some_iff.1 h
    exact htakeable ht

theorem nextRequest_room {r : Request} (h : s.nextRequest = some r) : s.mgmt.repliesHeld < 4 := by
  obtain ⟨p, hp, -⟩ := Option.map_eq_some_iff.1 h
  exact next_room hp

theorem keepsLaws_popRequest (s : State) (c : Channel) : KeepsLaws s (s.popRequest c) := by
  rw [popRequest_eq_taken]
  cases c with
  | trunk => exact .of_mgmt rfl (fun h => { h with trunkRequests := (length_drop_le ..).trans h.trunkRequests }) le_rfl
  | service => exact .of_mgmt rfl (fun h => { h with serviceRequests := (length_drop_le ..).trans h.serviceRequests }) le_rfl

theorem lawsKept_queueReply (h : s.mgmt.repliesHeld < 4) (r : Reply) : LawsKept s (s.queueReply r) := by
  have hheld : (s.queueReply r).mgmt.repliesHeld = s.mgmt.repliesHeld + 1 := by
    unfold State.queueReply Management.repliesHeld
    simp
    omega
  refine ⟨fun hs => ?_, tagLaw_of_acts rfl rfl rfl⟩
  obtain ⟨hm, hl, hk, hd, htimeouts, hmillis⟩ := withinSizes_iff.1 hs
  exact withinSizes_iff.2
    ⟨⟨hm.notices, hm.trunkRequests, hm.serviceRequests, hheld.trans_le h, hm.errors⟩, hl, hk, hd, htimeouts, hmillis⟩

/-- With room for its reply, a request whose rule keeps both laws is answered within them. -/
theorem KeepsLaws.replied {a : Answer} (h : KeepsLaws s a.state) (hroom : s.mgmt.repliesHeld < 4) (r : Request) :
    LawsKept s (a.reply r) := by
  have hroom' := h.held.trans_lt hroom
  unfold Answer.reply
  dsimp only
  split
  · exact h.kept
  · exact h.kept.trans (lawsKept_queueReply hroom' _)
  · exact h.kept.trans (lawsKept_queueReply hroom' _)

theorem keepsLaws_setStaging (s : State) (c : Channel) (g : Option Staging) : KeepsLaws s (s.setStaging c g) := by
  cases c <;> exact .of_marks rfl

theorem keepsLaws_commonRefusal (s : State) (r : Request) (status : Status) : KeepsLaws s (s.commonRefusal r status).state := by
  unfold State.commonRefusal
  split
  · exact keepsLaws_setStaging ..
  · split <;> exact .refl s
  all_goals exact .refl s

/-- A taken request is answered within both laws if its own rule, with its reply, keeps them. -/
theorem lawsKept_serve {own : Request → State → Answer}
    (h : ∀ r s, s.mgmt.repliesHeld < 4 → LawsKept s ((own r s).reply r)) (s : State) (row : Instr) :
    LawsKept s (s.serve row own) := by
  unfold State.serve
  split
  next r hr =>
    split
    · have hpop := keepsLaws_popRequest s r.channel
      have hroom := hpop.held.trans_lt (nextRequest_room hr)
      refine hpop.kept.trans ?_
      dsimp only [State.take]
      split
      · exact (keepsLaws_commonRefusal ..).replied hroom r
      · exact h r _ hroom
    · exact .refl s
  next => exact .refl s

theorem lawsKept_serveKeeping {own : Request → State → Answer} (h : ∀ r s, KeepsLaws s (own r s).state) (s : State) (row : Instr) :
    LawsKept s (s.serve row own) :=
  lawsKept_serve (fun r s hroom => (h r s).replied hroom r) s row

theorem keepsLaws_answerSegment (s : State) (bytes : List Byte) (segment : Nat) :
    KeepsLaws s (s.answerSegment bytes segment).state := by
  unfold State.answerSegment
  split <;> exact .refl s

/-- An accepted COMMIT_IMAGE holds a place of the reply queue in place of a reply (R163, R188). -/
theorem lawsKept_commit (r : Request) (s : State) (hroom : s.mgmt.repliesHeld < 4) : LawsKept s ((commitOwn r s).reply r) := by
  refine ⟨fun hs => ?_, tagLaw_of_acts rfl rfl rfl⟩
  obtain ⟨hm, hl, hk, hd, htimeouts, hmillis⟩ := withinSizes_iff.1 hs
  refine withinSizes_iff.2 ⟨⟨hm.notices, hm.trunkRequests, hm.serviceRequests, ?_, hm.errors⟩, hl, hk, hd, htimeouts, hmillis⟩
  have hreplies : s.mgmt.replies.length ≤ s.mgmt.repliesHeld := Nat.le_add_right _ _
  show s.mgmt.replies.length + 1 ≤ 4
  omega

/-! ### Writes (R167) -/

theorem keepsLaws_refuseWith (s : State) (status : Status) : KeepsLaws s (s.refuseWith status).1 := .refl s

theorem keepsLaws_refuseProtected (s : State) : KeepsLaws s s.refuseProtected.1 := .of_marks rfl

theorem keepsLaws_writePoint (s : State) (c : Channel) (i : Nat) (r : RawPoint) : KeepsLaws s (s.writePoint c i r).1 := by
  have hstore (p : PointIx) (e : PointCfg) : KeepsLaws s (s.storePoint p e) := by
    unfold State.storePoint
    exact (keepsLaws_updCfg s _ rfl).trans (keepsLaws_changePoint ..)
  unfold State.writePoint
  split
  · exact .refl s
  · split
    · exact keepsLaws_refuseProtected s
    · split
      · split
        · exact hstore ..
        · exact .refl s
      · exact .refl s

theorem keepsLaws_writeActuator (s : State) (c : Channel) (i : Nat) (r : RawActuator) : KeepsLaws s (s.writeActuator c i r).1 := by
  unfold State.writeActuator
  split
  · exact .refl s
  · split
    · exact keepsLaws_refuseProtected s
    · split
      · exact .refl s
      next hlock =>
        split
        · split
          · exact keepsLaws_storeActuator (Bool.eq_false_iff.2 hlock) _
          · exact .refl s
        · exact .refl s

theorem keepsLaws_writeGroup (s : State) (i : Nat) (r : List Nat) : KeepsLaws s (s.writeGroup i r).1 := by
  unfold State.writeGroup
  repeat' split
  all_goals exact .of_elsewhere rfl rfl rfl rfl rfl rfl rfl

theorem keepsLaws_writeHeader (s : State) (c : Channel) (i : Nat) (r : RawHeader) : KeepsLaws s (s.writeHeader c i r).1 := by
  unfold State.writeHeader
  repeat' split
  case h_2.isTrue => exact keepsLaws_refuseProtected s
  all_goals exact .of_elsewhere rfl rfl rfl rfl rfl rfl rfl

theorem keepsLaws_writeCue (s : State) (c : Channel) (i : Nat) (r : RawCue) : KeepsLaws s (s.writeCue c i r).1 := by
  unfold State.writeCue
  repeat' split
  case h_1.isTrue => exact keepsLaws_refuseProtected s
  all_goals exact .of_elsewhere rfl rfl rfl rfl rfl rfl rfl

theorem keepsLaws_writeZone (s : State) (c : Channel) (i : Nat) (r : RawZone) : KeepsLaws s (s.writeZone c i r).1 := by
  unfold State.writeZone
  repeat' split
  case h_2.isTrue => exact keepsLaws_refuseProtected s
  all_goals exact .of_elsewhere rfl rfl rfl rfl rfl rfl rfl

theorem keepsLaws_writeSaturation (s : State) (i : Nat) (r : List Nat) : KeepsLaws s (s.writeSaturation i r).1 := by
  unfold State.writeSaturation
  repeat' split
  all_goals exact .of_elsewhere rfl rfl rfl rfl rfl rfl rfl

theorem keepsLaws_writeFilter (s : State) (i : Nat) (r : RawFilter) : KeepsLaws s (s.writeFilter i r).1 := by
  unfold State.writeFilter
  repeat' split
  all_goals exact .of_elsewhere rfl rfl rfl rfl rfl rfl rfl

/-- A change of own address only shortens the forwarding queues (R155). -/
theorem keepsLaws_storePart (s : State) (p : PartRecord) : KeepsLaws s (s.storePart p) := by
  have hpart : KeepsLaws s (s.updPart fun _ => p) := .of_elsewhere rfl rfl rfl rfl rfl rfl rfl
  have hown (t : State) : KeepsLaws t (if p.own = s.cfg.part.own then t else t.updLines fun l => l.ownChanged t.own) :=
    .ite (fun _ => .refl t) fun _ => .of_lines rfl fun h => { h with ht := h.ht.removeTo .., th := h.th.removeTo .. }
  have hthreshold (t : State) (b : Accounting → Bool) : KeepsLaws t (t.updAcct fun k => { k with thresholdArmed := b k }) :=
    .of_acct rfl fun h => ⟨h.captures, h.ring, h.trunkReadOut, h.serviceReadOut⟩
  unfold State.storePart
  exact (hpart.trans (hown _)).trans (.ite (fun _ => .refl _) fun _ => hthreshold ..)

theorem keepsLaws_writePart (s : State) (i : Nat) (r : RawPart) : KeepsLaws s (s.writePart i r).1 := by
  unfold State.writePart
  split
  · split
    · split
      · exact keepsLaws_storePart ..
      · exact .refl s
    · exact .refl s
  · exact .refl s

theorem keepsLaws_decodeThen {α : Type} {write : α → Verdict} (s : State) (r : Reader α) (bytes : List Byte)
    (h : ∀ x, KeepsLaws s (write x).1) : KeepsLaws s (s.decodeThen r bytes write).1 := by
  unfold State.decodeThen
  split
  · exact h _
  · exact .refl s

theorem keepsLaws_writeEntry (s : State) (c : Channel) (table : TableId) (index : Nat) (bytes : List Byte) :
    KeepsLaws s (s.writeEntry c table index bytes).1 := by
  unfold State.writeEntry
  cases table <;> refine keepsLaws_decodeThen s _ bytes fun x => ?_
  case point => exact keepsLaws_writePoint ..
  case actuator => exact keepsLaws_writeActuator ..
  case group => exact keepsLaws_writeGroup ..
  case sceneHeader => exact keepsLaws_writeHeader ..
  case cue => exact keepsLaws_writeCue ..
  case zone => exact keepsLaws_writeZone ..
  case saturation => exact keepsLaws_writeSaturation ..
  case filter => exact keepsLaws_writeFilter ..
  case part => exact keepsLaws_writePart ..

theorem keepsLaws_writeSegment (r : Request) (s : State) : KeepsLaws s (writeSegment r s).state := by
  have hemptied := keepsLaws_setStaging s r.channel none
  unfold writeSegment
  dsimp only
  split
  · exact hemptied
  · split
    · exact hemptied
    · split
      · exact keepsLaws_setStaging ..
      · split
        · exact hemptied.trans (keepsLaws_writeEntry ..)
        · exact hemptied

/-! ### Zone commands (R88, R169, R186) -/

theorem keepsLaws_takeDecision (s : State) (z : ZoneIx) (b : Bool) : KeepsLaws s (s.takeDecision z b) :=
  .of_work (zoneWork_takeDecision s z b trivial) (joins_takeDecision s z b)

theorem keepsLaws_clearHold (s : State) (z : ZoneIx) : KeepsLaws s (s.clearHold z) :=
  .of_work (zoneWork_clearHold s z trivial) (joins_clearHold s z)

theorem keepsLaws_enterDetect (s : State) (z : ZoneIx) (c : CoverCause) : KeepsLaws s (s.enterDetect z c) :=
  .of_work (zoneWork_enterDetect s z c trivial) (joins_enterDetect s z c)

theorem keepsLaws_setEnabled (s : State) (z : ZoneIx) (b : Bool) : KeepsLaws s (s.setEnabled z b) := keepsLaws_updCfg s _ rfl

theorem keepsLaws_enableZone (s : State) (z : ZoneIx) : KeepsLaws s (s.enableZone z) := by
  unfold State.enableZone
  exact ((((keepsLaws_dispatcherEnable s z).trans (keepsLaws_setEnabled _ z true)).trans (keepsLaws_updZone _ z _)).trans
    (keepsLaws_takeDecision _ z false)).trans (keepsLaws_enterDetect _ z _)

theorem keepsLaws_disableZone (s : State) (z : ZoneIx) : KeepsLaws s (s.disableZone z) := by
  have harbiter (t : State) : KeepsLaws t (t.arbiterDisable z) :=
    .of_work (zoneWork_arbiterDisable t z trivial) (joins_arbiterDisable t z)
  have hcover (t : State) : KeepsLaws t (t.coverDisable z) := .of_work (zoneWork_coverDisable t z trivial) (joins_coverDisable t z)
  have hscene (t : State) : KeepsLaws t (t.sceneDisable z) := by
    unfold State.sceneDisable State.updScene
    exact keepsLaws_updZone t z _
  have hbase : KeepsLaws s ((s.setEnabled z false).updEval z fun e => { e with timer := .stopped }) :=
    (keepsLaws_setEnabled s z false).trans (keepsLaws_updZone _ z _)
  unfold State.disableZone
  exact (((hbase.trans (harbiter _)).trans (hcover _)).trans (hscene _)).trans (keepsLaws_dispatcherDisable _ z)

theorem keepsLaws_moveCovers (s : State) (z : ZoneIx) (force : Bool) (prep motion : CoverState) :
    KeepsLaws s (s.moveCovers z force prep motion) := by
  have hmotion (c : CoverCause) : KeepsLaws s (s.enterMotion z motion c) :=
    .of_work (zoneWork_enterMotion s z motion c trivial) (joins_enterMotion s z motion c)
  have hprep : KeepsLaws s (s.enterPrep z prep) := .of_work (zoneWork_enterPrep s z prep trivial) (joins_enterPrep s z prep)
  exact .ite (fun _ => hmotion _) fun _ => .ite (fun _ => hmotion _) fun _ => hprep

theorem keepsLaws_resetControlAll (s : State) (z : ZoneIx) : KeepsLaws s (s.resetControlAll z) := by
  have hwithdrawn (t : State) (b : Bool) : KeepsLaws t (if b then t.purgeWithdrawn z else t) :=
    .ite (fun _ => .of_work (zoneWork_purgeWithdrawn t z trivial) (joins_purgeWithdrawn t z)) fun _ => .refl t
  unfold State.resetControlAll
  exact (((keepsLaws_updZone s z _).trans (hwithdrawn ..)).trans (keepsLaws_updZone _ z _)).trans (keepsLaws_clearHold _ z)

theorem keepsLaws_resumeZone (s : State) (z : ZoneIx) : KeepsLaws s (s.resumeZone z) :=
  (keepsLaws_clearHold s z).trans (.ite (fun _ => keepsLaws_takeDecision ..) fun _ => .refl _)

theorem keepsLaws_zoneChecked {effect : ZoneIx → Bool → State → Answer} (h : ∀ z b s, KeepsLaws s (effect z b s).state)
    (r : Request) (s : State) : KeepsLaws s (zoneChecked effect r s).state := by
  unfold zoneChecked
  dsimp only
  split
  · exact .refl s
  · split
    · exact .refl s
    · split
      · exact .refl s
      · split
        · exact keepsLaws_refuseProtected s
        · exact h ..

theorem keepsLaws_zoneEnable (r : Request) (s : State) : KeepsLaws s (zoneEnableOwn r s).state :=
  keepsLaws_zoneChecked (fun z _ s => KeepsLaws.ite (fun _ => .refl s) fun _ => keepsLaws_enableZone s z) r s

theorem keepsLaws_zoneDisable (r : Request) (s : State) : KeepsLaws s (zoneDisableOwn r s).state :=
  keepsLaws_zoneChecked (fun z _ s => KeepsLaws.ite (fun _ => keepsLaws_disableZone s z) fun _ => .refl s) r s

theorem keepsLaws_closeCovers (r : Request) (s : State) : KeepsLaws s (closeCoversOwn r s).state := by
  refine keepsLaws_zoneChecked (fun z force s => ?_) r s
  split
  · exact .refl s
  · split
    · exact .refl s
    · exact keepsLaws_moveCovers ..

theorem keepsLaws_openCovers (r : Request) (s : State) : KeepsLaws s (openCoversOwn r s).state := by
  refine keepsLaws_zoneChecked (fun z force s => ?_) r s
  split
  · exact .refl s
  · exact keepsLaws_moveCovers ..

theorem keepsLaws_clearFault (r : Request) (s : State) : KeepsLaws s (clearFaultOwn r s).state := by
  refine keepsLaws_zoneChecked (fun z _ s => ?_) r s
  split
  · rw [done_state]
    exact keepsLaws_enterDetect s z .cleared
  · exact .refl s

/-! ### The other requests -/

theorem keepsLaws_sceneRequest (r : Request) (s : State) : KeepsLaws s (sceneRequestOwn r s).state := by
  have htaken (z : ZoneIx) (n : SceneIx) : KeepsLaws s (State.reportScene z (s.takeScene z n .request)) :=
    .of_work ((zoneWork_takeScene s z n .request trivial).trans (zoneWork_reportScene z _ trivial))
      ((joins_takeScene s z n .request).trans (joins_reportScene _))
  unfold sceneRequestOwn
  split
  · split
    · exact .refl s
    · split
      · exact .refl s
      · exact htaken ..
  · exact .refl s

theorem keepsLaws_actuatorChecked {effect : State → ActIx → State × Bool} (h : ∀ s a, KeepsLaws s (effect s a).1)
    (r : Request) (s : State) : KeepsLaws s (actuatorChecked effect r s).state := by
  unfold actuatorChecked
  split
  · exact .refl s
  next a _ =>
    split
    · exact .refl s
    · split
      · exact .refl s
      · split
        · exact keepsLaws_refuseProtected s
        · exact (h s a).trans (keepsLaws_reportControl ..)

theorem keepsLaws_clearFlags (s : State) (selector : Nat) (mask : Byte) : KeepsLaws s (s.clearFlags selector mask) := by
  refine .ite (fun _ => .of_marks rfl) fun _ => ?_
  split
  · exact keepsLaws_updZone ..
  · exact .refl s

theorem keepsLaws_readEntry (r : Request) (s : State) : KeepsLaws s (readEntryOwn r s).state := by
  unfold readEntryOwn
  split
  · exact .refl s
  · split <;> exact .refl s

theorem keepsLaws_readFlags (r : Request) (s : State) : KeepsLaws s (readFlagsOwn r s).state := by
  unfold readFlagsOwn
  split
  · exact .refl s
  · exact keepsLaws_clearFlags ..

theorem keepsLaws_accumulatorRead (r : Request) (s : State) : KeepsLaws s (accumulatorReadOwn r s).state := by
  unfold accumulatorReadOwn
  split
  · exact .refl s
  · exact keepsLaws_answerSegment ..

theorem keepsLaws_setAcc (s : State) (z : ZoneIx) (a : AccIx) (x : Accumulator) : KeepsLaws s (s.setAcc z a x) :=
  .of_acct rfl fun h => ⟨h.captures, h.ring, h.trunkReadOut, h.serviceReadOut⟩

theorem keepsLaws_accumulatorPreload (r : Request) (s : State) : KeepsLaws s (accumulatorPreloadOwn r s).state := by
  unfold accumulatorPreloadOwn
  split
  · exact keepsLaws_setAcc ..
  · exact .refl s

theorem keepsLaws_accumulatorSetRun (r : Request) (s : State) : KeepsLaws s (accumulatorSetRunOwn r s).state := by
  unfold accumulatorSetRunOwn
  split
  · exact .of_elsewhere rfl rfl rfl rfl rfl rfl rfl
  · exact .refl s

theorem keepsLaws_captureTake (r : Request) (s : State) : KeepsLaws s (captureTakeOwn r s).state := by
  unfold captureTakeOwn
  split
  · exact .refl s
  · exact .of_work (zoneWork_capture ..) (joins_capture ..)

/-- The records read out leave the buffer, at most two of them (R182). -/
theorem keepsLaws_removeCaptures (s : State) (c : Channel) : KeepsLaws s (s.removeCaptures c) := by
  have htaken : (s.acct.captures.take 2).length ≤ 2 := List.length_take_le ..
  unfold State.removeCaptures State.setReadOut
  cases c with
  | trunk => exact .of_acct rfl fun h => { h with captures := (length_drop_le ..).trans h.captures, trunkReadOut := htaken }
  | service => exact .of_acct rfl fun h => { h with captures := (length_drop_le ..).trans h.captures, serviceReadOut := htaken }

theorem keepsLaws_captureRead (r : Request) (s : State) : KeepsLaws s (captureReadOwn r s).state :=
  (KeepsLaws.ite (fun _ => keepsLaws_removeCaptures s r.channel) fun _ => .refl s).trans (keepsLaws_answerSegment ..)

theorem keepsLaws_ringRead (r : Request) (s : State) : KeepsLaws s (ringReadOwn r s).state := by
  unfold ringReadOwn
  split
  · exact keepsLaws_answerSegment ..
  · exact .refl s

theorem keepsLaws_ringUnfreeze (r : Request) (s : State) : KeepsLaws s (ringUnfreezeOwn r s).state :=
  .of_acct rfl fun h => ⟨h.captures, h.ring, h.trunkReadOut, h.serviceReadOut⟩

theorem keepsLaws_watchChecked {effect : WatchIx → State → Answer} (h : ∀ w s, KeepsLaws s (effect w s).state)
    (r : Request) (s : State) : KeepsLaws s (watchChecked effect r s).state := by
  unfold watchChecked
  split
  · exact .refl s
  · exact h ..

theorem keepsLaws_setWatch (s : State) (w : WatchIx) (x : Watch) : KeepsLaws s (s.setWatch w x) := keepsLaws_updCfg s _ rfl

theorem keepsLaws_watchRead (r : Request) (s : State) : KeepsLaws s (watchReadOwn r s).state :=
  keepsLaws_watchChecked (fun w s => keepsLaws_answerSegment s (s.cfg.watches[w]).bytes (r.param 2)) r s

theorem keepsLaws_watchWrite (r : Request) (s : State) : KeepsLaws s (watchWriteOwn r s).state := by
  refine keepsLaws_watchChecked (fun w s => ?_) r s
  split
  · exact keepsLaws_setWatch ..
  · exact .refl s

theorem keepsLaws_watchArm (armed : Bool) (r : Request) (s : State) : KeepsLaws s (watchArmOwn armed r s).state :=
  keepsLaws_watchChecked (fun w s => keepsLaws_setWatch s w _) r s

theorem keepsLaws_takeLocal (r : Request) (s : State) : KeepsLaws s (takeLocalOwn r s).state := by
  unfold takeLocalOwn
  split
  · exact .refl s
  · exact .of_marks rfl

theorem keepsLaws_releaseLocalWith (s : State) (cause : Nat) : KeepsLaws s (s.releaseLocalWith cause) := by
  have hreleased : KeepsLaws s (s.updMgmt fun m => { m with localMode := false, idleTimer := .stopped }) := .of_marks rfl
  exact hreleased.trans (keepsLaws_raise ..)

theorem keepsLaws_releaseLocal (r : Request) (s : State) : KeepsLaws s (releaseLocalOwn r s).state :=
  KeepsLaws.ite (fun _ => keepsLaws_releaseLocalWith s 0) fun _ => .refl s

/-! ### Every command (R150, R169) -/

theorem LawsKept.next (h : LawsKept s u) (he : Host.Outcome.next u = (.next t : Host.Outcome State Fault Refusal)) :
    LawsKept s t := by
  cases he
  exact h

theorem KeepsLaws.next (h : KeepsLaws s u) (he : Host.Outcome.next u = (.next t : Host.Outcome State Fault Refusal)) :
    LawsKept s t := h.kept.next he

/-- The meaning of an expiry or event that does not happen unless its condition holds. -/
theorem KeepsLaws.when {c : Prop} [Decidable c] (h : KeepsLaws s u) : KeepsLaws s (if c then u else s) :=
  .ite (fun _ => h) fun _ => .refl s

theorem keepsLaws_evaluate (s : State) (z : ZoneIx) : KeepsLaws s (s.evaluate z) :=
  (keepsLaws_updZone s z _).trans (.of_work (zoneWork_evaluate s z trivial) (joins_evaluate s z))

theorem keepsLaws_enterFault (s : State) (z : ZoneIx) (r : FaultReason) : KeepsLaws s (s.enterFault z r noIndex) :=
  .of_work (zoneWork_enterFault s z r noIndex trivial) (joins_enterFault s z r noIndex)

/-- Every command keeps both laws. -/
theorem lawsKept_exec (i : Instr) (s t : State) (he : exec i s = .next t) : LawsKept s t := by
  cases i with
  | powerOn => exact (lawsKept_boot s _ _).next he
  | receivedUnit line heard => exact (keepsLaws_receive s line heard).next he
  | serviceUnit heard => exact (keepsLaws_receiveService s heard).next he
  | staleExpiry p => exact (keepsLaws_pointStale s p).when.next he
  | evaluation z => exact (keepsLaws_evaluate s z).when.next he
  | dwellExpiry z => exact (keepsLaws_updZone s z _).when.next he
  | detectTimeout z => exact (keepsLaws_enterFault s z _).when.next he
  | prepTimeout z => exact (keepsLaws_enterFault s z _).when.next he
  | motionTimeout z => exact (keepsLaws_enterFault s z _).when.next he
  | settleExpiry z =>
    exact (KeepsLaws.of_work (zoneWork_coverChange s z _ _ _ trivial) (joins_coverChange s z _ _ _)).when.next he
  | purgeWaitExpiry z =>
    exact ((keepsLaws_updZone s z _).trans (keepsLaws_takeDecision _ z false)).when.next he
  | purgeRunExpiry z =>
    exact (KeepsLaws.of_work (zoneWork_purgeRunEnd s z trivial) (joins_purgeRunEnd s z)).when.next he
  | cueDelayExpiry z cue =>
    have hcue : KeepsLaws s (s.cueExpires z cue.val) :=
      .of_work (((zoneWork_startCue s z cue.val trivial).trans (zoneWork_judgeIfDone _ z trivial)).trans
        (zoneWork_reportScene z _ trivial))
        (((joins_startCue s z cue.val).trans (joins_judgeIfDone _ z)).trans (joins_reportScene _))
    exact hcue.when.next he
  | fadeStep z =>
    have hstep : KeepsLaws s (State.reportScene z ((s.stepFades z).judgeIfDone z)) :=
      .of_work (((zoneWork_stepFades s z trivial).trans (zoneWork_judgeIfDone _ z trivial)).trans
        (zoneWork_reportScene z _ trivial))
        (((joins_stepFades s z).trans (joins_judgeIfDone _ z)).trans (joins_reportScene _))
    exact hstep.when.next he
  | refreshExpiry a => exact (keepsLaws_refreshExpire s a).when.next he
  | retryExpiry a => exact (keepsLaws_retryExpire s a).when.next he
  | overrideHoldExpiry a => exact (keepsLaws_overrideEnds s a).when.next he
  | ackTimeout tag =>
    refine KeepsLaws.next ?_ he
    split
    next o ho => exact (keepsLaws_endCommand (outstandingOf_mem ho) _).when
    next => exact .refl s
  | arbitration => exact (lawsKept_arbitrate s).next he
  | hallTxChoose => exact (keepsLaws_hallChoose s).next he
  | trunkTxChoose => exact (keepsLaws_trunkChoose s).next he
  | txAttemptEnd line readBack => exact (keepsLaws_attemptEnd s line readBack).next he
  | txRetryAttempt line quiet => exact (keepsLaws_retryAttempt s line quiet).next he
  | serviceReplySent => exact (keepsLaws_removeReply s .service).next he
  | commitComplete =>
    refine KeepsLaws.next ?_ he
    split
    next k hk => exact keepsLaws_completeCommit hk
    next => exact .refl s
  | localIdleExpiry => exact (keepsLaws_releaseLocalWith s 1).when.next he
  | restartBegin =>
    refine LawsKept.next ?_ he
    split
    · exact lawsKept_boot ..
    · exact .refl s
  | unknownRequest | identify | captureCount => exact (lawsKept_serveKeeping (fun _ s => .refl s) s _).next he
  | readEntry => exact (lawsKept_serveKeeping keepsLaws_readEntry s _).next he
  | writeEntrySegment | writeEntryPoint | writeEntryActuator | writeEntryGroup | writeEntrySceneHeader | writeEntryCue
  | writeEntryZone | writeEntrySaturation | writeEntryFilter | writeEntryPart =>
    exact (lawsKept_serveKeeping keepsLaws_writeSegment s _).next he
  | zoneEnable => exact (lawsKept_serveKeeping keepsLaws_zoneEnable s _).next he
  | zoneDisable => exact (lawsKept_serveKeeping keepsLaws_zoneDisable s _).next he
  | closeCovers => exact (lawsKept_serveKeeping keepsLaws_closeCovers s _).next he
  | openCovers => exact (lawsKept_serveKeeping keepsLaws_openCovers s _).next he
  | clearFault => exact (lawsKept_serveKeeping keepsLaws_clearFault s _).next he
  | resetControl =>
    exact (lawsKept_serveKeeping (keepsLaws_zoneChecked fun z _ s => keepsLaws_resetControlAll s z) s _).next he
  | resume => exact (lawsKept_serveKeeping (keepsLaws_zoneChecked fun z _ s => keepsLaws_resumeZone s z) s _).next he
  | sceneRequest => exact (lawsKept_serveKeeping keepsLaws_sceneRequest s _).next he
  | actuatorDisable => exact (lawsKept_serveKeeping (keepsLaws_actuatorChecked keepsLaws_disableActuator) s _).next he
  | actuatorEnable => exact (lawsKept_serveKeeping (keepsLaws_actuatorChecked keepsLaws_enableActuator) s _).next he
  | readFlags => exact (lawsKept_serveKeeping keepsLaws_readFlags s _).next he
  | lineStatus hall trunk => exact (lawsKept_serveKeeping (fun _ s => keepsLaws_answerSegment s _ _) s _).next he
  | accumulatorRead => exact (lawsKept_serveKeeping keepsLaws_accumulatorRead s _).next he
  | accumulatorPreload => exact (lawsKept_serveKeeping keepsLaws_accumulatorPreload s _).next he
  | accumulatorSetRun => exact (lawsKept_serveKeeping keepsLaws_accumulatorSetRun s _).next he
  | captureTake => exact (lawsKept_serveKeeping keepsLaws_captureTake s _).next he
  | captureRead => exact (lawsKept_serveKeeping keepsLaws_captureRead s _).next he
  | ringRead => exact (lawsKept_serveKeeping keepsLaws_ringRead s _).next he
  | ringUnfreeze => exact (lawsKept_serveKeeping keepsLaws_ringUnfreeze s _).next he
  | watchRead => exact (lawsKept_serveKeeping keepsLaws_watchRead s _).next he
  | watchWrite => exact (lawsKept_serveKeeping keepsLaws_watchWrite s _).next he
  | watchArm => exact (lawsKept_serveKeeping (keepsLaws_watchArm true) s _).next he
  | watchDisarm => exact (lawsKept_serveKeeping (keepsLaws_watchArm false) s _).next he
  | commitImage => exact (lawsKept_serve lawsKept_commit s _).next he
  | restart => exact (lawsKept_serveKeeping (fun _ _ => .of_marks rfl) s _).next he
  | takeLocal => exact (lawsKept_serveKeeping keepsLaws_takeLocal s _).next he
  | releaseLocal => exact (lawsKept_serveKeeping keepsLaws_releaseLocal s _).next he

/-- With no command waiting the clock keeps both laws, and every command keeps them. -/
theorem lawsKept_step (s t : State) (hstep : step s = .next t) : LawsKept s t := by
  unfold step at hstep
  split at hstep
  · exact (lawsKept_clockTick s).next hstep
  next c rest _ =>
    have hpopped : KeepsLaws s { s with pending := rest } := .of_elsewhere rfl rfl rfl rfl rfl rfl rfl
    exact hpopped.kept.trans (lawsKept_exec _ _ t hstep)

end KeepingRequests

/-- Settles O57: each update adds to a queue only while it has room, and every count saturates at its size. -/
theorem stepsKeepTheSizes : Obligations.StepsKeepTheSizes := fun s t hs hstep => (lawsKept_step s t hstep).sizes hs

/-- Settles O59: a tag is handed out only while it is free and to a queued actuator alone, and the end of its command frees both. -/
theorem stepsKeepTheTagLaw : Obligations.StepsKeepTheTagLaw := fun s t hs hstep => (lawsKept_step s t hstep).tags hs

end Sys2Proof.Machine
end

section
/-! SUPPORT. A write of an actuator entry, the choice of the hall transmitter, job requests, and the actuators' timers. -/

namespace Sys2Proof.Machine

variable {s t : State} {a : ActIx}

/-! ### ACTUATOR (R127) -/

/-- Settles O14: the end of the write is the table's own rule on the written state. -/
theorem writeActuatorReplacesTheEntry : Obligations.WriteActuatorReplacesTheEntry := by
  intro s c t a e hw hfits hun hfree hok
  have hunlocked : ((s.cfg.acts[a]).inUse && (s.acts[a]).control != .disabled) = false := by
    rw [Bool.eq_false_iff, Ne, locked_iff]
    rintro ⟨hu, hc⟩
    exact hfree.elim (fun h => by rw [h] at hu; cases hu) hc
  refine exec_writeActuator hw hfits (v := ((s.written c).storeActuator a e, .done)) ?_
  rw [writeActuator_eq, written_cfg, written_acts, protectRefuses_of hun, hunlocked, actValid_written, (actValid_iff s a e).2 hok]
  rfl

/-! ### The hall transmitter (R157) -/

theorem waitingCommand_oldest {older younger : List Outstanding} {o : Outstanding} (h : s.disp.outstanding = older ++ o :: younger)
    (hold : ∀ x ∈ older, x.phase ≠ .sending) (ho : o.phase = .sending) : s.waitingCommand = some o := by
  unfold State.waitingCommand
  rw [h]
  exact find_first _ older younger o (fun x hx => beq_eq_false_iff_ne.2 (hold x hx)) (beq_iff_eq.2 ho)

theorem waitingCommand_none (h : ∀ o ∈ s.disp.outstanding, o.phase ≠ .sending) : s.waitingCommand = none :=
  List.find?_eq_none.2 fun o ho hs => h o ho (beq_iff_eq.1 hs)

/-- A command is chosen where no forward waits, or where a forward was served last. -/
theorem hallChoice_command {o : Outstanding} (hw : s.waitingCommand = some o)
    (hl : s.lines.th.items = [] ∨ s.lines.hallLast = .forward) : s.hallChoice = some (.command o.tag, o.telegram, .command) := by
  unfold State.hallChoice
  rw [hw]
  cases hi : s.lines.th.items with
  | nil => rfl
  | cons x rest =>
    have hlast := hl.resolve_left (by rw [hi]; exact List.cons_ne_nil x rest)
    rw [hlast]
    rfl

/-- A forward is chosen where no command waits, or where a command was served last. -/
theorem hallChoice_forward {x : Telegram} {rest : List Telegram} (hi : s.lines.th.items = x :: rest)
    (hl : s.waitingCommand = none ∨ s.lines.hallLast = .command) : s.hallChoice = some (.forward, x, .forward) := by
  unfold State.hallChoice
  rw [hi]
  cases hw : s.waitingCommand with
  | none => rfl
  | some o =>
    have hlast := hl.resolve_left (by rw [hw]; exact Option.some_ne_none o)
    rw [hlast]
    rfl

theorem hallChoose_takes {source : TxSource} {x : Telegram} {served : HallSource} (hfree : s.lines.hallTx = .free)
    (hc : s.hallChoice = some (source, x, served)) : s.hallChoose = { s with lines := { s.lines with
      hallTx := .sending source x 1, hallLast := served } } := by
  unfold State.hallChoose
  rw [hfree, hc]
  rfl

/-- Settles O25: the waiting command is the first in phase SENDING, and the last-served field decides where both wait. -/
theorem hallTransmitterAlternates : Obligations.HallTransmitterAlternates := by
  intro s
  refine ⟨fun older younger o hfree hout hold ho hl => ?_, fun x rest hfree hi hl => ?_, fun _ _ _ _ _ => ⟨_, rfl, rfl, rfl⟩⟩
  · exact congrArg Host.Outcome.next (hallChoose_takes hfree (hallChoice_command (waitingCommand_oldest hout hold ho) hl))
  · exact congrArg Host.Outcome.next (hallChoose_takes hfree (hallChoice_forward hi (hl.imp_left waitingCommand_none)))

/-! ### Job requests (R129, R130) -/

theorem reference_eq (r : ActRt) : r.reference = if r.dispatch = .inFlight then r.inFlightValue else r.confirmed := by
  unfold ActRt.reference
  cases r.dispatch <;> rfl

/-- The deadband test in the words of R129. -/
theorem deadbandTest_iff {c : ActCfg} {r : ActRt} {w : Int} : deadbandTest c r w = true ↔ r.rangeRefused ≠ some w ∧
    ∀ x, (if r.dispatch = .inFlight then r.inFlightValue else r.confirmed) = some x → w ≠ x ∧ c.deadband ≤ (w - x).natAbs := by
  unfold deadbandTest
  rw [← reference_eq]
  cases r.reference with
  | none => simp
  | some x => simp only [Bool.and_eq_true, bne_iff_ne, decide_eq_true_eq, Int.ofNat_le, Option.some.injEq, forall_eq']

theorem limited_eq (c : ActCfg) (v : Int) : clamp v c.min c.max = c.limited v := rfl

/-- A request's effect on the record: the value is stored, and where the test asks for it, marked to be sent. -/
theorem request_eq (c : ActCfg) (r : ActRt) (w : Int) : r.request c w =
    if r.control ≠ .overridden ∧ deadbandTest c r w = true then { r with requested := some w, needsSend := true, refreshOnly := false }
    else { r with requested := some w } := by
  unfold ActRt.request
  dsimp only
  split
  next ho => exact (if_neg fun h => h.1 ho).symm
  all_goals
    next ho => exact if_congr (iff_and_self.2 fun _ => by rw [ho]; exact Control.noConfusion) rfl rfl

/-- An eligible actuator stands at the tail of its owner job's queue. -/
theorem join_queued {j : Job} (hj : (s.cfg.acts[a]).kind.job = some j) (h : MayQueue s a) : s.join a = { s with
    disp := { s.disp with queues := s.disp.queues.set j (s.disp.queues.get j ++ [a]) }
    acts := s.acts.set a { s.acts[a] with dispatch := .queued } } := by
  unfold State.join
  rw [hj]
  exact if_pos (eligible_iff.2 h)

/-- Settles O46: the request by its test, and the join by eligibility. -/
theorem requestsAreTestedAndQueued : Obligations.RequestsAreTestedAndQueued := by
  intro s a
  refine ⟨fun kind z v => ?_, fun j hj h => join_queued hj h, fun h => join_waits fun he => h (eligible_iff.1 he)⟩
  intro c r w reference send
  unfold State.jobRequest
  simp only [Bool.and_eq_true, beq_iff_eq, and_assoc, limited_eq]
  refine if_congr Iff.rfl (congrArg (State.join · a) (updAct_congr s a _ _ ?_)) rfl
  rw [request_eq]
  exact if_congr (and_congr_right fun _ => deadbandTest_iff) rfl rfl

/-! ### Timers (R132, R141, R145) -/

theorem exec_refreshExpiry (h : (s.acts[a]).refreshTimer = .running 0) : exec (.refreshExpiry a) s = .next (s.refreshExpire a) :=
  congrArg Host.Outcome.next (if_pos ((due_iff _).2 h))

theorem refreshExpire_eq (s : State) (a : ActIx) : s.refreshExpire a =
    if (s.acts[a]).dispatch = .idle ∧ (s.acts[a]).needsSend = false ∧ (s.acts[a]).requested ≠ none then
      (s.updAct a fun r => { r with refreshTimer := .stopped, needsSend := true, refreshOnly := true }).join a
    else s.updAct a fun r => { r with refreshTimer := .stopped } := by
  unfold State.refreshExpire
  dsimp only
  rw [State.updAct_same, updAct_updAct]
  simp only [Bool.and_eq_true, beq_iff_eq, Bool.not_eq_true', Option.isSome_iff_ne_none, and_assoc]

/-- A change of control is reported for a dimmer alone, to its scene engine (R120). -/
theorem reportControl_changed (s : State) (a : ActIx) : s.reportControl a true =
    if (s.cfg.acts[a]).kind = .dimmer then State.reportScene (s.cfg.acts[a]).zone (s.sceneControl (s.cfg.acts[a]).zone a)
    else s := if_congr (and_iff_right rfl) rfl rfl

/-- The report of a changed control, by the entry as it stood before work that leaves the table of actuators. -/
theorem reportControl_of_acts (h : t.cfg.acts = s.cfg.acts) (a : ActIx) : t.reportControl a true =
    if (s.cfg.acts[a]).kind = .dimmer then State.reportScene (s.cfg.acts[a]).zone (t.sceneControl (s.cfg.acts[a]).zone a)
    else t := by
  rw [reportControl_changed, h]

theorem join_cfg (s : State) (a : ActIx) : (s.join a).cfg = s.cfg := by rw [join_frame]

theorem overrideEnds_eq (s : State) (a : ActIx) : s.overrideEnds a =
    if (s.cfg.acts[a]).kind = .dimmer then
      State.reportScene (s.cfg.acts[a]).zone
        (((s.updAct a ActRt.endOverride).join a).sceneControl (s.cfg.acts[a]).zone a)
    else (s.updAct a ActRt.endOverride).join a :=
  reportControl_of_acts (congrArg ConfigData.acts (join_cfg (s.updAct a ActRt.endOverride) a)) a

/-- Settles O47: each expiry is its own rule on the record, then the join and the report. -/
theorem actuatorTimersAct : Obligations.ActuatorTimersAct := by
  intro s a r
  refine ⟨fun h => (exec_refreshExpiry h).trans (congrArg Host.Outcome.next (refreshExpire_eq s a)),
    fun h => congrArg Host.Outcome.next (if_pos ((due_iff _).2 h)), fun h => ?_⟩
  have hexec : exec (.overrideHoldExpiry a) s = .next (s.overrideEnds a) := congrArg Host.Outcome.next (if_pos ((due_iff _).2 h))
  exact ⟨⟨_, hexec, zoneWork_overrideEnds s a rfl⟩, hexec.trans (congrArg Host.Outcome.next (overrideEnds_eq s a))⟩

end Sys2Proof.Machine
end

section
/-! SUPPORT. Foreign commands: the entry they name, what the forwarding queue takes of them, and the override. -/

namespace Sys2Proof.Machine

section Foreign

variable {s u : State} {t : Telegram} {a : ActIx}

/-! ### The entry that is named (R143) -/

/-- A foreign command names an entry in use by its node and channel. -/
def NamesActuator (s : State) (node channel : Nat) (a : ActIx) : Prop :=
  (s.cfg.acts[a]).inUse = true ∧ (s.cfg.acts[a]).node = node ∧ (s.cfg.acts[a]).channel = channel

theorem matchActuator_eq_some {node channel : Nat} (ha : NamesActuator s node channel a)
    (hfirst : ∀ b, b < a → ¬ NamesActuator s node channel b) : s.matchActuator node channel = some a := by
  rw [State.matchActuator, indices, ← Fin.find?_eq_find?_finRange, Fin.find?_eq_some_iff]
  exact ⟨by simpa [and_assoc, NamesActuator] using ha,
    fun b hb => by simpa [and_assoc, NamesActuator, ← Bool.not_eq_true] using hfirst b hb⟩

theorem matchActuator_eq_none {node channel : Nat} (h : ∀ a, ¬ NamesActuator s node channel a) :
    s.matchActuator node channel = none := by
  rw [State.matchActuator, List.find?_eq_none]
  intro a _
  simpa [and_assoc, NamesActuator] using h a

/-! ### Reception and forwarding (R152 to R155) -/

/-- A valid telegram on the trunk has made it active (R152). -/
def State.trunkHeard (s : State) : State := { s with lines := { s.lines with trunkActive := true } }

/-- A telegram heard on the trunk has been offered to the filter and the queue to the hall line (R154, R155). -/
def State.trunkOffered (s : State) (t : Telegram) : State :=
  { s with lines := { s.lines with
    trunkActive := true
    th := if s.filterAction .th t.dest.toNat = .pass then
        if s.lines.th.items.length < 16 then { s.lines.th with items := s.lines.th.items ++ [t] }
        else { s.lines.th with discards := min 65535 (s.lines.th.discards + 1) }
      else s.lines.th } }

theorem passes_iff {d : Direction} : s.passes d t = true ↔ s.filterAction d t.dest.toNat = .pass := beq_iff_eq

theorem offerFilter_heard (s : State) (t : Telegram) : s.trunkHeard.offerFilter .th t = s.trunkOffered t := by
  have hpasses : s.trunkHeard.passes .th t = true ↔ s.filterAction .th t.dest.toNat = .pass := passes_iff
  unfold State.offerFilter State.trunkOffered
  by_cases hp : s.filterAction .th t.dest.toNat = .pass
  · rw [if_pos (hpasses.2 hp), if_pos hp]
    rfl
  · rw [if_neg (mt hpasses.1 hp), if_neg hp]
    rfl

/-- A COMMAND heard on the trunk that is not for the part is judged (R143, R153). -/
theorem receive_foreign {heard : List RxByte} (hne : heard ≠ []) (hj : judgeUnit true heard = some t) (hk : t.kind = 2)
    (hd : t.dest ≠ s.own) : exec (.receivedUnit .trunk heard) s = .next (s.trunkHeard.judgeForeign t) := by
  have hr : ¬ t.kind = kindReading := by rw [hk]; decide
  have hc : t.kind = kindCommand := hk
  have hown : ¬ t.dest = (s.setLineActive .trunk).own := by rwa [setLineActive_own]
  refine congrArg Host.Outcome.next ((receive_valid hne hj).trans ?_)
  unfold State.hand State.handTransit
  rw [if_neg hown]
  dsimp only
  rw [if_neg hr, if_pos hc]
  rfl

/-! ### The judgement (R143, R144) -/

/-- A foreign command that is judged no override of an owned actuator goes to the filter. -/
theorem judgeForeign_short (h : t.payload.length ≠ 4) (s : State) : s.judgeForeign t = s.offerFilter .th t := by
  unfold State.judgeForeign
  cases hp : channelPayload t.payload with
  | none => rfl
  | some p =>
    obtain ⟨hi, lo, hl, -⟩ := channelPayload_some hp
    exact absurd (congrArg List.length hl) h

/-- The judgement of a foreign command of four bytes. -/
theorem judgeForeign_four {ch cls hi lo : Byte} (h : t.payload = [ch, cls, hi, lo]) (s : State) : s.judgeForeign t =
    if t.dest = 255 then if s.anyEnabled then s.setForeignBlocked else s.offerFilter .th t
    else match s.matchActuator t.dest.toNat ch.toNat with
      | none => s.offerFilter .th t
      | some a =>
        if (s.cfg.acts[a]).kind = .plain ∨ s.enabled (s.cfg.acts[a]).zone = false then s.offerFilter .th t
        else if cls = 1 then s.forwardOverride a t
        else s.setForeignBlocked := by
  unfold State.judgeForeign
  rw [h]
  dsimp only [channelPayload]
  split
  · rfl
  · cases s.matchActuator t.dest.toNat ch.toNat with
    | none => rfl
    | some a =>
      dsimp only
      refine if_congr ?_ rfl rfl
      rw [Bool.or_eq_true, beq_iff_eq, Bool.not_eq_true']

/-- One to 255 is blocked while a zone is enabled. -/
theorem judgeForeign_broadcast {ch cls hi lo : Byte} (h : t.payload = [ch, cls, hi, lo]) (hd : t.dest = 255) (s : State) :
    s.judgeForeign t = if s.anyEnabled then s.setForeignBlocked else s.offerFilter .th t :=
  (judgeForeign_four h s).trans (if_pos hd)

theorem judgeForeign_unnamed {ch cls hi lo : Byte} (h : t.payload = [ch, cls, hi, lo]) (hd : t.dest ≠ 255)
    (hm : s.matchActuator t.dest.toNat ch.toNat = none) : s.judgeForeign t = s.offerFilter .th t := by
  rw [judgeForeign_four h, if_neg hd, hm]

theorem judgeForeign_named {ch cls hi lo : Byte} (h : t.payload = [ch, cls, hi, lo]) (hd : t.dest ≠ 255)
    (hm : s.matchActuator t.dest.toNat ch.toNat = some a) : s.judgeForeign t =
      if (s.cfg.acts[a]).kind = .plain ∨ s.enabled (s.cfg.acts[a]).zone = false then s.offerFilter .th t
      else if cls = 1 then s.forwardOverride a t
      else s.setForeignBlocked := by
  rw [judgeForeign_four h, if_neg hd, hm]

theorem anyEnabled_false (h : ∀ z : ZoneIx, s.enabled z = false) : s.anyEnabled = false := by
  unfold State.anyEnabled
  rw [List.any_eq_false]
  exact fun z _ => Bool.eq_false_iff.1 (h z)

/-- An override is offered to the queue, and takes effect where the queue takes it. -/
theorem forwardOverride_eq (s : State) (a : ActIx) (t : Telegram) : s.trunkHeard.forwardOverride a t =
    if s.filterAction .th t.dest.toNat = .pass ∧ s.lines.th.items.length < 16 then
      ((s.trunkOffered t).overrideEffect a).1.reportControl a ((s.trunkOffered t).overrideEffect a).2
    else s.trunkOffered t := by
  unfold State.forwardOverride
  rw [offerFilter_heard]
  refine if_congr ?_ rfl rfl
  rw [Bool.and_eq_true, passes_iff, State.queueRoom, decide_eq_true_eq]
  rfl

theorem trunkOffered_blocked (h : s.filterAction .th t.dest.toNat = .block) : s.trunkOffered t = s.trunkHeard := by
  unfold State.trunkOffered
  rw [h]
  rfl

theorem trunkOffered_full (hp : s.filterAction .th t.dest.toNat = .pass) (hf : 16 ≤ s.lines.th.items.length) :
    s.trunkOffered t = { s with lines := { s.lines with
      trunkActive := true, th := { s.lines.th with discards := min 65535 (s.lines.th.discards + 1) } } } := by
  unfold State.trunkOffered
  rw [if_pos hp, if_neg (Nat.not_lt.2 hf)]

theorem trunkOffered_lines (hp : s.filterAction .th t.dest.toNat = .pass) (hr : s.lines.th.items.length < 16) :
    (s.trunkOffered t).lines = { s.lines with
      trunkActive := true, th := { s.lines.th with items := s.lines.th.items ++ [t] } } := by
  unfold State.trunkOffered
  rw [if_pos hp, if_pos hr]

theorem reportControl_unchanged (s : State) (a : ActIx) : s.reportControl a false = s := by
  unfold State.reportControl
  exact if_neg fun h => Bool.noConfusion h.1

/-! ### The override of an ENABLED actuator (R131, R144) -/

/-- The actuator has left its queue and is OVERRIDDEN with its override hold. -/
def State.overridden (s : State) (a : ActIx) : State :=
  (s.unqueue a).updAct a fun r =>
    { r with control := .overridden, overrideTimer := .running ((s.cfg.acts[a]).overrideHold * 60 * 1000) }

theorem overridden_cfg (s : State) (a : ActIx) : (s.overridden a).cfg = s.cfg := by
  rw [State.overridden, State.updAct_cfg, unqueue_frame]

theorem overridden_record (s : State) (a : ActIx) : (s.overridden a).acts[a] = { (s.unqueue a).acts[a] with
    control := .overridden, overrideTimer := .running ((s.cfg.acts[a]).overrideHold * 60 * 1000) } := State.updAct_same ..

theorem overrideEffect_enabled (h : (s.acts[a]).control = .enabled) : s.overrideEffect a = (s.overridden a, true) := by
  unfold State.overrideEffect
  rw [h]
  rfl

theorem overrideEffect_overridden (h : (s.acts[a]).control = .overridden) : s.overrideEffect a =
    (s.updAct a fun r => { r with overrideTimer := .running ((s.cfg.acts[a]).overrideHold * 60 * 1000) }, false) := by
  unfold State.overrideEffect
  rw [h]
  rfl

theorem overrideEffect_disabled (h : (s.acts[a]).control = .disabled ∨ (s.acts[a]).control = .disabling) :
    s.overrideEffect a = (s, false) := by
  unfold State.overrideEffect
  rcases h with h | h <;> rw [h]

/-- A queued actuator of a job is IDLE when it has left its queue. -/
theorem unqueue_idle (hk : (s.cfg.acts[a]).kind ≠ .plain) (hq : (s.acts[a]).dispatch = .queued) :
    ((s.unqueue a).acts[a]).dispatch = .idle := by
  rcases unqueue_cases s a with ⟨-, h⟩ | ⟨j, -, h⟩
  · have hjob := h hq
    rw [← job_isSome_iff, hjob] at hk
    cases hk
  · rw [h, State.updAct_same]

/-- The report of an override leaves the overridden actuator as it is, the lines and the other zones. -/
theorem overridden_reported (s : State) (a : ActIx) : OneZoneWork (s.cfg.acts[a]).zone (s.overridden a)
      ((s.overridden a).reportControl a true) := by
  refine zoneWork_reportControl _ a true ?_
  rw [overridden_cfg]

theorem overridden_reported_record (s : State) (a : ActIx) :
    (((s.overridden a).reportControl a true).acts[a]).control = .overridden ∧
    (((s.overridden a).reportControl a true).acts[a]).overrideTimer =
      .running ((s.cfg.acts[a]).overrideHold * 60 * 1000) ∧
    (((s.overridden a).reportControl a true).acts[a]).dispatch = ((s.unqueue a).acts[a]).dispatch := by
  have hsame := (overridden_reported s a).record a
  have hrecord := overridden_record s a
  have hcontrol : ((s.overridden a).acts[a]).control = .overridden := by rw [hrecord]
  have hdispatch := (joins_reportControl (s.overridden a) a true).dispatch a (by rw [hcontrol]; exact Control.noConfusion)
  refine ⟨hsame.control.trans hcontrol, ?_, hdispatch.trans (by rw [hrecord])⟩
  rw [hsame.record, hrecord]

end Foreign

/-- Settles O24: the entry is the first that the command names, and each row of the judgement is one branch of it. -/
theorem foreignCommandsAreJudged : Obligations.ForeignCommandsAreJudged := by
  refine ⟨fun s node ch => ⟨fun a ha hfirst => matchActuator_eq_some ha hfirst, fun h => matchActuator_eq_none h⟩, ?_⟩
  intro s heard t hne hj hk hd u offered passed
  have hexec := receive_foreign hne hj hk hd
  have hpassed (h : s.trunkHeard.judgeForeign t = s.trunkHeard.offerFilter .th t) : passed :=
    hexec.trans (congrArg Host.Outcome.next (h.trans (offerFilter_heard s t)))
  refine ⟨fun h => hpassed (judgeForeign_short h _), fun ch cls hi lo hp => ?_⟩
  have hunowned (a : ActIx) (hd : t.dest ≠ 255) (ha : s.matchActuator t.dest.toNat ch.toNat = some a)
      (ho : (s.cfg.acts[a]).kind = .plain ∨ s.enabled (s.cfg.acts[a]).zone = false) : passed :=
    hpassed ((judgeForeign_named (s := s.trunkHeard) hp hd ha).trans (if_pos ho))
  refine ⟨fun hd hany => ?_, fun hd hoff => hpassed ?_, fun hd hm => hpassed (judgeForeign_unnamed (s := s.trunkHeard) hp hd hm),
    fun a hd ha ho => hunowned a hd ha ho, fun a hd ha hk hen => ?_⟩
  · exact hexec.trans (congrArg Host.Outcome.next ((judgeForeign_broadcast hp hd _).trans (if_pos hany)))
  · refine (judgeForeign_broadcast hp hd _).trans (if_neg ?_)
    rw [anyEnabled_false (s := s.trunkHeard) hoff]
    exact Bool.noConfusion
  have howned : exec (.receivedUnit .trunk heard) s = .next
      (if cls = 1 then s.trunkHeard.forwardOverride a t else s.trunkHeard.setForeignBlocked) := by
    refine hexec.trans (congrArg Host.Outcome.next ((judgeForeign_named (s := s.trunkHeard) hp hd ha).trans (if_neg ?_)))
    rintro (h | h)
    · exact hk h
    · exact Bool.noConfusion (h.symm.trans hen)
  have hoverride (hcls : cls = 1) : exec (.receivedUnit .trunk heard) s = .next (
      if s.filterAction .th t.dest.toNat = .pass ∧ s.lines.th.items.length < 16 then
        ((s.trunkOffered t).overrideEffect a).1.reportControl a ((s.trunkOffered t).overrideEffect a).2
      else s.trunkOffered t) := by
    rw [howned, if_pos hcls, forwardOverride_eq]
  have htaken (hcls : cls = 1) (hpass : s.filterAction .th t.dest.toNat = .pass) (hroom : s.lines.th.items.length < 16) :
      exec (.receivedUnit .trunk heard) s =
        .next (((s.trunkOffered t).overrideEffect a).1.reportControl a ((s.trunkOffered t).overrideEffect a).2) := by
    rw [hoverride hcls, if_pos ⟨hpass, hroom⟩]
  refine ⟨fun hcls => ?_, fun hcls hb => ?_, fun hcls hpass hfull => ?_, fun hcls hoff => ?_, fun hcls hpass hroom => ?_⟩
  · rw [howned, if_neg hcls]
    rfl
  · rw [hoverride hcls, if_neg (by rw [hb]; exact fun h => FilterAction.noConfusion h.1), trunkOffered_blocked hb]
    rfl
  · rw [hoverride hcls, if_neg fun h => absurd h.2 (Nat.not_lt.2 hfull), trunkOffered_full hpass hfull]
  · refine (hoverride hcls).trans (congrArg Host.Outcome.next ((if_congr Iff.rfl ?_ rfl).trans (ite_self _)))
    rw [overrideEffect_disabled (s := s.trunkOffered t) hoff]
    exact reportControl_unchanged _ a
  refine ⟨fun hover => ?_, fun henabled => ?_⟩
  · rw [htaken hcls hpass hroom, overrideEffect_overridden (s := s.trunkOffered t) hover, reportControl_unchanged]
    rfl
  have hw := htaken hcls hpass hroom
  rw [overrideEffect_enabled (s := s.trunkOffered t) henabled] at hw
  obtain ⟨hcontrol, htimer, hdispatch⟩ := overridden_reported_record (s.trunkOffered t) a
  have hwork := overridden_reported (s.trunkOffered t) a
  have hleft := unqueue_frame (s.trunkOffered t) a
  refine ⟨_, hw, hcontrol, htimer, fun hq => hdispatch.trans (unqueue_idle (s := s.trunkOffered t) hk hq), ?_, fun z hz => ?_, ?_⟩
  · rw [hwork.lines, State.overridden, State.updAct_lines, hleft, trunkOffered_lines hpass hroom]
  · rw [hwork.zone z hz, State.overridden, State.updAct_zones, hleft]
    rfl
  · exact reportControl_of_acts (congrArg ConfigData.acts (overridden_cfg (s.trunkOffered t) a)) a

end Sys2Proof.Machine
end

section
/-! SUPPORT. ACTUATOR_CONTROL: the request's row, its checks, and the two effects (R131, R146). -/

namespace Sys2Proof.Machine

section Control

variable {s u : State} {c : Channel} {t : Telegram} {a : ActIx} {action : Byte} {f : ActRt → ActRt}

/-! ### Leaving a queue (R131) -/

theorem unqueue_queued {j : Job} (hj : (s.cfg.acts[a]).kind.job = some j) (hq : (s.acts[a]).dispatch = .queued) :
    s.unqueue a = { s with
      disp := { s.disp with queues := s.disp.queues.set j ((s.disp.queues.get j).erase a) }
      acts := s.acts.set a { s.acts[a] with dispatch := .idle } } := by
  unfold State.unqueue
  rw [hj]
  exact if_pos (beq_iff_eq.2 hq)

theorem unqueue_stands (hq : (s.acts[a]).dispatch ≠ .queued) : s.unqueue a = s := by
  unfold State.unqueue
  split
  next => rfl
  next => exact if_neg fun h => hq (beq_iff_eq.1 h)

/-! ### The two effects (R146) -/

theorem disableActuator_sends (hc : (s.acts[a]).control = .enabled ∨ (s.acts[a]).control = .overridden) :
    s.disableActuator a = ((s.unqueue a).updAct a ActRt.disabled, true) := by
  unfold State.disableActuator
  rcases hc with h | h <;> rw [h] <;> rfl

theorem disableActuator_stands (hc : (s.acts[a]).control = .disabled ∨ (s.acts[a]).control = .disabling) :
    s.disableActuator a = (s, false) := by
  unfold State.disableActuator
  rcases hc with h | h <;> rw [h]

theorem enableActuator_stands (hc : (s.acts[a]).control = .enabled) : s.enableActuator a = (s, false) := by
  unfold State.enableActuator
  rw [hc]

theorem enableActuator_disabled (hc : (s.acts[a]).control = .disabled) :
    s.enableActuator a = ((s.updAct a fun r => { r with control := .enabled }).join a, true) := by
  unfold State.enableActuator
  rw [hc]

theorem enableActuator_disabling (hc : (s.acts[a]).control = .disabling) :
    s.enableActuator a = (s.updAct a fun r => { r with control := .enabled }, true) := by
  unfold State.enableActuator
  rw [hc]

theorem enableActuator_overridden (hc : (s.acts[a]).control = .overridden) :
    s.enableActuator a = ((s.updAct a ActRt.endOverride).join a, true) := by
  unfold State.enableActuator
  rw [hc]

/-! ### The request -/

/-- The row of an ACTUATOR_CONTROL by its action. -/
def controlRow (action : Byte) : Instr := if action = 0 then .actuatorDisable else .actuatorEnable

/-- The effect of an ACTUATOR_CONTROL by its action. -/
def controlEffect (action : Byte) : State → ActIx → State × Bool :=
  if action = 0 then State.disableActuator else State.enableActuator

theorem controlEffect_zero (h : action = 0) (s : State) (a : ActIx) : controlEffect action s a = s.disableActuator a :=
  congrFun (congrFun (if_pos h) s) a

theorem controlEffect_one (h : action = 1) (s : State) (a : ActIx) : controlEffect action s a = s.enableActuator a := by
  subst h
  rfl

theorem action_zero_or_one (h : action.toNat ≤ 1) : action = 0 ∨ action = 1 := by bv_omega

theorem row_of_actuatorControl (h : NextIs s c t 6 [BitVec.ofNat 8 a, action]) (hv : action.toNat ≤ 1) :
    (Request.of c t).row = controlRow action := by
  have hparam : (Request.of c t).param 1 = action.toNat := request_param h.payload 1
  have hkind : (Request.of c t).kind = some .actuatorControl := (kind_of_next h).trans rfl
  unfold Request.row
  rw [hkind]
  dsimp only
  rw [request_params h.payload, hparam]
  rcases action_zero_or_one hv with rfl | rfl <;> rfl

/-- The checks of R146 on the entry, and the effect on the actuator with its report. -/
theorem actuatorChecked_reply (effect : State → ActIx → State × Bool) (h : NextIs s c t 6 [BitVec.ofNat 8 a, action])
    (hv : action.toNat ≤ 1) : (actuatorChecked effect (.of c t) (s.taken c)).reply (.of c t) =
      if (s.cfg.acts[a]).inUse = false then (s.taken c).replied c t 6 .wrongState []
      else if c = .trunk ∧ (s.cfg.acts[a]).protect = true then (s.taken c).setProtectFault.replied c t 6 .protectedEntry []
      else ((effect (s.taken c) a).1.reportControl a (effect (s.taken c) a).2).replied c t 6 .done [] := by
  have ha : (Request.of c t).param 0 = (BitVec.ofNat 8 a.val : Byte).toNat := request_param h.payload 0
  have haction : (Request.of c t).param 1 = action.toNat := request_param h.payload 1
  unfold actuatorChecked
  rw [ha, haction, asIndex_byte a (by decide), taken_cfg]
  dsimp only
  rw [if_neg (Nat.not_lt.2 hv), request_channel]
  cases (s.cfg.acts[a]).inUse with
  | false => exact reply_now _ rfl h.payload
  | true =>
    rw [Bool.not_true, if_neg Bool.false_ne_true, if_neg Bool.false_ne_true.symm]
    split
    next => exact reply_now (.of (s.taken c).refuseProtected) rfl h.payload
    next => exact reply_now (State.done _) rfl h.payload

theorem exec_actuatorControl (h : NextIs s c t 6 [BitVec.ofNat 8 a, action]) (hv : action.toNat ≤ 1) :
    exec (controlRow action) s = .next (
      if (s.cfg.acts[a]).inUse = false then (s.taken c).replied c t 6 .wrongState []
      else if c = .trunk ∧ (s.cfg.acts[a]).protect = true then (s.taken c).setProtectFault.replied c t 6 .protectedEntry []
      else ((controlEffect action (s.taken c) a).1.reportControl a (controlEffect action (s.taken c) a).2).replied
        c t 6 .done []) := by
  rw [← actuatorChecked_reply _ h hv]
  have hrow := row_of_actuatorControl h hv
  rcases action_zero_or_one hv with rfl | rfl
  · exact congrArg Host.Outcome.next (serve_own (actuatorChecked State.disableActuator) .actuatorDisable h hrow)
  · exact congrArg Host.Outcome.next (serve_own (actuatorChecked State.enableActuator) .actuatorEnable h hrow)

/-! ### The outcome of a request that passes its checks -/

/-- The answer of a control that changed: the work on the actuator, and a dimmer's report to its scene engine. -/
def controlAnswer (s : State) (c : Channel) (t : Telegram) (a : ActIx) (v : State) : State :=
  (if (s.cfg.acts[a]).kind = .dimmer then
    State.reportScene (s.cfg.acts[a]).zone (v.sceneControl (s.cfg.acts[a]).zone a) else v).replied c t 6 .done []

/-- Work that made `v` from the request's state, reported, is work on the actuator's zone. -/
theorem reported_work {v : State} (hv : OneZoneWork (s.cfg.acts[a]).zone ((s.taken c).updAct a f) v) :
    OneZoneWork (s.cfg.acts[a]).zone ((s.taken c).updAct a f) (v.reportControl a true) := by
  refine hv.trans (zoneWork_reportControl _ a true ?_)
  rw [hv.zoneOf, State.updAct_cfg, taken_cfg]

theorem reported_answer {v : State} (hv : OneZoneWork (s.cfg.acts[a]).zone ((s.taken c).updAct a f) v) :
    (v.reportControl a true).replied c t 6 .done [] = controlAnswer s c t a v := by
  refine congrArg (State.replied · c t 6 .done []) (reportControl_of_acts ?_ a)
  rw [hv.cfg, State.updAct_cfg, taken_cfg]

end Control

/-- Settles O54: the checks before the effect, and the effect by the actuator's control. -/
theorem actuatorControlActs : Obligations.ActuatorControlActs := by
  refine ⟨fun s a => ⟨fun j hj hq => unqueue_queued hj hq, fun hq => unqueue_stands hq⟩, ?_⟩
  intro s c t a action h hv cmd r zone changed becomes ended
  have hexec := exec_actuatorControl h hv
  refine ⟨fun hu => hexec.trans ?_, fun hu hc hp => hexec.trans ?_, fun hu hfree => ?_⟩
  · rw [if_pos hu]
  · rw [if_neg (by rw [hu]; decide), if_pos ⟨hc, hp⟩]
  have hpasses : ¬ (c = .trunk ∧ (s.cfg.acts[a]).protect = true) := by
    rintro ⟨rfl, hp⟩
    rcases hfree with hc | hc
    · cases hc
    · rw [hc] at hp
      cases hp
  rw [if_neg (by rw [hu]; decide), if_neg hpasses] at hexec
  have hrecord : (s.taken c).acts[a] = r := congrArg (·[a]) (taken_acts s c)
  have hstands (he : controlEffect action (s.taken c) a = (s.taken c, false)) :
      exec cmd s = .next ((s.taken c).replied c t 6 .done []) := by
    refine hexec.trans ?_
    rw [he, reportControl_unchanged]
  have hchanges (f : ActRt → ActRt) (v : State) (he : controlEffect action (s.taken c) a = (v, true))
      (hw : OneZoneWork zone ((s.taken c).updAct a f) v) : changed f ∧ becomes v := by
    rw [he] at hexec
    exact ⟨⟨_, hexec, reported_work hw⟩, hexec.trans (congrArg Host.Outcome.next (reported_answer hw))⟩
  have hjoins (f : ActRt → ActRt) : OneZoneWork zone ((s.taken c).updAct a f) (((s.taken c).updAct a f).join a) :=
    zoneWork_join _ a (by rw [State.updAct_cfg, taken_cfg])
  have hsendsAgain (h1 : action = 1) (hc : r.control = .disabled) :=
    hchanges _ _ ((controlEffect_one h1 _ a).trans (enableActuator_disabled (by rwa [hrecord]))) (hjoins _)
  have hkeepsSending (h1 : action = 1) (hc : r.control = .disabling) :=
    hchanges _ _ ((controlEffect_one h1 _ a).trans (enableActuator_disabling (by rwa [hrecord]))) (.refl _ _)
  refine ⟨fun h0 hc => ?_, fun h0 hc => hstands ?_, fun h1 hc => hstands ?_, fun h1 hc => ?_,
    fun h1 hc => (hsendsAgain h1 hc).2, fun h1 hc => (hkeepsSending h1 hc).2, fun h1 hc => ?_⟩
  · rw [← hrecord] at hc
    have hsends := disableActuator_sends hc
    have hwork := zoneWork_disableActuator (zs := fun w => w = zone) (s.taken c) a (by rw [taken_cfg]) hc
    rw [hsends] at hwork
    exact hchanges _ _ ((controlEffect_zero h0 _ a).trans hsends) hwork
  · exact (controlEffect_zero h0 _ a).trans (disableActuator_stands (by rwa [hrecord]))
  · exact (controlEffect_one h1 _ a).trans (enableActuator_stands (by rwa [hrecord]))
  · exact hc.elim (fun hc => (hsendsAgain h1 hc).1) fun hc => (hkeepsSending h1 hc).1
  · exact hchanges _ _ ((controlEffect_one h1 _ a).trans (enableActuator_overridden (by rwa [hrecord]))) (hjoins _)

end Sys2Proof.Machine
end
